-- ==== Sys2Proof/Word.lean ====
section
/-! DEFINITION. The word types of the Relquel and their plainest arithmetic (R7, R46, R68). Everything is little-endian and
bit 0 is the least significant bit. -/

namespace Sys2Proof

/-- A byte of memory or of the bench. -/
abbrev Byte := BitVec 8
/-- A 32-bit register word (R25). -/
abbrev W32 := BitVec 32
/-- A 64-bit register pair or address (R51). -/
abbrev W64 := BitVec 64
/-- An instruction word of three dwords (R46). -/
abbrev W96 := BitVec 96
/-- The 128 data bytes of a cache line, byte 0 at bits [7:0] (R285). -/
abbrev LineData := BitVec 1024
/-- One bit for each byte of a cache line (R285). -/
abbrev LineMask := BitVec 128

end Sys2Proof
end

