-- ==== Sys2Proof/Config.lean ====
section
/-! DEFINITION. What the specification leaves to the implementation, and the free values: constants with no body, so that no
proof can see a value of theirs (log entries 6, 7, 8, 10 and 24). -/

namespace Sys2Proof.Config

/-- A byte that the specification leaves open: a byte read from a peer device's memory (R404). The argument is the state's
counter of free values (log entry 8). -/
opaque freePeerByte : Nat → BitVec 8

/-- AES-256-XTS of one 64-byte data unit, which the manual names and does not define (R395): encryption and decryption under the key of a tag, with
the unit's number pa[47:6] as tweak. A unit read under another key than it was encrypted with is the one decryption of the other encryption (log entry 10). -/
opaque xtsEncrypt : Nat → Nat → BitVec 512 → BitVec 512
opaque xtsDecrypt : Nat → Nat → BitVec 512 → BitVec 512

/-- The largest queue depth among the controllers of the sampled lines, which the MXV dispatcher reads: it depends on
timing (R358, R360; log entry 24). -/
opaque freeQueueDepth : Nat → BitVec 8

/-- The first 64 bytes of SHAKE256 over a list of bytes, as a number with byte 0 lowest. The manual names the function and
does not define it (R406, R407, R409; log entry 7). -/
opaque shake256 : List (BitVec 8) → BitVec 512

/-- Whether a Falcon-1024 signature verifies: public key, digest, signature (R406; log entry 7). -/
opaque falconVerify : List (BitVec 8) → BitVec 512 → List (BitVec 8) → Bool

/-- The device's Falcon-1024 signature over a digest (R407; log entry 7). -/
opaque falconSign : BitVec 512 → List (BitVec 8)

/-- The fused digest of the firmware public key (R406). -/
opaque fusedKeyDigest : BitVec 512

/-- The fused floor of the security version number (R406). -/
opaque fusedSvnFloor : BitVec 16

/-- The device serial number (R407). -/
opaque deviceSerial : BitVec 64

/-- A byte of the device certificate at a given offset (R400 CERT, R407). -/
opaque certByte : Nat → BitVec 8

end Sys2Proof.Config
end

