-- ==== Sys2Proof/Syntax.lean ====
section
/-! DEFINITION. The instructions and steps of the Relquel as syntax: operand fields (R49 to R55), the two instruction forms
(R46), and ONE inductive with a constructor for every row of spec/opcode_table.json. A row that is a 96-bit instruction carries
its decoded fields; a row that is a step of another agent carries what that agent or the outside world chose (log entry 1). -/

namespace Sys2Proof

/-- The views of R52 and R53: one 32-bit, two 16-bit, four 8-bit, eight 4-bit elements. -/
inductive View where
  | w | h | b | n
  deriving DecidableEq, Repr, Inhabited

/-- The type codes of R57, in code order 0x0 to 0xF. -/
inductive Ty where
  | b32 | i32 | n32 | f32 | i16x2 | n16x2 | h16x2 | bf16x2
  | i8x4 | n8x4 | e4m3x4 | e5m2x4 | i64 | n64 | q4 | e8m0x4
  deriving DecidableEq, Repr, Inhabited

/-- The named resources of R50. -/
inductive Res where
  | q (n : BitVec 4)
  | tg (n : BitVec 6)
  | cb (n : BitVec 6)
  | fl (n : Fin 12)
  deriving DecidableEq, Repr

/-- A decoded 16-bit operand field (R49). Reserved codes have no constructor. -/
inductive Opnd where
  | lane (num : BitVec 8) (view : View) (sel : BitVec 3)
  | uni (num : BitVec 6) (view : View) (sel : BitVec 3)
  | pred (num : BitVec 3) (neg : Bool)
  | sreg (num : BitVec 8)
  | imm (v : BitVec 13)
  | res (r : Res)
  | tile (num : BitVec 3)
  | none
  deriving DecidableEq, Repr

/-- The fields that both forms of R46 share: TY, MOD, GP, GN, DIST, SETF and YLD. -/
structure Common where
  ty   : Ty
  md   : BitVec 6
  gp   : BitVec 3
  gn   : Bool
  dist : BitVec 4
  setf : BitVec 4
  yld  : Bool
  deriving DecidableEq, Repr

/-- A form R instruction (R46): the common fields, three operand fields and the wait mask. -/
structure FormR extends Common where
  od : Opnd
  oa : Opnd
  ob : Opnd
  wm : BitVec 12
  deriving DecidableEq, Repr

/-- A form L instruction (R46): the common fields, two operand fields and the 32-bit immediate. -/
structure FormL extends Common where
  od  : Opnd
  oa  : Opnd
  imm : BitVec 32
  deriving DecidableEq, Repr

/-- What a peer asks of this device's memory (R172, R404): a read or a write of some bytes, an atomic of ATOM's or RED's operation code on a type, a
compare-and-swap against `a`, or an addend for a reduction slot. -/
inductive PeerReq where
  | read
  | write
  | atomic (ty : Ty) (op : Nat)
  | cas (a : Nat)
  | add
  deriving DecidableEq, Repr

/-- What memory training finds: the channels whose population differs from R2's (R406), and whether the memory carries check symbols (R4, R306). -/
structure Training where
  differs : List Nat
  checks : Bool
  deriving DecidableEq, Repr

/-- Every row of spec/opcode_table.json. -/
inductive Instr where
  /-- NOP (R190): Does nothing and issues as one instruction turn. -/
  | nop (f : FormR)
  /-- BRA (R190): Branches to PC + 12 + IMM in each slice where the guard takes effect. -/
  | bra (f : FormL)
  /-- BRX (R190): Branches to the 64-bit address held in a uniform pair. -/
  | brx (f : FormR)
  /-- CALL (R190): Writes the link PC + 12 to a uniform pair and branches by a signed offset. -/
  | call (f : FormL)
  /-- CALLX (R190): Writes the link PC + 12 and branches to the address held in a uniform pair. -/
  | callx (f : FormR)
  /-- RET (R190): Returns to the address held in a uniform pair; it acts as BRX. -/
  | ret (f : FormR)
  /-- EXIT (R191): Ends each thread whose guard holds, after any deferred trap is taken, and ends the slice when no live thread is left. -/
  | exit (f : FormR)
  /-- PUSHJ (R193): Splits the active set by a predicate and pushes a reconvergence entry and, where needed, a pending-path entry. -/
  | pushj (f : FormL)
  /-- JOIN (R194): Pops the mask stack until it finds a non-empty set of live threads. -/
  | join (f : FormR)
  /-- REGANG (R196): Steps the site's pass count and arrives at the reconvergence instance of the slice's strand. -/
  | regang (f : FormL)
  /-- PART (R201): Divides the served slices into sub-gangs by a predicate or by active-thread count. -/
  | part (f : FormR)
  /-- REFILL (R204): Pops work-queue items into the slice's vacant or exited positions. -/
  | refill (f : FormR)
  /-- REFILL_PUSH (R204): Appends the participants' item indices to the tail of a work queue. -/
  | refillPush (f : FormR)
  /-- TLAUNCH (R207): Checks a launch record and makes it a candidate for the grid's tail-launch link. -/
  | tlaunch (f : FormR)
  /-- YIELD (R202): Makes each served slice sit out its next min(n, 255) visits. -/
  | yield (f : FormR)
  /-- TRAP (R219): Raises the precise trap TRAP with a 16-bit code. -/
  | trap (f : FormR)
  /-- BRK (R219): Raises the precise trap BRK with a 16-bit code. -/
  | brk (f : FormR)
  /-- RDSR (R220): Reads a special register into a register or a register pair. -/
  | rdsr (f : FormR)
  /-- WRSR (R220): Writes a privileged special register in fixed thread order. -/
  | wrsr (f : FormR)
  /-- IFENCE (R222): Waits until earlier accesses are performed at .dev and then invalidates the core's instruction cache. -/
  | ifence (f : FormR)
  /-- IADD (R118): Integer addition with wrap. -/
  | iadd (f : FormR)
  /-- ISUB (R118): Integer subtraction with wrap. -/
  | isub (f : FormR)
  /-- IMUL (R118): Low 32 bits of an integer product. -/
  | imul (f : FormR)
  /-- IMULH (R118): High 32 bits of the exact 64-bit product. -/
  | imulh (f : FormR)
  /-- IMAD (R118): Destructive integer multiply-add with wrap. -/
  | imad (f : FormR)
  /-- IMADW (R119): Destructive 64-bit accumulate of a 32-bit product into a register pair. -/
  | imadw (f : FormR)
  /-- IDIV (R120): Integer quotient, truncated toward zero, delivered as a held class-V result. -/
  | idiv (f : FormR)
  /-- IREM (R120): Integer remainder, with the sign of the dividend, delivered as a held class-V result. -/
  | irem (f : FormR)
  /-- IMIN (R118): Element-wise minimum of two integers. -/
  | imin (f : FormR)
  /-- IMAX (R118): Element-wise maximum of two integers. -/
  | imax (f : FormR)
  /-- IABS (R118): Integer absolute value, with optional saturation. -/
  | iabs (f : FormR)
  /-- INEG (R118): Integer negation, with optional saturation. -/
  | ineg (f : FormR)
  /-- IADDC (R121): Addition with a carry in and a carry out through a predicate. -/
  | iaddc (f : FormR)
  /-- ISUBB (R121): Subtraction with a borrow in and a borrow out through a predicate. -/
  | isubb (f : FormR)
  /-- SHL (R122): Shift left per element. -/
  | shl (f : FormR)
  /-- SHR (R122): Logical shift right per element. -/
  | shr (f : FormR)
  /-- SAR (R122): Arithmetic shift right per element. -/
  | sar (f : FormR)
  /-- ROT (R122): Rotates a 32-bit word left or right. -/
  | rot (f : FormR)
  /-- AND (R123): Bitwise and. -/
  | andW (f : FormR)
  /-- OR (R123): Bitwise or. -/
  | orW (f : FormR)
  /-- XOR (R123): Bitwise exclusive or. -/
  | xorW (f : FormR)
  /-- ANDN (R123): Bitwise a and not b. -/
  | andn (f : FormR)
  /-- NOT (R123): Bitwise complement. -/
  | notW (f : FormR)
  /-- BFE (R124): Extracts a bit field, with sign extension for I32. -/
  | bfe (f : FormR)
  /-- BFI (R124): Inserts a bit field into the destination. -/
  | bfi (f : FormR)
  /-- POPC (R123): Counts the set bits. -/
  | popc (f : FormR)
  /-- CLZ (R123): Counts the leading zero bits. -/
  | clz (f : FormR)
  /-- CTZ (R123): Counts the trailing zero bits. -/
  | ctz (f : FormR)
  /-- BREV (R123): Reverses the bit order of a word. -/
  | brev (f : FormR)
  /-- LEA (R125): Adds a shifted 32-bit offset to a base. -/
  | lea (f : FormR)
  /-- LEA64 (R125): Adds a shifted, extended offset to a 64-bit base pair. -/
  | lea64 (f : FormR)
  /-- MOV (R126): Copies a source to the destination. -/
  | mov (f : FormR)
  /-- MOVI (R126): Writes a 32-bit immediate. -/
  | movi (f : FormL)
  /-- MOVH (R126): Writes a pair: the immediate to the odd register and the source to the even one. -/
  | movh (f : FormL)
  /-- SEL (R126): Selects one of two sources per thread by a predicate. -/
  | sel (f : FormR)
  /-- ITST (R128): Integer compare whose result goes to a predicate. -/
  | itst (f : FormR)
  /-- ICMP (R128): Integer compare whose result goes to an element mask. -/
  | icmp (f : FormR)
  /-- IADD64 (R129): 64-bit pair addition. -/
  | iadd64 (f : FormR)
  /-- ISUB64 (R129): 64-bit pair subtraction. -/
  | isub64 (f : FormR)
  /-- IMUL64 (R129): Low 64 bits of a pair product. -/
  | imul64 (f : FormR)
  /-- SHL64 (R129): 64-bit shift left. -/
  | shl64 (f : FormR)
  /-- SHR64 (R129): 64-bit shift right, logical or arithmetic by type. -/
  | shr64 (f : FormR)
  /-- FADD (R131): FP32 addition with the chosen rounding mode. -/
  | fadd (f : FormR)
  /-- FSUB (R131): FP32 subtraction with the chosen rounding mode. -/
  | fsub (f : FormR)
  /-- FMUL (R131): FP32 multiplication with the chosen rounding mode. -/
  | fmul (f : FormR)
  /-- FFMA (R131): Destructive FP32 fused multiply-add with one rounding. -/
  | ffma (f : FormR)
  /-- FMIN (R132): FP32 minimum, with -0 ordered below +0. -/
  | fmin (f : FormR)
  /-- FMAX (R132): FP32 maximum, with -0 ordered below +0. -/
  | fmax (f : FormR)
  /-- FTST (R133): FP32 compare whose result goes to a predicate. -/
  | ftst (f : FormR)
  /-- FCMP (R133): FP32 compare whose result goes to a word mask. -/
  | fcmp (f : FormR)
  /-- FRND (R134): Rounds an FP32 value to an integral value. -/
  | frnd (f : FormR)
  /-- FDIV (R91): Correctly rounded FP32 division. -/
  | fdiv (f : FormR)
  /-- FSQRT (R91): Correctly rounded FP32 square root. -/
  | fsqrt (f : FormR)
  /-- FRCP (R91): Correctly rounded FP32 reciprocal. -/
  | frcp (f : FormR)
  /-- FRSQ (R91): Correctly rounded FP32 reciprocal square root. -/
  | frsq (f : FormR)
  /-- FEX2 (R92): Base-2 exponential by the fixed table algorithm. -/
  | fex2 (f : FormR)
  /-- FLG2 (R93): Base-2 logarithm by the fixed table algorithm. -/
  | flg2 (f : FormR)
  /-- FSIN (R94): Sine by the fixed reduction and polynomial algorithm. -/
  | fsin (f : FormR)
  /-- FCOS (R94): Cosine by the fixed reduction and polynomial algorithm. -/
  | fcos (f : FormR)
  /-- FTANH (R95): Hyperbolic tangent by the fixed algorithm. -/
  | ftanh (f : FormR)
  /-- HADD2 (R136): Packed FP16 addition. -/
  | hadd2 (f : FormR)
  /-- HMUL2 (R136): Packed FP16 multiplication. -/
  | hmul2 (f : FormR)
  /-- HFMA2 (R136): Packed FP16 fused multiply-add. -/
  | hfma2 (f : FormR)
  /-- BADD2 (R136): Packed BF16 addition. -/
  | badd2 (f : FormR)
  /-- BMUL2 (R136): Packed BF16 multiplication. -/
  | bmul2 (f : FormR)
  /-- BFMA2 (R136): Packed BF16 fused multiply-add. -/
  | bfma2 (f : FormR)
  /-- CVT (R138): Converts elements between types over register spans. -/
  | cvt (f : FormR)
  /-- CVTS (R139): Converts elements with stochastic rounding keyed by a stream number and a counter. -/
  | cvts (f : FormR)
  /-- F2I (R140): Converts FP32 to a scaled fixed-point integer. -/
  | f2i (f : FormR)
  /-- I2F (R140): Converts a scaled integer to FP32. -/
  | i2f (f : FormR)
  /-- QNT (R141): Quantises FP32 values into one packed word under an E8M0 scale. -/
  | qnt (f : FormR)
  /-- DQNT (R142): Dequantises one packed word into FP32 registers. -/
  | dqnt (f : FormR)
  /-- FCLS (R143): Writes the class word of an FP32 value. -/
  | fcls (f : FormR)
  /-- VADD (R144): Packed addition with wrap, saturation or averaging. -/
  | vadd (f : FormR)
  /-- VSUB (R144): Packed subtraction with wrap, saturation or halving. -/
  | vsub (f : FormR)
  /-- VMIN (R145): Destructive three-way packed minimum. -/
  | vmin (f : FormR)
  /-- VMAX (R145): Destructive three-way packed maximum. -/
  | vmax (f : FormR)
  /-- VABSD (R145): Packed absolute difference, optionally accumulated. -/
  | vabsd (f : FormR)
  /-- VDOT4 (R146): Destructive dot product of four 8-bit pairs. -/
  | vdot4 (f : FormR)
  /-- VDOT2 (R146): Destructive dot product of two 16-bit pairs. -/
  | vdot2 (f : FormR)
  /-- PAND (R147): Predicate and. -/
  | pand (f : FormR)
  /-- POR (R147): Predicate or. -/
  | por (f : FormR)
  /-- PXOR (R147): Predicate exclusive or. -/
  | pxor (f : FormR)
  /-- PNOT (R147): Predicate complement. -/
  | pnot (f : FormR)
  /-- PMOV (R147): Predicate move. -/
  | pmov (f : FormR)
  /-- P2V (R147): Packs the predicates into a register. -/
  | p2v (f : FormR)
  /-- V2P (R147): Writes the predicates selected by a mask from a register. -/
  | v2p (f : FormR)
  /-- SHFL (R149): Reads a register from another gang position. -/
  | shfl (f : FormR)
  /-- BCAST (R150): Broadcasts one position's value to every participant. -/
  | bcast (f : FormR)
  /-- VOTE (R151): Votes across the participants: all, any, uniform or ballot. -/
  | vote (f : FormR)
  /-- MATCH (R152): Writes the mask of participants whose word is equal. -/
  | matchLanes (f : FormR)
  /-- RANK (R152): Counts the earlier participants whose word is equal. -/
  | rank (f : FormR)
  /-- PRFX (R153): Inclusive or exclusive prefix sum over the participants. -/
  | prfx (f : FormR)
  /-- REDG (R154): Gang reduction by add, min or max. -/
  | redg (f : FormR)
  /-- RNGK (R155): Evaluates the counter generator under the launch seed and a stream number. -/
  | rngk (f : FormR)
  /-- HSHK (R155): Evaluates the counter generator as a keyed hash. -/
  | hshk (f : FormR)
  /-- LD (R162): Loads from memory, optionally as an acquire. -/
  | ld (f : FormR)
  /-- ST (R162): Stores to memory, optionally as a release. -/
  | st (f : FormR)
  /-- LDV (R162): Loads two or four consecutive registers from memory. -/
  | ldv (f : FormR)
  /-- STV (R162): Stores two or four consecutive registers to memory. -/
  | stv (f : FormR)
  /-- LDB (R165): Loads from the block's bench share. -/
  | ldb (f : FormR)
  /-- STB (R165): Stores to the block's bench share. -/
  | stb (f : FormR)
  /-- LDBV (R165): Loads several registers from the bench. -/
  | ldbv (f : FormR)
  /-- STBV (R165): Stores several registers to the bench. -/
  | stbv (f : FormR)
  /-- ATOM (R171): Atomic read-modify-write at the home slice that returns the old value. -/
  | atom (f : FormR)
  /-- ACAS (R171): Atomic compare-and-swap at the home slice. -/
  | acas (f : FormR)
  /-- RED (R171): Atomic reduction at the home slice with no result. -/
  | red (f : FormR)
  /-- REDF (R175): Adds an FP32 value to a reduction-buffer slot. -/
  | redf (f : FormR)
  /-- REDDCL (R174): Declares a reduction buffer of n slots. -/
  | reddcl (f : FormR)
  /-- REDRD (R176): Reads a reduction slot as FP32, optionally clearing it. -/
  | redrd (f : FormR)
  /-- ATOMB (R171): Atomic operation in the bench share. -/
  | atomb (f : FormR)
  /-- RWB (R177): Writes back the dirty bytes of a range, keeping the lines. -/
  | rwb (f : FormR)
  /-- RINV (R177): Discards dirty bytes inside a range and drops its lines. -/
  | rinv (f : FormR)
  /-- RWBI (R177): Writes back and drops the lines of a range. -/
  | rwbi (f : FormR)
  /-- FENCE (R178): Acquire, release or both at a scope for the whole slice. -/
  | fence (f : FormR)
  /-- TFENCE (R182): Orders earlier stores against later page walks within a scope. -/
  | tfence (f : FormR)
  /-- PREF (R183): Prefetches a line into a cache level, or drops the prefetch. -/
  | pref (f : FormR)
  /-- HARVEST (R184): Flushes the dirty state of extents into page-table entries. -/
  | harvest (f : FormR)
  /-- QDECL (R208): Declares a quorum register's signer count. -/
  | qdecl (f : FormR)
  /-- QSIGN (R209): Signs a quorum register once per participant and orders the slice as a release. -/
  | qsign (f : FormR)
  /-- QWAIT (R209): Waits for a quorum phase to complete. -/
  | qwait (f : FormR)
  /-- BAR (R210): Signs q15 and waits for its phase to complete. -/
  | bar (f : FormR)
  /-- WAITF (R211): Waits until the named flags read zero, then releases their held results. -/
  | waitf (f : FormR)
  /-- WAITT (R212): Waits until no tag of the mask is pending. -/
  | waitt (f : FormR)
  /-- WAITTA (R212): Waits until some tag of the mask is ready, or none is pending. -/
  | waitta (f : FormR)
  /-- TAGFF (R212): Returns the lowest ready tag of the mask. -/
  | tagff (f : FormR)
  /-- TAGCLR (R212): Returns the ready tags of the mask to idle. -/
  | tagclr (f : FormR)
  /-- CBEXP (R213): Posts an expectation on a count barrier. -/
  | cbexp (f : FormR)
  /-- CBWAIT (R214): Waits until a count-barrier phase has completed, then acquires. -/
  | cbwait (f : FormR)
  /-- CBRD (R214): Reads a count barrier's phase state or its count. -/
  | cbrd (f : FormR)
  /-- CLAIM (R216): Claims units from the block reserve, waiting in the claim queue. -/
  | claim (f : FormR)
  /-- GIVE (R216): Returns the top units of the slice's allocation to the block reserve. -/
  | give (f : FormR)
  /-- POOLQ (R218): Reads the register accounting. -/
  | poolq (f : FormR)
  /-- LALLOC (R228): Makes a tile held and zeroes it in Loom order. -/
  | lalloc (f : FormR)
  /-- LFREE (R228): Frees a tile once earlier operations have read it. -/
  | lfree (f : FormR)
  /-- LZERO (R228): Zeroes a held tile in Loom order. -/
  | lzero (f : FormR)
  /-- LLDC (R238): Loads or adds a block of values into a tile. -/
  | lldc (f : FormR)
  /-- LOPF (R236): Writes index-stage entries from registers or the bench. -/
  | lopf (f : FormR)
  /-- LMMA (R232): One 128x128 matrix multiply-accumulate step into a tile. -/
  | lmma (f : FormR)
  /-- LMMS (R233): 2:4 sparse matrix step with metadata read from the bench. -/
  | lmms (f : FormR)
  /-- LMMG (R234): Matrix step whose A rows are gathered through the index stage. -/
  | lmmg (f : FormR)
  /-- LDRN (R239): Drains a tile to the bench or to memory with rounding. -/
  | ldrn (f : FormR)
  /-- LDRX (R242): Drains a tile into reduction-buffer slots through the index stage. -/
  | ldrx (f : FormR)
  /-- MXV (R244): Matrix-vector product placed on the Loom or on the Mill. -/
  | mxv (f : FormR)
  /-- MXVP (R247): Reads the placement of the slice's most recent decided MXV. -/
  | mxvp (f : FormR)
  /-- DCPY (R261): The Dray copies rows. -/
  | dcpy (f : FormR)
  /-- DGTH (R261): The Dray gathers rows by an index list. -/
  | dgth (f : FormR)
  /-- DSCT (R261): The Dray scatters rows by an index list. -/
  | dsct (f : FormR)
  /-- DSCA (R261): The Dray scatter-adds rows into reduction slots. -/
  | dsca (f : FormR)
  /-- DCSR (R262): The Dray gathers rows by CSR row pointers. -/
  | dcsr (f : FormR)
  /-- DFIL (R261): The Dray fills rows with a pattern. -/
  | dfil (f : FormR)
  /-- SVPT (R266): The Surveyor turns a range image into points. -/
  | svpt (f : FormR)
  /-- SVVOX (R267): The Surveyor inserts points into a voxel table. -/
  | svvox (f : FormR)
  /-- SVQRY (R268): The Surveyor looks up voxel keys. -/
  | svqry (f : FormR)
  /-- SVNBR (R269): The Surveyor builds a neighbour map. -/
  | svnbr (f : FormR)
  /-- SVDWN (R270): The Surveyor downsamples voxels into an output table. -/
  | svdwn (f : FormR)
  /-- SVMAP (R271): Looks up a cached neighbour map. -/
  | svmap (f : FormR)
  /-- SVFREE (R264): Releases a Surveyor table. -/
  | svfree (f : FormR)
  /-- SVCLR (R264): Allocates or clears a Surveyor table. -/
  | svclr (f : FormR)
  /-- ATSTRM (R273): Opens a KV page stream on a Crier unit. -/
  | atstrm (f : FormR)
  /-- ATSUB (R275): Subscribes the block to a stream with a page list and a ring. -/
  | atsub (f : FormR)
  /-- ATNEXT (R276): Takes the oldest delivered ring slot of a subscription. -/
  | atnext (f : FormR)
  /-- ATPOST (R277): Posts the partial result of one list position. -/
  | atpost (f : FormR)
  /-- ATDONE (R276): Frees a taken ring slot. -/
  | atdone (f : FormR)
  /-- ATMRG (R279): Writes the merged attention result. -/
  | atmrg (f : FormR)
  /-- ATUNS (R280): Ends a subscription and frees its SUBI. -/
  | atuns (f : FormR)
  /-- SLOT_VISIT (R22): The section barrel visits one occupied slot and issues, or spends an empty turn. -/
  | slotVisit (core : Nat) (sec : Nat)
  /-- ROTATION_END (R321): At the end of a section rotation, does the REGANG.any packing and then at most one heddle move. -/
  | rotationEnd (core : Nat) (sec : Nat)
  /-- REG_DEADLOCK_DETECT (R28): Traps the block within 256 cycles when every live slice waits in CLAIM. -/
  | regDeadlockDetect (bid : Nat)
  /-- MEMORY_OP_COMPLETE (R168): A class-V memory operation reaches its completion point and lowers its flag. -/
  | memoryOpComplete (bid : Nat) (slice : Nat) (op : Nat)
  /-- PROMOTION_REQUEST (R181): A core writes back the dirty .si bytes of its last block-scope release on a remote-scope promotion request. -/
  | promotionRequest (core : Nat)
  /-- L1_EVICTION (R287): The L1 evicts a line after writing back its dirty bytes. -/
  | l1Eviction (core : Nat) (line : Nat)
  /-- L1_PARITY_ERROR (R306): Refetches a clean sector, or poisons a dirty byte. -/
  | l1ParityError (core : Nat) (line : Nat) (byte : Nat)
  /-- L2_WRITE_RECEIVE (R288): An L2 slice takes a write and acknowledges it. -/
  | l2WriteReceive (n : Nat)
  /-- L2_EVICTION (R392): An L2 slice evicts a line, writing back dirty data without telling the directory. -/
  | l2Eviction (l2 : Nat) (line : Nat) (kid : Nat)
  /-- MEMORY_ECC_ERROR (R306): Corrects a one-symbol error, or poisons an uncorrectable unit. -/
  | memoryEccError (unit : Nat) (symbols : Nat)
  /-- DIRECTORY_REQUEST (R391): A fill or leave-to-write request reaches its directory home and is granted or conflicts. -/
  | directoryRequest (n : Nat)
  /-- RECALL_INVALIDATION_RECEIVE (R392): An L2 slice acts on a recall or invalidation and acknowledges it. -/
  | recallInvalidationReceive (n : Nat)
  /-- DIRECTORY_ACK_RECEIVE (R391): The directory home takes an acknowledgement and grants the waiting request. -/
  | directoryAckReceive (n : Nat)
  /-- DIRECTORY_QUIET_TICK (R393): A 256-cycle quiet tick raises QT and merges sibling regions that qualify. -/
  | directoryQuietTick
  /-- DIRECTORY_ENTRY_ERROR (R397): Corrects a directory entry, or recovers a lost one by a broadcast recall. -/
  | directoryEntryError (entry : Nat) (bits : Nat) (trusted : Bool)
  /-- FLIT_RETRY (R385): A link retries a flit that failed its check, and poisons it after the last retry. -/
  | flitRetry (n : Nat) (fails : Nat)
  /-- ATOMIC_PERFORM (R365): An L2 reduction unit performs an ATOM, ACAS or RED at the home slice. -/
  | atomicPerform (n : Nat)
  /-- REDUCTION_ADDEND_FOLD (R366): An L2 unit folds an addend into its slot's partial. -/
  | reductionAddendFold (n : Nat)
  /-- PARTIAL_IDLE_TIMEOUT (R366): Sends a line's partials after 1,024 cycles without an addend. -/
  | partialIdleTimeout (l2 : Nat) (line : Nat) (kid : Nat)
  /-- PARTIAL_FOLD (R366): The L3 unit folds a received partial into its slot. -/
  | partialFold (n : Nat)
  /-- LOOM_ACCEPT (R348): The Loom accepts the head operation of a block's Loom order. -/
  | loomAccept (core : Nat)
  /-- METADATA_GRANT (R352): The bench interlock grants an LMMS metadata read. -/
  | metadataGrant (core : Nat)
  /-- LOOM_OPERATION_COMPLETE (R349): The Loom writes the tile and lowers the flag of the operation. -/
  | loomOperationComplete (core : Nat)
  /-- DRAIN_STORE_COMPLETE (R240): The store phase of a drain finishes and its flag lowers. -/
  | drainStoreComplete (core : Nat)
  /-- MXV_SEGMENT_COMPLETE (R354): An MXV segment completes its result rows on the Loom or the Mill. -/
  | mxvSegmentComplete (id : Nat)
  /-- MILL_BLOCK_FORWARD (R356): A bank engine sends a block value to the row's owning engine. -/
  | millBlockForward (id : Nat) (row : Nat) (blk : Nat)
  /-- DRAY_COMMAND_START (R363): The Dray moves a queued command into its active set. -/
  | drayCommandStart (core : Nat)
  /-- DRAY_CHUNK_COMPLETE (R364): The Dray's chunk writes are performed, and it arrives at the count barrier. -/
  | drayChunkComplete (core : Nat) (id : Nat)
  /-- ENGINE_COMMAND_COMPLETE (R254): An engine command completes, lowers its flag and leaves its tag. -/
  | engineCommandComplete (id : Nat)
  /-- SURVEYOR_COMMAND_START (R370): A Surveyor unit takes the next command from its queue. -/
  | surveyorCommandStart (unit : Nat)
  /-- SURVEYOR_BATCH_COMPLETE (R370): A Surveyor unit completes a batch of up to 256 units. -/
  | surveyorBatchComplete (unit : Nat)
  /-- SUBSCRIPTION_ACCEPT (R379): The Crier accepts a subscription, checking it and reserving merge slots. -/
  | subscriptionAccept (unit : Nat) (n : Nat)
  /-- CRIER_PAGE_FETCH (R377): A Crier unit fetches the next due page of a stream in rotation. -/
  | crierPageFetch (unit : Nat)
  /-- PAGE_DELIVERY (R377): Writes a fetched page into a subscriber's next ring slot. -/
  | pageDelivery (unit : Nat) (n : Nat)
  /-- MERGE_FOLD (R381): The merge engine folds a subscription's next posted position. -/
  | mergeFold (unit : Nat) (n : Nat)
  /-- PAGE_WALK (R324): The walker walks a page for an extent miss or an absent extent and fills the extent. -/
  | pageWalk (bid : Nat) (page : Nat)
  /-- QUEUE_ENTRY_ACCEPT (R310): The Foreman reads and accepts the next entry of a launch queue. -/
  | queueEntryAccept (queue : Nat)
  /-- CORE_GRANT_DECISION (R316): Gives a core to a partition, pre-empting one where the guarantee requires. -/
  | coreGrantDecision
  /-- DET_GRID_START (R318): Binds the logical cores of a deterministic grid to hosts and reserves their queues. -/
  | detGridStart (queue : Nat)
  /-- BLOCK_ADMISSION (R319): Admits a block onto a core once all its resources are free, and places its gangs. -/
  | blockAdmission (part : Nat)
  /-- BLOCK_RETIRE (R39): Retires a block after its threads and engine operations are done, and returns its resources. -/
  | blockRetire (bid : Nat)
  /-- GRID_RETIRE (R314): When every block of a grid has retired, starts its tail child or ends the chain. -/
  | gridRetire (gid : Nat)
  /-- BLOCK_STOP (R332): Stops a block for a trap, a page fault or a pre-emption, and drains it. -/
  | blockStop (bid : Nat)
  /-- BLOCK_SAVE (R334): Writes the stopped block to its context frame after the drains complete. -/
  | blockSave (bid : Nat)
  /-- TRAP_RECORD_WRITE (R338): Writes a trap record to its ring, waiting for space. -/
  | trapRecordWrite (n : Nat)
  /-- BLOCK_RESTORE (R335): Restores a saved block, performs its pending records and resumes issue. -/
  | blockRestore (bid : Nat) (core : Nat)
  /-- WATCHDOG_EXPIRY (R341): Stops a block with WATCHDOG when its count reaches %wdog. -/
  | watchdogExpiry (bid : Nat)
  /-- QUEUE_DOORBELL (R402): A QTAIL write posts launch queue entries, or is refused. -/
  | queueDoorbell (queue : Nat) (tail : Nat)
  /-- QUEUE_RING_SETUP (R402): A QBASE or QSIZE write resets the queue head and tail. -/
  | queueRingSetup (queue : Nat) (base : Nat) (size : Nat)
  /-- COMMAND_DOORBELL (R403): A CRTAIL write posts commands, or is refused. -/
  | commandDoorbell (tail : Nat)
  /-- COMMAND_RING_SETUP (R403): A CRBASE or CRSIZE write resets the command ring. -/
  | commandRingSetup (base : Nat) (size : Nat)
  /-- REGISTER_WRITE (R400): Writes a host register that has no row of its own. -/
  | registerWrite (fn : Nat) (off : Nat) (value : Nat)
  /-- CMD_SHOOTDOWN (R330): Discards the extents over a range, with optional write-back. -/
  | cmdShootdown
  /-- CMD_RESUME (R335): Resumes a block saved in a named context frame. -/
  | cmdResume
  /-- CMD_PARTITION (R403): Sets a partition's root, context area, guarantee and limit. -/
  | cmdPartition
  /-- CMD_ATTRIBUTE_TABLE (R403): Sets FATB and FN. -/
  | cmdAttributeTable
  /-- CMD_LOAD_KEY (R403): Loads the key of a key identifier. -/
  | cmdLoadKey
  /-- CMD_RETIRE_KEY (R396): Retires a key identifier, writing back and dropping its lines. -/
  | cmdRetireKey
  /-- CMD_OPEN_WINDOW (R404): Opens a peer window on a link. -/
  | cmdOpenWindow
  /-- CMD_CLOSE_WINDOW (R404): Closes a peer window and discards its extents. -/
  | cmdCloseWindow
  /-- CMD_RESET_PARTITION (R403): Stops a partition's blocks and empties its queues, tables and streams. -/
  | cmdResetPartition
  /-- CMD_PREEMPT (R403): Pre-empts and saves every block on a core. -/
  | cmdPreempt
  /-- CMD_CLEAR_TRAP_LOG (R409): Writes CMT 0 in every MRAM slot. -/
  | cmdClearTrapLog
  /-- CMD_RESERVED (R403): Refuses a reserved command code with RSN 0x01. -/
  | cmdReserved
  /-- VF_FUNCTION_LEVEL_RESET (R398): A function-level reset of a VF resets its partition. -/
  | vfFunctionLevelReset (vf : Nat)
  /-- HOST_BAR2_ACCESS (R399): A host access through a BAR2 is performed at the L3 home, or fails. -/
  | hostBar2Access (fn : Nat) (off : Nat) (len : Nat) (write : Bool) (data : Nat)
  /-- POWER_ON (R406): The boot ROM sets FWST 1, and the trap-log SEQ resumes. -/
  | powerOn
  /-- FIRMWARE_GO (R406): A write to FWGO runs the image checks. -/
  | firmwareGo
  /-- MEMORY_TRAINING (R406): Trains memory, then runs the firmware or fails with FWRSN 0x06. -/
  | memoryTraining (found : Training)
  /-- ATTESTATION_GO (R407): A write to ATGO writes a signed attestation report. -/
  | attestationGo (part : Nat)
  /-- STEPCAP_WRITE (R408): A STEPCAP write bounds the throttle steps and may start a step down. -/
  | stepcapWrite (value : Nat)
  /-- THROTTLE_STEP_DOWN (R408): Moves to the next slower step on temperature, power or STEPCAP. -/
  | throttleStepDown
  /-- THROTTLE_STEP_UP (R408): Moves to the next faster step after 100 ms of margin. -/
  | throttleStepUp
  /-- THERMAL_CRITICAL (R408): Sets THCRIT and raises vector 0 at 115 °C on step 5. -/
  | thermalCritical
  /-- PWRFAIL_N (R409): The power-fail signal stops any new trap-log record from beginning. -/
  | pwrfailN
  /-- PEER_REQUEST_TIMEOUT (R405): A peer request unanswered for 12 µs declares its link down. -/
  | peerRequestTimeout (link : Nat)
  /-- PEER_RESET_SIGNAL (R405): A reset signal from the peer declares the link down. -/
  | peerResetSignal (link : Nat)
  /-- PEER_LINK_RETRAIN (R405): A link retrains when both ends are ready. -/
  | peerLinkRetrain (link : Nat)
  /-- PEER_INCOMING_REQUEST (R404): A peer request is performed at this device's L3 home. -/
  | peerIncomingRequest (pa kid len : Nat) (req : PeerReq) (data : Nat)
  /-- IDIV_IREM_COMPLETION (R117): An IDIV or IREM completes 36 cycles after issue, and its flag lowers with its result held until release. -/
  | idivIremCompletion (bid : Nat) (slice : Nat) (seq : Nat)
  /-- L3_EVICTION (R293): An L3 slice evicts a line by ordinary replacement, writing it to LPDDR6, and the WO written bits are lost once the line has also left both L2s. -/
  | l3Eviction (line : Nat) (kid : Nat)
  /-- OPERAND_BUFFER_LINE_ENTRY (R350): A line fetched by the tile fetch unit enters the Loom's operand buffer and releases its pin, freeing writes and recalls waiting at the L2 slice and letting further pin requests proceed. -/
  | operandBufferLineEntry (core : Nat)
  /-- POWER_LOSS (R409): The supply falls below regulation and the device stops, with each 8-byte MRAM word left whole or unchanged, so a commit may be cut off between its writes. -/
  | powerLoss (words : Nat)
  /-- SOFT_ERROR (R306): A single-bit soft error in an L2, L3, bench or register-pool word is corrected, and a two-bit error poisons the word. -/
  | softError (store : Nat) (index : Nat) (bits : Nat)
  /-- SENSOR_READING (R400): The die temperature sensors and the 1 ms module power average update TEMP and PWR, and THCRIT clears when no sensor reads 115 °C or more. -/
  | sensorReading (tempQ8 : Int) (powerQ4 : Nat)
  deriving DecidableEq, Repr

end Sys2Proof
end

