-- ==== Sys2Proof/Machine/Encoding.lean ====
section
/-! DEFINITION. The opcode map and the rules of one instruction word: the accepted types, the modifier values, the operand
kinds of each field, the latency and guard classes, and the uniformity test (R46 to R67 and the field tables R115, R156, R186,
R224 and R252). Check 4 of R67 answers the operand field at fault, as the trap record names it (R337). -/

namespace Sys2Proof

/-- The fields of an instruction word in one of the two forms (R46). -/
inductive Fields where
  | r (f : FormR)
  | l (f : FormL)
  deriving DecidableEq, Repr

def Fields.common : Fields → Common
  | .r f => f.toCommon
  | .l f => f.toCommon

def Fields.od : Fields → Opnd
  | .r f => f.od
  | .l f => f.od

def Fields.oa : Fields → Opnd
  | .r f => f.oa
  | .l f => f.oa

/-- Form L has no OB: the field reads as none. -/
def Fields.ob : Fields → Opnd
  | .r f => f.ob
  | .l _ => .none

/-- The wait mask; zero in form L (R46, R61). -/
def Fields.wm : Fields → BitVec 12
  | .r f => f.wm
  | .l _ => 0

/-- The type of each code of R57. -/
def tyTable : List (Nat × Ty) :=
  [(0x0, .b32), (0x1, .i32), (0x2, .n32), (0x3, .f32), (0x4, .i16x2), (0x5, .n16x2), (0x6, .h16x2), (0x7, .bf16x2),
   (0x8, .i8x4), (0x9, .n8x4), (0xA, .e4m3x4), (0xB, .e5m2x4), (0xC, .i64), (0xD, .n64), (0xE, .q4), (0xF, .e8m0x4)]

/-- The type code of a type (R57). -/
def Ty.code : Ty → BitVec 4
  | .b32 => 0x0 | .i32 => 0x1 | .n32 => 0x2 | .f32 => 0x3 | .i16x2 => 0x4 | .n16x2 => 0x5 | .h16x2 => 0x6 | .bf16x2 => 0x7
  | .i8x4 => 0x8 | .n8x4 => 0x9 | .e4m3x4 => 0xA | .e5m2x4 => 0xB | .i64 => 0xC | .n64 => 0xD | .q4 => 0xE | .e8m0x4 => 0xF

/-- The type of a type code (R57); every code has one. -/
def Ty.ofCode (c : BitVec 4) : Ty := (tyTable.lookup c.toNat).getD .b32

/-- The two 64-bit types, which name register pairs (R51, R57). -/
def Ty.is64 : Ty → Bool
  | .i64 | .n64 => true
  | _ => false

/-- The element width in bits (R57); 4 for a Q4 code. -/
def Ty.width : Ty → Nat
  | .b32 | .i32 | .n32 | .f32 => 32
  | .i16x2 | .n16x2 | .h16x2 | .bf16x2 => 16
  | .i8x4 | .n8x4 | .e4m3x4 | .e5m2x4 | .e8m0x4 => 8
  | .i64 | .n64 => 64
  | .q4 => 4

/-- The types whose elements are signed integers (R57, R118). -/
def Ty.signed : Ty → Bool
  | .i32 | .i16x2 | .i8x4 | .i64 => true
  | _ => false

/-- The accepted type sets of R58. -/
def Ty.setZ : List Ty := [.b32]
def Ty.setA : List Ty := [.i32, .n32]
def Ty.setB : List Ty := [.i32, .n32, .i16x2, .n16x2, .i8x4, .n8x4]
def Ty.setC : List Ty := [.i32, .n32, .f32, .i16x2, .n16x2, .h16x2, .bf16x2, .i8x4, .n8x4, .e4m3x4, .e5m2x4, .i64, .n64, .e8m0x4]
def Ty.setD : List Ty := [.i64, .n64]
def Ty.setF : List Ty := [.f32]
def Ty.setG : List Ty := [.bf16x2]
def Ty.setH : List Ty := [.h16x2]
def Ty.setN : List Ty := [.b32, .i32, .n32, .f32, .i64, .n64]
def Ty.setQ : List Ty := [.i8x4, .e4m3x4, .e5m2x4, .q4]
def Ty.setS : List Ty := [.i8x4, .n8x4, .e4m3x4, .e5m2x4, .q4]
def Ty.setT : List Ty := [.h16x2, .bf16x2, .i8x4, .n8x4, .e4m3x4, .e5m2x4, .q4]
def Ty.setUU : List Ty := [.bf16x2, .e4m3x4]
def Ty.setW : List Ty := [.bf16x2, .i8x4, .e4m3x4, .q4]
def Ty.setX : List Ty := [.f32, .h16x2, .bf16x2, .e4m3x4, .e5m2x4]
def Ty.setY : List Ty := [.i16x2, .n16x2]
def Ty.setJ : List Ty := [.i8x4, .n8x4]
def Ty.setM : List Ty := [.b32, .i32, .n32, .f32, .i16x2, .n16x2, .h16x2, .bf16x2, .i8x4, .n8x4, .e4m3x4, .e5m2x4, .i64, .n64, .e8m0x4]
def Ty.setPP : List Ty := [.i32, .n32, .f32]

/-- What one operand field accepts: the kinds of R49 and the rules on views, pairs, spans and descriptors. -/
structure Acc where
  lane  : Bool := false
  uni   : Bool := false
  pred  : Bool := false
  sreg  : Bool := false
  imm   : Bool := false
  nil   : Bool := false
  q     : Bool := false
  tag   : Bool := false
  cb    : Bool := false
  tile  : Bool := false
  /-- Only Uniform-class special registers are accepted (R142, R150, R177). -/
  uniSr : Bool := false
  /-- VIEW and SEL choose positions (R53), and a predicate is not negated (R49). -/
  dest  : Bool := false
  /-- A 64-bit operand (R51). -/
  wide  : Bool := false
  /-- VIEW 00 and SEL 000 only. -/
  plain : Bool := false
  /-- NUM is a multiple of this. -/
  align : Nat := 1
  /-- Length of the descriptor that the operand names; 0 for no descriptor (R224). -/
  dlen  : Nat := 0
  deriving DecidableEq, Repr

def Acc.absent : Acc := { nil := true }
def Acc.dst : Acc := { lane := true, uni := true, dest := true }
def Acc.dstOrNone : Acc := { lane := true, uni := true, nil := true, dest := true }
def Acc.dstPair : Acc := { lane := true, uni := true, dest := true, wide := true }
def Acc.dstUniPair : Acc := { uni := true, dest := true, wide := true }
def Acc.dstUniOrNone : Acc := { uni := true, nil := true, dest := true }
def Acc.dstLane : Acc := { lane := true, dest := true }
def Acc.dstLaneOrNone : Acc := { lane := true, nil := true, dest := true }
def Acc.dstPred : Acc := { pred := true, dest := true }
def Acc.data : Acc := { lane := true, uni := true, dest := true }
def Acc.reg : Acc := { lane := true, uni := true }
def Acc.src : Acc := { lane := true, uni := true, sreg := true, imm := true }
def Acc.srcOrNone : Acc := { lane := true, uni := true, sreg := true, imm := true, nil := true }
def Acc.srcPair : Acc := { lane := true, uni := true, sreg := true, imm := true, wide := true }
def Acc.spanSrc : Acc := { lane := true, uni := true, imm := true }
def Acc.uniSrc : Acc := { lane := true, uni := true, sreg := true, imm := true, uniSr := true }
def Acc.uniOnly : Acc := { uni := true, sreg := true, imm := true, uniSr := true }
def Acc.uniPair : Acc := { uni := true, wide := true }
def Acc.uniImm : Acc := { uni := true, imm := true }
def Acc.uniPairImm : Acc := { uni := true, imm := true, wide := true }
def Acc.uniReg : Acc := { uni := true }
def Acc.laneReg : Acc := { lane := true }
def Acc.regImm : Acc := { lane := true, uni := true, imm := true }
def Acc.regPair : Acc := { lane := true, uni := true, wide := true }
def Acc.regPlain : Acc := { lane := true, uni := true, plain := true }
def Acc.offset : Acc := { imm := true, nil := true }
def Acc.special : Acc := { sreg := true }
def Acc.predicate : Acc := { pred := true }
def Acc.predOrNone : Acc := { pred := true, nil := true }
def Acc.quorum : Acc := { q := true }
def Acc.quorumOrNone : Acc := { q := true, nil := true }
def Acc.countBarrier : Acc := { cb := true }
def Acc.cbOrNone : Acc := { cb := true, nil := true }
def Acc.tagOrNone : Acc := { tag := true, nil := true }
def Acc.tileReg : Acc := { tile := true }
/-- A descriptor operand kN of a given length (R224, R252); its VIEW and SEL are accepted and say nothing (log entry 85). -/
def Acc.desc (n : Nat) : Acc := { uni := true, align := 4, dlen := n }

/-- The latency classes of R62. -/
inductive Lat where
  | one | three | v
  deriving DecidableEq, Repr

/-- The guard classes of R187; `quorum` is Thread with a quorum register in OB and Slice without (R224). -/
inductive GuardClass where
  | thread | slice | always | quorum
  deriving DecidableEq, Repr

/-- The assigned values of MOD, by the description that assigns them (R48). -/
inductive ModRule where
  | zero
  | below (n : Nat)
  | within (lo hi : Nat)
  | any
  | cvt | cvts | ld | st | ldv | ldbv | atom | acas | atomb | fence | ldrn | mxv | dsca | dfil
  deriving DecidableEq, Repr

/-- One row of the opcode map. -/
structure OpRow where
  key   : Nat
  formL : Bool
  types : List Ty
  lat   : Lat
  md    : ModRule
  guard : GuardClass
  od    : Acc
  oa    : Acc
  ob    : Acc
  deriving DecidableEq, Repr

/-- Rows of the control group. -/
def controlRows : List OpRow := [
  ⟨0x001, false, Ty.setZ, .one, .zero, .slice, Acc.absent, Acc.absent, Acc.absent⟩,
  ⟨0x002, true, Ty.setZ, .one, (.below 2), .slice, Acc.absent, Acc.absent, Acc.absent⟩,
  ⟨0x003, false, Ty.setZ, .one, (.below 2), .slice, Acc.absent, Acc.uniPair, Acc.absent⟩,
  ⟨0x004, true, Ty.setZ, .one, (.below 2), .slice, Acc.dstUniPair, Acc.absent, Acc.absent⟩,
  ⟨0x005, false, Ty.setZ, .one, (.below 2), .slice, Acc.dstUniPair, Acc.uniPair, Acc.absent⟩,
  ⟨0x006, false, Ty.setZ, .one, (.below 2), .slice, Acc.absent, Acc.uniPair, Acc.absent⟩,
  ⟨0x007, false, Ty.setZ, .one, .zero, .thread, Acc.absent, Acc.absent, Acc.absent⟩,
  ⟨0x008, true, Ty.setZ, .one, .zero, .always, Acc.absent, Acc.predicate, Acc.absent⟩,
  ⟨0x009, false, Ty.setZ, .one, .zero, .always, Acc.absent, Acc.absent, Acc.absent⟩,
  ⟨0x00A, true, Ty.setZ, .one, (.below 32), .always, Acc.absent, Acc.absent, Acc.absent⟩,
  ⟨0x00B, false, Ty.setZ, .one, (.below 2), .slice, Acc.absent, Acc.predOrNone, Acc.absent⟩,
  ⟨0x00C, false, Ty.setZ, .one, (.below 4), .always, Acc.dstUniOrNone, Acc.absent, Acc.absent⟩,
  ⟨0x20C, false, Ty.setZ, .one, (.within 4 7), .thread, Acc.dstLaneOrNone, Acc.reg, Acc.absent⟩,
  ⟨0x00D, false, Ty.setZ, .one, .zero, .slice, Acc.absent, Acc.uniPair, Acc.absent⟩,
  ⟨0x00E, false, Ty.setZ, .one, .zero, .slice, Acc.absent, Acc.uniImm, Acc.absent⟩,
  ⟨0x00F, false, Ty.setZ, .one, .zero, .slice, Acc.absent, Acc.uniImm, Acc.absent⟩,
  ⟨0x010, false, Ty.setZ, .one, .zero, .slice, Acc.absent, Acc.uniImm, Acc.absent⟩,
  ⟨0x011, false, Ty.setZ, .one, .zero, .thread, Acc.dst, Acc.special, Acc.absent⟩,
  ⟨0x012, false, Ty.setZ, .one, .zero, .thread, Acc.special, Acc.regImm, Acc.absent⟩,
  ⟨0x013, false, Ty.setZ, .v, .zero, .slice, Acc.absent, Acc.absent, Acc.absent⟩]

/-- Rows of the integer group. -/
def integerRows : List OpRow := [
  ⟨0x040, false, Ty.setB, .one, .zero, .thread, Acc.dst, Acc.src, Acc.src⟩,
  ⟨0x041, false, Ty.setB, .one, .zero, .thread, Acc.dst, Acc.src, Acc.src⟩,
  ⟨0x042, false, Ty.setA, .one, .zero, .thread, Acc.dst, Acc.src, Acc.src⟩,
  ⟨0x043, false, Ty.setA, .one, .zero, .thread, Acc.dst, Acc.src, Acc.src⟩,
  ⟨0x044, false, Ty.setA, .one, .zero, .thread, Acc.dst, Acc.src, Acc.src⟩,
  ⟨0x045, false, Ty.setA, .one, .zero, .thread, Acc.dstPair, Acc.src, Acc.src⟩,
  ⟨0x046, false, Ty.setA, .v, .zero, .thread, Acc.dst, Acc.src, Acc.src⟩,
  ⟨0x047, false, Ty.setA, .v, .zero, .thread, Acc.dst, Acc.src, Acc.src⟩,
  ⟨0x048, false, Ty.setB, .one, .zero, .thread, Acc.dst, Acc.src, Acc.src⟩,
  ⟨0x049, false, Ty.setB, .one, .zero, .thread, Acc.dst, Acc.src, Acc.src⟩,
  ⟨0x04A, false, Ty.setB, .one, (.below 2), .thread, Acc.dst, Acc.src, Acc.absent⟩,
  ⟨0x04B, false, Ty.setB, .one, (.below 2), .thread, Acc.dst, Acc.src, Acc.absent⟩,
  ⟨0x04C, false, Ty.setA, .one, (.below 8), .thread, Acc.dst, Acc.src, Acc.src⟩,
  ⟨0x04D, false, Ty.setA, .one, (.below 8), .thread, Acc.dst, Acc.src, Acc.src⟩,
  ⟨0x04E, false, Ty.setB, .one, .zero, .thread, Acc.dst, Acc.src, Acc.src⟩,
  ⟨0x04F, false, Ty.setB, .one, .zero, .thread, Acc.dst, Acc.src, Acc.src⟩,
  ⟨0x050, false, Ty.setB, .one, .zero, .thread, Acc.dst, Acc.src, Acc.src⟩,
  ⟨0x051, false, Ty.setZ, .one, (.below 2), .thread, Acc.dst, Acc.src, Acc.src⟩,
  ⟨0x052, false, Ty.setZ, .one, .zero, .thread, Acc.dst, Acc.src, Acc.src⟩,
  ⟨0x053, false, Ty.setZ, .one, .zero, .thread, Acc.dst, Acc.src, Acc.src⟩,
  ⟨0x054, false, Ty.setZ, .one, .zero, .thread, Acc.dst, Acc.src, Acc.src⟩,
  ⟨0x055, false, Ty.setZ, .one, .zero, .thread, Acc.dst, Acc.src, Acc.src⟩,
  ⟨0x056, false, Ty.setZ, .one, .zero, .thread, Acc.dst, Acc.src, Acc.absent⟩,
  ⟨0x057, false, Ty.setA, .one, .zero, .thread, Acc.dst, Acc.src, Acc.src⟩,
  ⟨0x058, false, Ty.setZ, .one, .zero, .thread, Acc.dst, Acc.src, Acc.src⟩,
  ⟨0x059, false, Ty.setZ, .one, .zero, .thread, Acc.dst, Acc.src, Acc.absent⟩,
  ⟨0x05A, false, Ty.setZ, .one, .zero, .thread, Acc.dst, Acc.src, Acc.absent⟩,
  ⟨0x05B, false, Ty.setZ, .one, .zero, .thread, Acc.dst, Acc.src, Acc.absent⟩,
  ⟨0x05C, false, Ty.setZ, .one, .zero, .thread, Acc.dst, Acc.src, Acc.absent⟩,
  ⟨0x05D, false, Ty.setZ, .one, (.below 8), .thread, Acc.dst, Acc.src, Acc.src⟩,
  ⟨0x05E, false, Ty.setD, .one, (.below 8), .thread, Acc.dstPair, Acc.srcPair, Acc.src⟩,
  ⟨0x05F, false, Ty.setZ, .one, .zero, .thread, Acc.dst, Acc.src, Acc.absent⟩,
  ⟨0x060, true, Ty.setZ, .one, .zero, .thread, Acc.dst, Acc.absent, Acc.absent⟩,
  ⟨0x061, true, Ty.setZ, .one, .zero, .thread, Acc.dstPair, Acc.srcOrNone, Acc.absent⟩,
  ⟨0x062, false, Ty.setZ, .one, (.below 16), .thread, Acc.dst, Acc.src, Acc.src⟩,
  ⟨0x063, false, Ty.setA, .one, (.below 6), .thread, Acc.dstPred, Acc.src, Acc.src⟩,
  ⟨0x064, false, Ty.setB, .one, (.below 6), .thread, Acc.dst, Acc.src, Acc.src⟩,
  ⟨0x065, false, Ty.setD, .one, .zero, .thread, Acc.dstPair, Acc.srcPair, Acc.srcPair⟩,
  ⟨0x066, false, Ty.setD, .one, .zero, .thread, Acc.dstPair, Acc.srcPair, Acc.srcPair⟩,
  ⟨0x067, false, Ty.setD, .one, .zero, .thread, Acc.dstPair, Acc.srcPair, Acc.srcPair⟩,
  ⟨0x068, false, Ty.setD, .one, .zero, .thread, Acc.dstPair, Acc.srcPair, Acc.src⟩,
  ⟨0x069, false, Ty.setD, .one, .zero, .thread, Acc.dstPair, Acc.srcPair, Acc.src⟩]

/-- Rows of the float group. -/
def floatRows : List OpRow := [
  ⟨0x080, false, Ty.setF, .one, (.below 4), .thread, Acc.dst, Acc.src, Acc.src⟩,
  ⟨0x081, false, Ty.setF, .one, (.below 4), .thread, Acc.dst, Acc.src, Acc.src⟩,
  ⟨0x082, false, Ty.setF, .one, (.below 4), .thread, Acc.dst, Acc.src, Acc.src⟩,
  ⟨0x083, false, Ty.setF, .one, (.below 4), .thread, Acc.dst, Acc.src, Acc.src⟩,
  ⟨0x084, false, Ty.setF, .one, .zero, .thread, Acc.dst, Acc.src, Acc.src⟩,
  ⟨0x085, false, Ty.setF, .one, .zero, .thread, Acc.dst, Acc.src, Acc.src⟩,
  ⟨0x086, false, Ty.setF, .one, (.below 8), .thread, Acc.dstPred, Acc.src, Acc.src⟩,
  ⟨0x087, false, Ty.setF, .one, (.below 8), .thread, Acc.dst, Acc.src, Acc.src⟩,
  ⟨0x088, false, Ty.setF, .one, (.below 4), .thread, Acc.dst, Acc.src, Acc.absent⟩,
  ⟨0x089, false, Ty.setF, .three, .zero, .thread, Acc.dst, Acc.src, Acc.src⟩,
  ⟨0x08A, false, Ty.setF, .three, .zero, .thread, Acc.dst, Acc.src, Acc.absent⟩,
  ⟨0x08B, false, Ty.setF, .three, .zero, .thread, Acc.dst, Acc.src, Acc.absent⟩,
  ⟨0x08C, false, Ty.setF, .three, .zero, .thread, Acc.dst, Acc.src, Acc.absent⟩,
  ⟨0x08D, false, Ty.setF, .three, .zero, .thread, Acc.dst, Acc.src, Acc.absent⟩,
  ⟨0x08E, false, Ty.setF, .three, .zero, .thread, Acc.dst, Acc.src, Acc.absent⟩,
  ⟨0x08F, false, Ty.setF, .three, .zero, .thread, Acc.dst, Acc.src, Acc.absent⟩,
  ⟨0x090, false, Ty.setF, .three, .zero, .thread, Acc.dst, Acc.src, Acc.absent⟩,
  ⟨0x091, false, Ty.setF, .three, .zero, .thread, Acc.dst, Acc.src, Acc.absent⟩,
  ⟨0x092, false, Ty.setH, .one, (.below 4), .thread, Acc.dst, Acc.src, Acc.src⟩,
  ⟨0x093, false, Ty.setH, .one, (.below 4), .thread, Acc.dst, Acc.src, Acc.src⟩,
  ⟨0x094, false, Ty.setH, .one, (.below 4), .thread, Acc.dst, Acc.src, Acc.src⟩,
  ⟨0x095, false, Ty.setG, .one, (.below 4), .thread, Acc.dst, Acc.src, Acc.src⟩,
  ⟨0x096, false, Ty.setG, .one, (.below 4), .thread, Acc.dst, Acc.src, Acc.src⟩,
  ⟨0x097, false, Ty.setG, .one, (.below 4), .thread, Acc.dst, Acc.src, Acc.src⟩,
  ⟨0x098, false, Ty.setC, .one, .cvt, .thread, Acc.dst, Acc.spanSrc, Acc.absent⟩,
  ⟨0x099, false, Ty.setC, .one, .cvts, .thread, Acc.dst, Acc.spanSrc, Acc.srcPair⟩,
  ⟨0x09A, false, Ty.setA, .one, (.below 4), .thread, Acc.dst, Acc.src, Acc.src⟩,
  ⟨0x09B, false, Ty.setA, .one, (.below 4), .thread, Acc.dst, Acc.src, Acc.src⟩,
  ⟨0x09C, false, Ty.setQ, .one, (.below 4), .thread, Acc.dst, Acc.spanSrc, Acc.src⟩,
  ⟨0x09D, false, Ty.setQ, .one, .zero, .thread, Acc.dst, Acc.spanSrc, Acc.uniSrc⟩,
  ⟨0x09E, false, Ty.setF, .one, .zero, .thread, Acc.dst, Acc.src, Acc.absent⟩]

/-- Rows of the packed group. -/
def packedRows : List OpRow := [
  ⟨0x0C0, false, Ty.setB, .one, (.below 3), .thread, Acc.dst, Acc.src, Acc.src⟩,
  ⟨0x0C1, false, Ty.setB, .one, (.below 3), .thread, Acc.dst, Acc.src, Acc.src⟩,
  ⟨0x0C2, false, Ty.setB, .one, .zero, .thread, Acc.dst, Acc.src, Acc.src⟩,
  ⟨0x0C3, false, Ty.setB, .one, .zero, .thread, Acc.dst, Acc.src, Acc.src⟩,
  ⟨0x0C4, false, Ty.setB, .one, (.below 2), .thread, Acc.dst, Acc.src, Acc.src⟩,
  ⟨0x0C5, false, Ty.setJ, .one, (.below 4), .thread, Acc.dst, Acc.src, Acc.src⟩,
  ⟨0x0C6, false, Ty.setY, .one, (.below 4), .thread, Acc.dst, Acc.src, Acc.src⟩,
  ⟨0x0C7, false, Ty.setZ, .one, .zero, .thread, Acc.dstPred, Acc.predicate, Acc.predicate⟩,
  ⟨0x0C8, false, Ty.setZ, .one, .zero, .thread, Acc.dstPred, Acc.predicate, Acc.predicate⟩,
  ⟨0x0C9, false, Ty.setZ, .one, .zero, .thread, Acc.dstPred, Acc.predicate, Acc.predicate⟩,
  ⟨0x0CA, false, Ty.setZ, .one, .zero, .thread, Acc.dstPred, Acc.predicate, Acc.absent⟩,
  ⟨0x0CB, false, Ty.setZ, .one, .zero, .thread, Acc.dstPred, Acc.predicate, Acc.absent⟩,
  ⟨0x0CC, false, Ty.setZ, .one, .zero, .thread, Acc.dst, Acc.absent, Acc.absent⟩,
  ⟨0x0CD, false, Ty.setZ, .one, .zero, .thread, Acc.absent, Acc.src, Acc.src⟩,
  ⟨0x0CE, false, Ty.setZ, .one, (.below 4), .thread, Acc.dst, Acc.src, Acc.src⟩,
  ⟨0x0CF, false, Ty.setZ, .one, (.below 4), .thread, Acc.dstPred, Acc.predicate, Acc.absent⟩,
  ⟨0x0D0, false, Ty.setZ, .one, .zero, .thread, Acc.dst, Acc.src, Acc.absent⟩,
  ⟨0x0D1, false, Ty.setPP, .one, (.below 2), .thread, Acc.dst, Acc.src, Acc.absent⟩,
  ⟨0x0D2, false, Ty.setZ, .one, .zero, .thread, Acc.dst, Acc.src, Acc.absent⟩,
  ⟨0x0D3, false, Ty.setPP, .one, (.below 3), .thread, Acc.dst, Acc.src, Acc.src⟩,
  ⟨0x0D4, false, Ty.setZ, .one, .zero, .thread, Acc.dst, Acc.src, Acc.uniOnly⟩,
  ⟨0x0D5, false, Ty.setZ, .one, .zero, .thread, Acc.dst, Acc.srcPair, Acc.src⟩,
  ⟨0x0D6, false, Ty.setZ, .one, .zero, .thread, Acc.dst, Acc.srcPair, Acc.src⟩]

/-- Rows of the memory group. -/
def memoryRows : List OpRow := [
  ⟨0x100, false, Ty.setM, .v, .ld, .thread, Acc.dst, Acc.regPair, Acc.offset⟩,
  ⟨0x101, false, Ty.setM, .v, .st, .thread, Acc.data, Acc.regPair, Acc.offset⟩,
  ⟨0x102, false, Ty.setM, .v, .ldv, .thread, Acc.dst, Acc.regPair, Acc.offset⟩,
  ⟨0x103, false, Ty.setM, .v, .ldv, .thread, Acc.data, Acc.regPair, Acc.offset⟩,
  ⟨0x104, false, Ty.setM, .v, .zero, .thread, Acc.dst, Acc.regPlain, Acc.offset⟩,
  ⟨0x105, false, Ty.setM, .v, .zero, .thread, Acc.data, Acc.regPlain, Acc.offset⟩,
  ⟨0x106, false, Ty.setM, .v, .ldbv, .thread, Acc.dst, Acc.regPlain, Acc.offset⟩,
  ⟨0x107, false, Ty.setM, .v, .ldbv, .thread, Acc.data, Acc.regPlain, Acc.offset⟩,
  ⟨0x108, false, Ty.setN, .v, .atom, .thread, Acc.dst, Acc.regPair, Acc.src⟩,
  ⟨0x109, false, Ty.setN, .v, .acas, .thread, Acc.dst, Acc.regPair, Acc.reg⟩,
  ⟨0x10A, false, Ty.setN, .v, .atom, .thread, Acc.absent, Acc.regPair, Acc.src⟩,
  ⟨0x10B, false, Ty.setF, .v, .zero, .thread, Acc.absent, Acc.regPair, Acc.src⟩,
  ⟨0x10C, false, Ty.setZ, .v, .zero, .thread, Acc.reg, Acc.regPair, Acc.src⟩,
  ⟨0x10D, false, Ty.setF, .v, (.below 2), .thread, Acc.dst, Acc.regPair, Acc.absent⟩,
  ⟨0x10E, false, Ty.setN, .v, .atomb, .thread, Acc.dstOrNone, Acc.regPlain, Acc.src⟩,
  ⟨0x10F, false, Ty.setZ, .v, (.below 2), .thread, Acc.absent, Acc.regPair, Acc.uniSrc⟩,
  ⟨0x110, false, Ty.setZ, .v, .zero, .thread, Acc.absent, Acc.regPair, Acc.uniSrc⟩,
  ⟨0x111, false, Ty.setZ, .v, (.below 2), .thread, Acc.absent, Acc.regPair, Acc.uniSrc⟩,
  ⟨0x112, false, Ty.setZ, .v, .fence, .thread, Acc.absent, Acc.absent, Acc.absent⟩,
  ⟨0x113, false, Ty.setZ, .v, (.within 1 4), .thread, Acc.absent, Acc.absent, Acc.absent⟩,
  ⟨0x114, false, Ty.setZ, .v, (.below 3), .thread, Acc.absent, Acc.regPair, Acc.offset⟩,
  ⟨0x115, false, Ty.setZ, .v, .zero, .thread, Acc.absent, Acc.src, Acc.absent⟩]

/-- Rows of the sync group. -/
def syncRows : List OpRow := [
  ⟨0x140, false, Ty.setZ, .one, .zero, .slice, Acc.absent, Acc.quorum, Acc.uniImm⟩,
  ⟨0x141, false, Ty.setZ, .one, .zero, .thread, Acc.absent, Acc.quorum, Acc.absent⟩,
  ⟨0x142, false, Ty.setZ, .one, .zero, .slice, Acc.absent, Acc.quorum, Acc.absent⟩,
  ⟨0x143, false, Ty.setZ, .one, .zero, .thread, Acc.absent, Acc.absent, Acc.absent⟩,
  ⟨0x144, false, Ty.setZ, .one, .zero, .slice, Acc.absent, Acc.uniImm, Acc.absent⟩,
  ⟨0x145, false, Ty.setZ, .one, .zero, .slice, Acc.absent, Acc.uniPairImm, Acc.absent⟩,
  ⟨0x146, false, Ty.setZ, .one, .zero, .slice, Acc.absent, Acc.uniPairImm, Acc.absent⟩,
  ⟨0x147, false, Ty.setZ, .one, .zero, .thread, Acc.dst, Acc.uniPairImm, Acc.absent⟩,
  ⟨0x148, false, Ty.setZ, .one, .zero, .slice, Acc.absent, Acc.uniPairImm, Acc.absent⟩,
  ⟨0x149, false, Ty.setZ, .one, .zero, .slice, Acc.absent, Acc.countBarrier, Acc.uniImm⟩,
  ⟨0x14A, false, Ty.setZ, .one, .zero, .slice, Acc.absent, Acc.countBarrier, Acc.uniImm⟩,
  ⟨0x14B, false, Ty.setZ, .one, (.below 2), .thread, Acc.dst, Acc.countBarrier, Acc.absent⟩,
  ⟨0x14C, false, Ty.setZ, .one, .zero, .slice, Acc.absent, Acc.uniImm, Acc.absent⟩,
  ⟨0x14D, false, Ty.setZ, .one, .zero, .slice, Acc.absent, Acc.uniImm, Acc.absent⟩,
  ⟨0x14E, false, Ty.setZ, .one, .zero, .thread, Acc.dst, Acc.uniImm, Acc.absent⟩]

/-- Rows of the matrix group. -/
def matrixRows : List OpRow := [
  ⟨0x180, false, Ty.setZ, .one, .zero, .slice, Acc.tileReg, Acc.absent, Acc.absent⟩,
  ⟨0x181, false, Ty.setZ, .one, .zero, .slice, Acc.tileReg, Acc.absent, Acc.absent⟩,
  ⟨0x182, false, Ty.setZ, .v, .zero, .slice, Acc.tileReg, Acc.absent, Acc.absent⟩,
  ⟨0x183, false, Ty.setX, .v, (.below 4), .slice, Acc.tileReg, (Acc.desc 8), Acc.absent⟩,
  ⟨0x184, false, Ty.setZ, .v, .any, .slice, Acc.absent, Acc.reg, Acc.uniImm⟩,
  ⟨0x185, false, Ty.setT, .v, (.below 8), .quorum, Acc.tileReg, (Acc.desc 8), Acc.quorumOrNone⟩,
  ⟨0x186, false, Ty.setS, .v, (.below 8), .quorum, Acc.tileReg, (Acc.desc 12), Acc.quorumOrNone⟩,
  ⟨0x187, false, Ty.setT, .v, (.below 8), .quorum, Acc.tileReg, (Acc.desc 8), Acc.quorumOrNone⟩,
  ⟨0x188, false, Ty.setX, .v, .ldrn, .slice, Acc.tileReg, (Acc.desc 8), Acc.absent⟩,
  ⟨0x189, false, Ty.setF, .v, (.below 2), .slice, Acc.tileReg, (Acc.desc 8), Acc.absent⟩,
  ⟨0x18A, false, Ty.setW, .v, .mxv, .slice, Acc.absent, (Acc.desc 12), Acc.absent⟩,
  ⟨0x18B, false, Ty.setZ, .one, .zero, .thread, Acc.dst, Acc.absent, Acc.absent⟩]

/-- Rows of the engine group. -/
def engineRows : List OpRow := [
  ⟨0x1C0, false, Ty.setZ, .v, (.below 8), .slice, Acc.tagOrNone, (Acc.desc 8), Acc.cbOrNone⟩,
  ⟨0x1C1, false, Ty.setZ, .v, (.below 16), .slice, Acc.tagOrNone, (Acc.desc 12), Acc.cbOrNone⟩,
  ⟨0x1C2, false, Ty.setZ, .v, (.below 16), .slice, Acc.tagOrNone, (Acc.desc 12), Acc.cbOrNone⟩,
  ⟨0x1C3, false, Ty.setF, .v, .dsca, .slice, Acc.tagOrNone, (Acc.desc 12), Acc.cbOrNone⟩,
  ⟨0x1C4, false, Ty.setZ, .v, (.below 16), .slice, Acc.tagOrNone, (Acc.desc 12), Acc.cbOrNone⟩,
  ⟨0x1C5, false, Ty.setZ, .v, .dfil, .slice, Acc.tagOrNone, (Acc.desc 8), Acc.cbOrNone⟩,
  ⟨0x1C6, false, Ty.setZ, .v, .zero, .slice, Acc.tagOrNone, (Acc.desc 16), Acc.cbOrNone⟩,
  ⟨0x1C7, false, Ty.setZ, .v, (.below 2), .slice, Acc.tagOrNone, (Acc.desc 16), Acc.cbOrNone⟩,
  ⟨0x1C8, false, Ty.setZ, .v, .zero, .slice, Acc.tagOrNone, (Acc.desc 8), Acc.cbOrNone⟩,
  ⟨0x1C9, false, Ty.setZ, .v, (.below 8), .slice, Acc.tagOrNone, (Acc.desc 16), Acc.cbOrNone⟩,
  ⟨0x1CA, false, Ty.setZ, .v, .zero, .slice, Acc.tagOrNone, (Acc.desc 8), Acc.cbOrNone⟩,
  ⟨0x1CB, false, Ty.setZ, .v, .zero, .slice, Acc.dstPair, (Acc.desc 4), Acc.absent⟩,
  ⟨0x1CC, false, Ty.setZ, .v, .zero, .slice, Acc.absent, Acc.uniImm, Acc.absent⟩,
  ⟨0x1CD, false, Ty.setZ, .v, .zero, .slice, Acc.tagOrNone, (Acc.desc 8), Acc.absent⟩,
  ⟨0x1CE, false, Ty.setUU, .v, .zero, .slice, Acc.tagOrNone, (Acc.desc 8), Acc.absent⟩,
  ⟨0x1CF, false, Ty.setZ, .v, .zero, .slice, Acc.tagOrNone, (Acc.desc 8), Acc.cbOrNone⟩,
  ⟨0x1D0, false, Ty.setZ, .v, .zero, .slice, Acc.dst, Acc.uniImm, Acc.absent⟩,
  ⟨0x1D1, false, Ty.setZ, .v, .zero, .slice, Acc.tagOrNone, (Acc.desc 4), Acc.absent⟩,
  ⟨0x1D2, false, Ty.setZ, .v, .zero, .slice, Acc.absent, Acc.uniImm, Acc.uniImm⟩,
  ⟨0x1D3, false, Ty.setZ, .v, (.below 4), .slice, Acc.tagOrNone, (Acc.desc 4), Acc.absent⟩,
  ⟨0x1D4, false, Ty.setZ, .v, .zero, .slice, Acc.absent, Acc.uniImm, Acc.absent⟩]

/-- The opcode map (R65), with REFILL.push under key 0x20C. -/
def opRows : List OpRow :=
  controlRows ++ integerRows ++ floatRows ++ packedRows ++ memoryRows ++ syncRows ++ matrixRows ++ engineRows
/-- Part 0 of the form R instructions of each opcode key (R65). -/
def ctorsR0 : List (Nat × (FormR → Instr)) :=
  [(0x001, .nop), (0x003, .brx), (0x005, .callx), (0x006, .ret), (0x007, .exit), (0x009, .join), (0x00B, .part), (0x00C, .refill), (0x20C, .refillPush), (0x00D, .tlaunch), (0x00E, .yield), (0x00F, .trap), (0x010, .brk), (0x011, .rdsr), (0x012, .wrsr), (0x013, .ifence), (0x040, .iadd), (0x041, .isub), (0x042, .imul), (0x043, .imulh), (0x044, .imad), (0x045, .imadw), (0x046, .idiv), (0x047, .irem)]

/-- Part 1 of the form R instructions of each opcode key (R65). -/
def ctorsR1 : List (Nat × (FormR → Instr)) :=
  [(0x048, .imin), (0x049, .imax), (0x04A, .iabs), (0x04B, .ineg), (0x04C, .iaddc), (0x04D, .isubb), (0x04E, .shl), (0x04F, .shr), (0x050, .sar), (0x051, .rot), (0x052, .andW), (0x053, .orW), (0x054, .xorW), (0x055, .andn), (0x056, .notW), (0x057, .bfe), (0x058, .bfi), (0x059, .popc), (0x05A, .clz), (0x05B, .ctz), (0x05C, .brev), (0x05D, .lea), (0x05E, .lea64), (0x05F, .mov)]

/-- Part 2 of the form R instructions of each opcode key (R65). -/
def ctorsR2 : List (Nat × (FormR → Instr)) :=
  [(0x062, .sel), (0x063, .itst), (0x064, .icmp), (0x065, .iadd64), (0x066, .isub64), (0x067, .imul64), (0x068, .shl64), (0x069, .shr64), (0x080, .fadd), (0x081, .fsub), (0x082, .fmul), (0x083, .ffma), (0x084, .fmin), (0x085, .fmax), (0x086, .ftst), (0x087, .fcmp), (0x088, .frnd), (0x089, .fdiv), (0x08A, .fsqrt), (0x08B, .frcp), (0x08C, .frsq), (0x08D, .fex2), (0x08E, .flg2), (0x08F, .fsin)]

/-- Part 3 of the form R instructions of each opcode key (R65). -/
def ctorsR3 : List (Nat × (FormR → Instr)) :=
  [(0x090, .fcos), (0x091, .ftanh), (0x092, .hadd2), (0x093, .hmul2), (0x094, .hfma2), (0x095, .badd2), (0x096, .bmul2), (0x097, .bfma2), (0x098, .cvt), (0x099, .cvts), (0x09A, .f2i), (0x09B, .i2f), (0x09C, .qnt), (0x09D, .dqnt), (0x09E, .fcls), (0x0C0, .vadd), (0x0C1, .vsub), (0x0C2, .vmin), (0x0C3, .vmax), (0x0C4, .vabsd), (0x0C5, .vdot4), (0x0C6, .vdot2), (0x0C7, .pand), (0x0C8, .por)]

/-- Part 4 of the form R instructions of each opcode key (R65). -/
def ctorsR4 : List (Nat × (FormR → Instr)) :=
  [(0x0C9, .pxor), (0x0CA, .pnot), (0x0CB, .pmov), (0x0CC, .p2v), (0x0CD, .v2p), (0x0CE, .shfl), (0x0CF, .vote), (0x0D0, .matchLanes), (0x0D1, .prfx), (0x0D2, .rank), (0x0D3, .redg), (0x0D4, .bcast), (0x0D5, .rngk), (0x0D6, .hshk), (0x100, .ld), (0x101, .st), (0x102, .ldv), (0x103, .stv), (0x104, .ldb), (0x105, .stb), (0x106, .ldbv), (0x107, .stbv), (0x108, .atom), (0x109, .acas)]

/-- Part 5 of the form R instructions of each opcode key (R65). -/
def ctorsR5 : List (Nat × (FormR → Instr)) :=
  [(0x10A, .red), (0x10B, .redf), (0x10C, .reddcl), (0x10D, .redrd), (0x10E, .atomb), (0x10F, .rwb), (0x110, .rinv), (0x111, .rwbi), (0x112, .fence), (0x113, .tfence), (0x114, .pref), (0x115, .harvest), (0x140, .qdecl), (0x141, .qsign), (0x142, .qwait), (0x143, .bar), (0x144, .waitf), (0x145, .waitt), (0x146, .waitta), (0x147, .tagff), (0x148, .tagclr), (0x149, .cbexp), (0x14A, .cbwait), (0x14B, .cbrd)]

/-- Part 6 of the form R instructions of each opcode key (R65). -/
def ctorsR6 : List (Nat × (FormR → Instr)) :=
  [(0x14C, .claim), (0x14D, .give), (0x14E, .poolq), (0x180, .lalloc), (0x181, .lfree), (0x182, .lzero), (0x183, .lldc), (0x184, .lopf), (0x185, .lmma), (0x186, .lmms), (0x187, .lmmg), (0x188, .ldrn), (0x189, .ldrx), (0x18A, .mxv), (0x18B, .mxvp), (0x1C0, .dcpy), (0x1C1, .dgth), (0x1C2, .dsct), (0x1C3, .dsca), (0x1C4, .dcsr), (0x1C5, .dfil), (0x1C6, .svpt), (0x1C7, .svvox), (0x1C8, .svqry)]

/-- Part 7 of the form R instructions of each opcode key (R65). -/
def ctorsR7 : List (Nat × (FormR → Instr)) :=
  [(0x1C9, .svnbr), (0x1CA, .svdwn), (0x1CB, .svmap), (0x1CC, .svfree), (0x1CD, .svclr), (0x1CE, .atstrm), (0x1CF, .atsub), (0x1D0, .atnext), (0x1D1, .atpost), (0x1D2, .atdone), (0x1D3, .atmrg), (0x1D4, .atuns)]

/-- The form R instruction of each opcode key (R65). -/
def ctorsR : List (Nat × (FormR → Instr)) :=
  ctorsR0 ++ ctorsR1 ++ ctorsR2 ++ ctorsR3 ++ ctorsR4 ++ ctorsR5 ++ ctorsR6 ++ ctorsR7

/-- Part 0 of the form L instructions of each opcode key (R65). -/
def ctorsL0 : List (Nat × (FormL → Instr)) :=
  [(0x002, .bra), (0x004, .call), (0x008, .pushj), (0x00A, .regang), (0x060, .movi), (0x061, .movh)]

/-- The form L instruction of each opcode key (R65). -/
def ctorsL : List (Nat × (FormL → Instr)) :=
  ctorsL0

/-- The opcode key and the fields of an instruction; none for a step of another agent, which has no word. -/
def Instr.fields : Instr → Option (Nat × Fields)
  | .nop f => some (0x001, .r f)
  | .bra f => some (0x002, .l f)
  | .brx f => some (0x003, .r f)
  | .call f => some (0x004, .l f)
  | .callx f => some (0x005, .r f)
  | .ret f => some (0x006, .r f)
  | .exit f => some (0x007, .r f)
  | .pushj f => some (0x008, .l f)
  | .join f => some (0x009, .r f)
  | .regang f => some (0x00A, .l f)
  | .part f => some (0x00B, .r f)
  | .refill f => some (0x00C, .r f)
  | .refillPush f => some (0x20C, .r f)
  | .tlaunch f => some (0x00D, .r f)
  | .yield f => some (0x00E, .r f)
  | .trap f => some (0x00F, .r f)
  | .brk f => some (0x010, .r f)
  | .rdsr f => some (0x011, .r f)
  | .wrsr f => some (0x012, .r f)
  | .ifence f => some (0x013, .r f)
  | .iadd f => some (0x040, .r f)
  | .isub f => some (0x041, .r f)
  | .imul f => some (0x042, .r f)
  | .imulh f => some (0x043, .r f)
  | .imad f => some (0x044, .r f)
  | .imadw f => some (0x045, .r f)
  | .idiv f => some (0x046, .r f)
  | .irem f => some (0x047, .r f)
  | .imin f => some (0x048, .r f)
  | .imax f => some (0x049, .r f)
  | .iabs f => some (0x04A, .r f)
  | .ineg f => some (0x04B, .r f)
  | .iaddc f => some (0x04C, .r f)
  | .isubb f => some (0x04D, .r f)
  | .shl f => some (0x04E, .r f)
  | .shr f => some (0x04F, .r f)
  | .sar f => some (0x050, .r f)
  | .rot f => some (0x051, .r f)
  | .andW f => some (0x052, .r f)
  | .orW f => some (0x053, .r f)
  | .xorW f => some (0x054, .r f)
  | .andn f => some (0x055, .r f)
  | .notW f => some (0x056, .r f)
  | .bfe f => some (0x057, .r f)
  | .bfi f => some (0x058, .r f)
  | .popc f => some (0x059, .r f)
  | .clz f => some (0x05A, .r f)
  | .ctz f => some (0x05B, .r f)
  | .brev f => some (0x05C, .r f)
  | .lea f => some (0x05D, .r f)
  | .lea64 f => some (0x05E, .r f)
  | .mov f => some (0x05F, .r f)
  | .movi f => some (0x060, .l f)
  | .movh f => some (0x061, .l f)
  | .sel f => some (0x062, .r f)
  | .itst f => some (0x063, .r f)
  | .icmp f => some (0x064, .r f)
  | .iadd64 f => some (0x065, .r f)
  | .isub64 f => some (0x066, .r f)
  | .imul64 f => some (0x067, .r f)
  | .shl64 f => some (0x068, .r f)
  | .shr64 f => some (0x069, .r f)
  | .fadd f => some (0x080, .r f)
  | .fsub f => some (0x081, .r f)
  | .fmul f => some (0x082, .r f)
  | .ffma f => some (0x083, .r f)
  | .fmin f => some (0x084, .r f)
  | .fmax f => some (0x085, .r f)
  | .ftst f => some (0x086, .r f)
  | .fcmp f => some (0x087, .r f)
  | .frnd f => some (0x088, .r f)
  | .fdiv f => some (0x089, .r f)
  | .fsqrt f => some (0x08A, .r f)
  | .frcp f => some (0x08B, .r f)
  | .frsq f => some (0x08C, .r f)
  | .fex2 f => some (0x08D, .r f)
  | .flg2 f => some (0x08E, .r f)
  | .fsin f => some (0x08F, .r f)
  | .fcos f => some (0x090, .r f)
  | .ftanh f => some (0x091, .r f)
  | .hadd2 f => some (0x092, .r f)
  | .hmul2 f => some (0x093, .r f)
  | .hfma2 f => some (0x094, .r f)
  | .badd2 f => some (0x095, .r f)
  | .bmul2 f => some (0x096, .r f)
  | .bfma2 f => some (0x097, .r f)
  | .cvt f => some (0x098, .r f)
  | .cvts f => some (0x099, .r f)
  | .f2i f => some (0x09A, .r f)
  | .i2f f => some (0x09B, .r f)
  | .qnt f => some (0x09C, .r f)
  | .dqnt f => some (0x09D, .r f)
  | .fcls f => some (0x09E, .r f)
  | .vadd f => some (0x0C0, .r f)
  | .vsub f => some (0x0C1, .r f)
  | .vmin f => some (0x0C2, .r f)
  | .vmax f => some (0x0C3, .r f)
  | .vabsd f => some (0x0C4, .r f)
  | .vdot4 f => some (0x0C5, .r f)
  | .vdot2 f => some (0x0C6, .r f)
  | .pand f => some (0x0C7, .r f)
  | .por f => some (0x0C8, .r f)
  | .pxor f => some (0x0C9, .r f)
  | .pnot f => some (0x0CA, .r f)
  | .pmov f => some (0x0CB, .r f)
  | .p2v f => some (0x0CC, .r f)
  | .v2p f => some (0x0CD, .r f)
  | .shfl f => some (0x0CE, .r f)
  | .vote f => some (0x0CF, .r f)
  | .matchLanes f => some (0x0D0, .r f)
  | .prfx f => some (0x0D1, .r f)
  | .rank f => some (0x0D2, .r f)
  | .redg f => some (0x0D3, .r f)
  | .bcast f => some (0x0D4, .r f)
  | .rngk f => some (0x0D5, .r f)
  | .hshk f => some (0x0D6, .r f)
  | .ld f => some (0x100, .r f)
  | .st f => some (0x101, .r f)
  | .ldv f => some (0x102, .r f)
  | .stv f => some (0x103, .r f)
  | .ldb f => some (0x104, .r f)
  | .stb f => some (0x105, .r f)
  | .ldbv f => some (0x106, .r f)
  | .stbv f => some (0x107, .r f)
  | .atom f => some (0x108, .r f)
  | .acas f => some (0x109, .r f)
  | .red f => some (0x10A, .r f)
  | .redf f => some (0x10B, .r f)
  | .reddcl f => some (0x10C, .r f)
  | .redrd f => some (0x10D, .r f)
  | .atomb f => some (0x10E, .r f)
  | .rwb f => some (0x10F, .r f)
  | .rinv f => some (0x110, .r f)
  | .rwbi f => some (0x111, .r f)
  | .fence f => some (0x112, .r f)
  | .tfence f => some (0x113, .r f)
  | .pref f => some (0x114, .r f)
  | .harvest f => some (0x115, .r f)
  | .qdecl f => some (0x140, .r f)
  | .qsign f => some (0x141, .r f)
  | .qwait f => some (0x142, .r f)
  | .bar f => some (0x143, .r f)
  | .waitf f => some (0x144, .r f)
  | .waitt f => some (0x145, .r f)
  | .waitta f => some (0x146, .r f)
  | .tagff f => some (0x147, .r f)
  | .tagclr f => some (0x148, .r f)
  | .cbexp f => some (0x149, .r f)
  | .cbwait f => some (0x14A, .r f)
  | .cbrd f => some (0x14B, .r f)
  | .claim f => some (0x14C, .r f)
  | .give f => some (0x14D, .r f)
  | .poolq f => some (0x14E, .r f)
  | .lalloc f => some (0x180, .r f)
  | .lfree f => some (0x181, .r f)
  | .lzero f => some (0x182, .r f)
  | .lldc f => some (0x183, .r f)
  | .lopf f => some (0x184, .r f)
  | .lmma f => some (0x185, .r f)
  | .lmms f => some (0x186, .r f)
  | .lmmg f => some (0x187, .r f)
  | .ldrn f => some (0x188, .r f)
  | .ldrx f => some (0x189, .r f)
  | .mxv f => some (0x18A, .r f)
  | .mxvp f => some (0x18B, .r f)
  | .dcpy f => some (0x1C0, .r f)
  | .dgth f => some (0x1C1, .r f)
  | .dsct f => some (0x1C2, .r f)
  | .dsca f => some (0x1C3, .r f)
  | .dcsr f => some (0x1C4, .r f)
  | .dfil f => some (0x1C5, .r f)
  | .svpt f => some (0x1C6, .r f)
  | .svvox f => some (0x1C7, .r f)
  | .svqry f => some (0x1C8, .r f)
  | .svnbr f => some (0x1C9, .r f)
  | .svdwn f => some (0x1CA, .r f)
  | .svmap f => some (0x1CB, .r f)
  | .svfree f => some (0x1CC, .r f)
  | .svclr f => some (0x1CD, .r f)
  | .atstrm f => some (0x1CE, .r f)
  | .atsub f => some (0x1CF, .r f)
  | .atnext f => some (0x1D0, .r f)
  | .atpost f => some (0x1D1, .r f)
  | .atdone f => some (0x1D2, .r f)
  | .atmrg f => some (0x1D3, .r f)
  | .atuns f => some (0x1D4, .r f)
  | .slotVisit _ _ => none
  | .rotationEnd _ _ => none
  | .regDeadlockDetect _ => none
  | .memoryOpComplete _ _ _ => none
  | .promotionRequest _ => none
  | .l1Eviction _ _ => none
  | .l1ParityError _ _ _ => none
  | .l2WriteReceive _ => none
  | .l2Eviction _ _ _ => none
  | .memoryEccError _ _ => none
  | .directoryRequest _ => none
  | .recallInvalidationReceive _ => none
  | .directoryAckReceive _ => none
  | .directoryQuietTick => none
  | .directoryEntryError _ _ _ => none
  | .flitRetry _ _ => none
  | .atomicPerform _ => none
  | .reductionAddendFold _ => none
  | .partialIdleTimeout _ _ _ => none
  | .partialFold _ => none
  | .loomAccept _ => none
  | .metadataGrant _ => none
  | .loomOperationComplete _ => none
  | .drainStoreComplete _ => none
  | .mxvSegmentComplete _ => none
  | .millBlockForward _ _ _ => none
  | .drayCommandStart _ => none
  | .drayChunkComplete _ _ => none
  | .engineCommandComplete _ => none
  | .surveyorCommandStart _ => none
  | .surveyorBatchComplete _ => none
  | .subscriptionAccept _ _ => none
  | .crierPageFetch _ => none
  | .pageDelivery _ _ => none
  | .mergeFold _ _ => none
  | .pageWalk _ _ => none
  | .queueEntryAccept _ => none
  | .coreGrantDecision => none
  | .detGridStart _ => none
  | .blockAdmission _ => none
  | .blockRetire _ => none
  | .gridRetire _ => none
  | .blockStop _ => none
  | .blockSave _ => none
  | .trapRecordWrite _ => none
  | .blockRestore _ _ => none
  | .watchdogExpiry _ => none
  | .queueDoorbell _ _ => none
  | .queueRingSetup _ _ _ => none
  | .commandDoorbell _ => none
  | .commandRingSetup _ _ => none
  | .registerWrite _ _ _ => none
  | .cmdShootdown => none
  | .cmdResume => none
  | .cmdPartition => none
  | .cmdAttributeTable => none
  | .cmdLoadKey => none
  | .cmdRetireKey => none
  | .cmdOpenWindow => none
  | .cmdCloseWindow => none
  | .cmdResetPartition => none
  | .cmdPreempt => none
  | .cmdClearTrapLog => none
  | .cmdReserved => none
  | .vfFunctionLevelReset _ => none
  | .hostBar2Access _ _ _ _ _ => none
  | .powerOn => none
  | .firmwareGo => none
  | .memoryTraining _ => none
  | .attestationGo _ => none
  | .stepcapWrite _ => none
  | .throttleStepDown => none
  | .throttleStepUp => none
  | .thermalCritical => none
  | .pwrfailN => none
  | .peerRequestTimeout _ => none
  | .peerResetSignal _ => none
  | .peerLinkRetrain _ => none
  | .peerIncomingRequest _ _ _ _ _ => none
  | .idivIremCompletion _ _ _ => none
  | .l3Eviction _ _ => none
  | .operandBufferLineEntry _ => none
  | .powerLoss _ => none
  | .softError _ _ _ => none
  | .sensorReading _ _ => none

namespace Machine

/-- The key of an opcode in the tables: the opcode, and 0x20C for REFILL.push, which MOD[2] selects (R204). -/
def opKey (opc : Nat) (md : BitVec 6) : Nat := if opc = 0x00C ∧ md.getLsbD 2 then 0x20C else opc

/-- The row of a key; none is an opcode of R66. -/
def opRow? (key : Nat) : Option OpRow := opRows.find? (fun r => r.key == key)

/-- The instruction of a key and its fields. -/
def mkInstr (key : Nat) : Fields → Option Instr
  | .r f => (ctorsR.lookup key).map (fun c => c f)
  | .l f => (ctorsL.lookup key).map (fun c => c f)

/-- Whether an order code field holds an assigned code (R160), up to a largest code. -/
def ocAtMost (md : BitVec 6) (n : Nat) : Bool := decide ((md.extractLsb' 3 3).toNat ≤ n)

/-- The combinations of operation and type that ATOM, RED and ATOMB assign (R170). -/
def atomicOpOk (ty : Ty) (op : Nat) : Bool :=
  match ty with
  | .b32 => decide (3 ≤ op ∧ op ≤ 6)
  | .f32 => decide (op ≤ 2 ∨ op = 6)
  | _ => decide (op ≤ 6)

/-- Whether MOD[1:0] and MOD[2] hold a request type as R161 assigns them. -/
def requestOk (md : BitVec 6) : Bool := md.getLsbD 2 || decide (md.extractLsb' 0 2 = 0)

/-- Whether MOD[5:2] names a source type of a conversion (R138). -/
def sourceTypeOk (md : BitVec 6) : Bool := decide (Ty.ofCode (md.extractLsb' 2 4) ∈ Ty.setC)

/-- Whether a MOD value is assigned (R48): R118 to R154, R161 to R182, R186, R224, R245 and R252. -/
def ModRule.ok (m : ModRule) (ty : Ty) (md : BitVec 6) : Bool :=
  match m with
  | .zero => decide (md = 0)
  | .below n => decide (md.toNat < n)
  | .within lo hi => decide (lo ≤ md.toNat ∧ md.toNat ≤ hi)
  | .any => true
  | .cvt => sourceTypeOk md
  | .cvts => sourceTypeOk md && !md.getLsbD 1
  | .ld => requestOk md && ocAtMost md 6
  | .st => requestOk md && ocAtMost md 4
  | .ldv => requestOk md && ocAtMost md 1
  | .ldbv => decide (md.extractLsb' 0 3 = 0) && ocAtMost md 1
  | .atom => atomicOpOk ty (md.extractLsb' 0 3).toNat && ocAtMost md 6
  | .acas => decide (md.extractLsb' 0 3 = 0) && ocAtMost md 6
  | .atomb => atomicOpOk ty (md.extractLsb' 0 3).toNat && ocAtMost md 0
  | .fence => decide (md.extractLsb' 0 2 ≠ 0) && !md.getLsbD 2 && decide (md.extractLsb' 3 3 ≠ 0) &&
      ocAtMost md (if md.extractLsb' 0 2 = 2 then 4 else 6)
  | .ldrn => ocAtMost md 4
  | .mxv => decide (md.extractLsb' 0 2 ≠ 3)
  | .dsca => md.getLsbD 1 && decide (md.toNat < 16)
  | .dfil => !md.getLsbD 0 && decide (md.toNat < 8)

/-- The Thread-class special registers of R55. -/
def threadSreg (n : BitVec 8) : Bool := n ∈ [0x00#8, 0x01#8, 0x02#8, 0x08#8, 0x0D#8]
/-- The 64-bit special registers of R35. -/
def wideSreg (n : BitVec 8) : Bool := n ∈ [0x0E#8, 0x10#8, 0x11#8, 0x12#8]
/-- The special registers that exist (R55, R221). -/
def sregExists (n : BitVec 8) : Bool := decide (n ≤ 0x12) || (decide (0x80 ≤ n) && decide (n ≤ 0x85))

/-- The SEL codes that a destination view assigns (R53). -/
def destSelOk (view : View) (sel : BitVec 3) : Bool :=
  match view with
  | .w | .b => decide (sel ≠ 7)
  | .h => decide (sel ≤ 2)
  | .n => decide (sel ≤ 4)

/-- Source element count, source registers and destination registers of the span rule (R137). -/
def spanOf (ws wd : Nat) : Nat × Nat × Nat :=
  let n := max 1 (max (32 / ws) (32 / wd))
  (n, n * ws / 32, n * wd / 32)

/-- The source and destination element types of a conversion (R138 to R142); none for an instruction without spans. -/
def spanTypes (key : Nat) (c : Common) : Option (Ty × Ty) :=
  if key = 0x098 ∨ key = 0x099 then some (Ty.ofCode (c.md.extractLsb' 2 4), c.ty)
  else if key = 0x09C then some (.f32, c.ty)
  else if key = 0x09D then some (c.ty, .f32)
  else none

/-- The source type and the span of a conversion. -/
def spanInfo (key : Nat) (c : Common) : Option (Ty × Nat × Nat × Nat) :=
  (spanTypes key c).map fun (s, d) => (s, spanOf s.width d.width)

/-- Register count of LDV, STV, LDBV and STBV, in registers (R161, R162). -/
def vectorCount (c : Common) : Nat :=
  (if c.md.getLsbD 3 then 4 else 2) * (if c.ty.is64 then 2 else 1)

/-- Whether an opcode key is one of a list. -/
def keyIn (key : Nat) (l : List Nat) : Bool := l.contains key

/-- The destination field's rules, with what the modifiers and the type decide. -/
def accOD (row : OpRow) (f : Fields) : Acc :=
  let c := f.common
  if row.key = 0x0CF then (if c.md.extractLsb' 0 2 = 3 then Acc.dstLane else row.od)
  else if row.key = 0x011 then
    match f.oa with
    | .sreg n => if wideSreg n then Acc.dstPair else row.od
    | _ => row.od
  else if keyIn row.key [0x100, 0x101, 0x104, 0x105, 0x108, 0x109, 0x10E] then { row.od with wide := c.ty.is64 }
  else if keyIn row.key [0x102, 0x103, 0x106, 0x107] then { row.od with plain := true, align := vectorCount c }
  else match spanInfo row.key c with
    | some (_, _, _, cd) => { row.od with plain := decide (1 < cd), align := max 1 cd }
    | none => row.od

/-- The first source field's rules. A span of one register, or of one 64-bit pair, also takes a short immediate, and one 64-bit
pair a 64-bit special register (R115, R137). -/
def accOA (row : OpRow) (f : Fields) : Acc :=
  let c := f.common
  if row.key = 0x00B then (if c.md.getLsbD 0 then Acc.absent else Acc.predicate)
  else if row.key = 0x184 then (if c.md.getLsbD 0 then Acc.uniReg else Acc.laneReg)
  else match spanInfo row.key c with
    | some (s, _, cs, _) =>
      { row.oa with wide := s.is64, plain := decide (1 < cs), align := max 1 cs, sreg := s.is64 && decide (cs = 2),
                    imm := (decide (cs ≤ 1) || (s.is64 && decide (cs = 2))) && decide (s ≠ .e8m0x4 ∧ s ≠ .q4) }
    | none => row.oa

/-- The second source field's rules. -/
def accOB (row : OpRow) (f : Fields) : Acc :=
  let c := f.common
  if row.key = 0x0D3 then (if c.md.extractLsb' 0 2 = 0 then row.ob else Acc.absent)
  else if row.key = 0x109 then { row.ob with plain := true, align := if c.ty.is64 then 4 else 2 }
  else if keyIn row.key [0x108, 0x10A, 0x10E] then { row.ob with wide := c.ty.is64 }
  else row.ob

/-- Whether a field accepts an operand: its kind, and the rules on NUM, VIEW and SEL (R49 to R55, R224). -/
def Acc.ok (a : Acc) (o : Opnd) : Bool :=
  match o with
  | .lane num view sel =>
    a.lane && (!a.dest || destSelOk view sel) && (!(a.wide || a.plain) || (decide (view = .w) && decide (sel = 0)))
      && (!a.wide || decide (num.toNat % 2 = 0)) && decide (num.toNat % a.align = 0)
  | .uni num view sel =>
    a.uni && (!a.dest || destSelOk view sel) && (!(a.wide || a.plain) || (decide (view = .w) && decide (sel = 0)))
      && (!a.wide || decide (num.toNat % 2 = 0)) && decide (num.toNat % a.align = 0)
      && decide (num.toNat + a.dlen ≤ 64)
  | .pred _ neg => a.pred && (!a.dest || !neg)
  | .sreg n => a.sreg && sregExists n && (!a.wide || wideSreg n) && (!a.uniSr || !threadSreg n)
  | .imm _ => a.imm
  | .res (.q _) => a.q
  | .res (.tg _) => a.tag
  | .res (.cb _) => a.cb
  | .res (.fl _) => false
  | .tile _ => a.tile
  | .none => a.nil

/-- Whether a view that chooses nibbles stands where an access chooses bytes (R157). -/
def nibbleData (key : Nat) (o : Opnd) : Bool :=
  keyIn key [0x100, 0x101, 0x104, 0x105] &&
    match o with
    | .lane _ .n sel => decide (sel = 3 ∨ sel = 4)
    | .uni _ .n sel => decide (sel = 3 ∨ sel = 4)
    | _ => false

/-- The special registers that WRSR may write (R220, R221). -/
def writableSreg (o : Opnd) : Bool :=
  match o with
  | .sreg n => decide (0x81 ≤ n) && decide (n ≤ 0x85)
  | _ => false

/-- Whether an operand is a lane, uniform or predicate register. -/
def Opnd.isReg : Opnd → Bool
  | .lane .. | .uni .. | .pred .. => true
  | _ => false

/-- Whether an operand is a uniform register. -/
def Opnd.isUni : Opnd → Bool
  | .uni .. => true
  | _ => false

/-- The instructions whose OD is a source and not a destination (R156). -/
def odIsSource (key : Nat) : Bool := keyIn key [0x101, 0x103, 0x105, 0x107, 0x10C]

/-- The destructive instructions, which read their destination (R116 to R146). -/
def destructive (key : Nat) (c : Common) : Bool :=
  keyIn key [0x044, 0x045, 0x058, 0x083, 0x094, 0x097, 0x0C2, 0x0C3, 0x0C5, 0x0C6] ||
    (key == 0x0C4 && c.md.getLsbD 0)

/-- Whether a source leaves an instruction uniform: a uniform register, a Uniform-class special register, an immediate, a named
resource or none (R56). A predicate is per thread (log entry 30), and the privileged registers are Uniform-class (log entry 83). -/
def uniformSource (o : Opnd) : Bool :=
  match o with
  | .lane .. | .pred .. => false
  | .sreg n => !threadSreg n
  | _ => true

/-- Whether MOD names a predicate that the instruction reads per thread (R121, R126), or the instruction packs the
predicates (R147). -/
def modPredicate (key : Nat) (c : Common) : Bool :=
  (keyIn key [0x04C, 0x04D, 0x062] && decide (c.md.extractLsb' 0 3 ≠ 7)) || key == 0x0CC

/-- The guard class of an instruction word (R187, R224). -/
def guardClass (row : OpRow) (f : Fields) : GuardClass :=
  match row.guard with
  | .quorum => match f.ob with
    | .none => .slice
    | _ => .thread
  | g => g

/-- The uniformity test of R56; a destination that the instruction also reads counts as a source (log entry 84). -/
def isUniform (row : OpRow) (f : Fields) : Bool :=
  uniformSource f.oa && uniformSource f.ob && (!(odIsSource row.key || destructive row.key f.common) || uniformSource f.od)
    && !modPredicate row.key f.common
    && (match guardClass row f with
        | .thread => decide (f.common.gp = 7) && !f.common.gn
        | _ => true)

/-- The part of check 4 of R67 that the common fields decide: SETF 12 to 14, an unassigned MOD, and the guard of an Always
instruction (R187). Field 3 of R337. -/
def commonFault (row : OpRow) (c : Common) : Option Nat :=
  if decide (12 ≤ c.setf.toNat) && decide (c.setf.toNat ≤ 14) then some 3
  else if !ModRule.ok row.md c.ty c.md then some 3
  else if row.guard = .always ∧ ¬(c.gp = 7 ∧ c.gn = false) then some 3
  else none

/-- The part of check 4 of R67 that the operand fields decide. -/
def operandFault (row : OpRow) (f : Fields) : Option Nat :=
  if !Acc.ok (accOD row f) f.od || nibbleData row.key f.od || (row.key == 0x012 && !writableSreg f.od) then some 0
  else if !Acc.ok (accOA row f) f.oa then some 1
  else if !Acc.ok (accOB row f) f.ob then some 2
  else if row.lat = .v ∧ odIsSource row.key = false ∧ Opnd.isReg f.od ∧ f.common.setf = 15 then some 3
  else if odIsSource row.key = false ∧ Opnd.isUni f.od ∧ isUniform row f = false then some 0
  else none

/-- Check 4 of R67 for a word whose operand fields decode: none, or the field at fault as INFO of R337 names it, 0 for OD to
2 for OB and 3 for another field. -/
def encodingFault (row : OpRow) (f : Fields) : Option Nat :=
  match commonFault row f.common with
  | some n => some n
  | none => operandFault row f

end Machine
end Sys2Proof
end

