-- ==== Sys2Proof/WellFormed.lean ====
section
/-! DEFINITION. Which instructions of the syntax an instruction word can spell: the row of the opcode map, its types, and check 4
of R67. A step of another agent has no word and is always well formed. -/

namespace Sys2Proof

/-- The fields of a well-formed instruction word under a row: the row's form, an accepted type and no encoding fault. -/
def Fields.okFor (row : OpRow) (f : Fields) : Bool :=
  (match f with
    | .r _ => !row.formL
    | .l _ => row.formL)
  && decide (f.common.ty ∈ row.types) && decide (Machine.encodingFault row f = none)

/-- An instruction that some 96-bit word encodes, or a step of another agent. -/
def Instr.wellFormed (i : Instr) : Bool :=
  match i.fields with
  | none => true
  | some (key, f) => match Machine.opRow? key with
    | none => false
    | some row => f.okFor row

end Sys2Proof
end

