-- ==== Sys2Proof/Decode.lean ====
section
/-! DEFINITION. The decoder of 96-bit instruction words, total and rejecting by name, and the encoder written from the same
tables (R46 to R67). -/

namespace Sys2Proof

/-- Why a word is no instruction (R66, R67): checks 2, 3 and 4, with the trap record's INFO of R337. -/
inductive DecodeError where
  | illegalOpcode
  | illegalType (ty : BitVec 4)
  | illegalEncoding (field : Nat)
  deriving DecidableEq, Repr

/-- VIEW codes of R52. -/
def View.ofCode (c : BitVec 2) : View :=
  if c = 0 then .w else if c = 1 then .h else if c = 2 then .b else .n

def View.code : View → BitVec 2
  | .w => 0 | .h => 1 | .b => 2 | .n => 3

/-- A named resource from NUM (R50). -/
def Res.ofNum (num : BitVec 8) : Option Res :=
  let idx := num.extractLsb' 0 6
  let cls := num.extractLsb' 6 2
  if cls = 0 then (if idx.toNat < 16 then some (.q (idx.extractLsb' 0 4)) else none)
  else if cls = 1 then some (.tg idx)
  else if cls = 2 then some (.cb idx)
  else if h : idx.toNat < 12 then some (.fl ⟨idx.toNat, h⟩) else none

def Res.num : Res → BitVec 8
  | .q n => 0#2 ++ 0#2 ++ n
  | .tg n => 1#2 ++ n
  | .cb n => 2#2 ++ n
  | .fl n => 3#2 ++ BitVec.ofNat 6 n.val

/-- An operand field (R49); none where the field holds a value that R49 or R50 reserves for every instruction. -/
def Opnd.decode (w : BitVec 16) : Option Opnd :=
  let kind := w.extractLsb' 13 3
  let num := w.extractLsb' 5 8
  let view := w.extractLsb' 3 2
  let sel := w.extractLsb' 0 3
  if kind = 0 then some (.lane num (View.ofCode view) sel)
  else if kind = 1 then
    (if num.toNat < 64 then some (.uni (num.extractLsb' 0 6) (View.ofCode view) sel) else Option.none)
  else if kind = 2 then
    (if num.toNat < 8 ∧ view = 0 ∧ sel.toNat ≤ 1 then some (.pred (num.extractLsb' 0 3) (decide (sel = 1))) else Option.none)
  else if kind = 4 then some (.imm (w.extractLsb' 0 13))
  else if view ≠ 0 ∨ sel ≠ 0 then Option.none
  else if kind = 3 then some (.sreg num)
  else if kind = 5 then (Res.ofNum num).map .res
  else if kind = 6 then (if num.toNat < 8 then some (.tile (num.extractLsb' 0 3)) else Option.none)
  else if num = 0 then some .none else Option.none

/-- The 16 bits of an operand field (R49). -/
def Opnd.encode : Opnd → BitVec 16
  | .lane num view sel => 0#3 ++ num ++ view.code ++ sel
  | .uni num view sel => 1#3 ++ 0#2 ++ num ++ view.code ++ sel
  | .pred num neg => 2#3 ++ 0#5 ++ num ++ 0#2 ++ 0#2 ++ BitVec.ofBool neg
  | .sreg num => 3#3 ++ num ++ 0#5
  | .imm v => 4#3 ++ v
  | .res r => 5#3 ++ r.num ++ 0#5
  | .tile num => 6#3 ++ 0#5 ++ num ++ 0#5
  | .none => 0xE000

/-- The fields common to both forms (R46). -/
def Common.decode (w : W96) : Common :=
  { ty := Ty.ofCode (w.extractLsb' 9 4), md := w.extractLsb' 13 6, gp := w.extractLsb' 19 3, gn := w.getLsbD 22,
    dist := w.extractLsb' 23 4, setf := w.extractLsb' 27 4, yld := w.getLsbD 31 }

/-- The operand fields of a word, or the first field at fault (R337): OD, OA, then OB; the reserved bits of form R are field 3. -/
def Fields.decode (formL : Bool) (w : W96) : Except Nat Fields :=
  let c := Common.decode w
  match Opnd.decode (w.extractLsb' 32 16), Opnd.decode (w.extractLsb' 48 16) with
  | none, _ => .error 0
  | some _, none => .error 1
  | some od, some oa =>
    if formL then .ok (.l { toCommon := c, od := od, oa := oa, imm := w.extractLsb' 64 32 })
    else match Opnd.decode (w.extractLsb' 64 16) with
      | none => .error 2
      | some ob => .ok (.r { toCommon := c, od := od, oa := oa, ob := ob, wm := w.extractLsb' 80 12 })

/-- The decoder: checks 2, 3 and 4 of R67 in their order. -/
def decode (w : W96) : Except DecodeError Instr :=
  let key := Machine.opKey (w.extractLsb' 0 9).toNat (w.extractLsb' 13 6)
  match Machine.opRow? key with
  | none => .error .illegalOpcode
  | some row =>
    let c := Common.decode w
    if c.ty ∉ row.types then .error (.illegalType c.ty.code)
    else if row.formL = false ∧ w.extractLsb' 92 4 ≠ 0 then .error (.illegalEncoding 3)
    else match Machine.commonFault row c with
      | some n => .error (.illegalEncoding n)
      | none => match Fields.decode row.formL w with
        | .error n => .error (.illegalEncoding n)
        | .ok f => match Machine.operandFault row f with
          | some n => .error (.illegalEncoding n)
          | none => match Machine.mkInstr key f with
            | some i => .ok i
            | none => .error .illegalOpcode

/-- Dword 0 of an instruction (R46). -/
def Common.encode (c : Common) (opc : BitVec 9) : W32 :=
  BitVec.ofBool c.yld ++ c.setf ++ c.dist ++ BitVec.ofBool c.gn ++ c.gp ++ c.md ++ c.ty.code ++ opc

/-- The word of an opcode and its fields (R46). -/
def Fields.encode (opc : BitVec 9) : Fields → W96
  | .r f => 0#4 ++ f.wm ++ f.ob.encode ++ f.oa.encode ++ f.od.encode ++ f.toCommon.encode opc
  | .l f => f.imm ++ f.oa.encode ++ f.od.encode ++ f.toCommon.encode opc

/-- The word of an instruction; none for a step of another agent. -/
def Instr.encode (i : Instr) : Option W96 :=
  i.fields.map fun (key, f) => f.encode (BitVec.ofNat 9 key)

/-- The instruction that the decoder reads from a word of the opcode table: every instruction has 96 bits, and a row that is a
step of another agent has no word. -/
def decodeTableWord (_nbits w : Nat) : Option Instr :=
  match decode (BitVec.ofNat 96 w) with
  | .ok i => some i
  | .error _ => none

end Sys2Proof
end

