-- ==== Sys2Proof/Machine/Map.lean ====
section
/-! DEFINITION. Sparse maps as plain data: a list of (key, value) pairs in one canonical form, keys strictly rising and no entry
equal to what an unlisted key reads as; and the bit-field and byte-order helpers that every chapter uses (R7). -/

namespace Sys2Proof.Machine

/-- The value at a key; an unlisted key reads as `d`. -/
def mget {α : Type} (d : α) : List (Nat × α) → Nat → α
  | [], _ => d
  | (k, v) :: m, a => if a = k then v else if a < k then d else mget d m a

/-- A write at a key that keeps the canonical form: writing `d` removes the entry. -/
def mput {α : Type} [DecidableEq α] (d : α) : List (Nat × α) → Nat → α → List (Nat × α)
  | [], a, x => if x = d then [] else [(a, x)]
  | (k, v) :: m, a, x =>
    if a = k then (if x = d then m else (a, x) :: m)
    else if a < k then (if x = d then (k, v) :: m else (a, x) :: (k, v) :: m)
    else (k, v) :: mput d m a x

/-- Every key is above `lo` and the values differ from `d`; strictly rising. -/
def mwfFrom {α : Type} [DecidableEq α] (d : α) : Nat → List (Nat × α) → Bool
  | _, [] => true
  | lo, (k, v) :: m => decide (lo ≤ k) && decide (v ≠ d) && mwfFrom d (k + 1) m

/-- The canonical form. -/
def mwf {α : Type} [DecidableEq α] (d : α) (m : List (Nat × α)) : Bool := mwfFrom d 0 m

/-- The map with the entries whose key satisfies `p` removed. -/
def mdrop {α : Type} (p : Nat → Bool) (m : List (Nat × α)) : List (Nat × α) := m.filter (fun e => !p e.1)

/-- Consecutive writes from a key. -/
def mputs {α : Type} [DecidableEq α] (d : α) (m : List (Nat × α)) (a : Nat) : List α → List (Nat × α)
  | [] => m
  | x :: xs => mputs d (mput d m a x) (a + 1) xs

/-- `n` consecutive values from a key. -/
def mgets {α : Type} (d : α) (m : List (Nat × α)) (a n : Nat) : List α := (List.range n).map (fun i => mget d m (a + i))

/-- `n` consecutive values from a key, of a map whose keys below it are gone. -/
def mrunFrom {α : Type} (d : α) : List (Nat × α) → Nat → Nat → List α
  | _, _, 0 => []
  | [], a, n + 1 => d :: mrunFrom d [] (a + 1) n
  | (k, v) :: m, a, n + 1 => if k = a then v :: mrunFrom d m (a + 1) n else d :: mrunFrom d ((k, v) :: m) (a + 1) n

/-- `n` consecutive values from a key in one pass of the map. -/
def mrun {α : Type} (d : α) (m : List (Nat × α)) (a n : Nat) : List α := mrunFrom d (m.dropWhile (fun e => decide (e.1 < a))) a n

/-- A canonical map from the values at keys `a`, `a + 1`, and so on. -/
def mofList {α : Type} [DecidableEq α] (d : α) (a : Nat) : List α → List (Nat × α)
  | [] => []
  | x :: xs => if x = d then mofList d (a + 1) xs else (a, x) :: mofList d (a + 1) xs

/-- The values at keys from `a` on replaced by those of a list. -/
def mreplace {α : Type} [DecidableEq α] (d : α) (m : List (Nat × α)) (a : Nat) (l : List α) : List (Nat × α) :=
  m.takeWhile (fun e => decide (e.1 < a)) ++ mofList d a l ++ m.dropWhile (fun e => decide (e.1 < a + l.length))

/-- A list with its first element satisfying `p` replaced. -/
def updFirst {α : Type} (p : α → Bool) (f : α → α) : List α → List α
  | [] => []
  | x :: xs => if p x then f x :: xs else x :: updFirst p f xs

/-- A list with the element at index `i` replaced; beyond the end nothing changes. -/
def updAt {α : Type} (f : α → α) : Nat → List α → List α
  | _, [] => []
  | 0, x :: xs => f x :: xs
  | i + 1, x :: xs => x :: updAt f i xs

/-- The element of least measure, the first of equals. -/
def leastBy {α : Type} (m : α → Nat) : List α → Option α
  | [] => none
  | x :: xs => match leastBy m xs with
    | none => some x
    | some y => if m y < m x then some y else some x

/-- The sum of a list of naturals. -/
def sumNat : List Nat → Nat
  | [] => 0
  | x :: xs => x + sumNat xs

/-- Whether some element satisfies `p`. -/
def anyOf {α : Type} (p : α → Bool) : List α → Bool
  | [] => false
  | x :: xs => p x || anyOf p xs

/-- Bytes of a number, least significant first (R7). -/
def bytesOf : Nat → Nat → List Byte
  | 0, _ => []
  | n + 1, x => BitVec.ofNat 8 x :: bytesOf n (x / 256)

/-- The number that bytes spell, least significant first (R7). -/
def natOfBytes : List Byte → Nat
  | [] => 0
  | b :: bs => b.toNat + 256 * natOfBytes bs

/-- Bits [hi:lo] of a number (R7). -/
def bitsOf (x hi lo : Nat) : Nat := (x >>> lo) % 2 ^ (hi + 1 - lo)

/-- Bit n of a number. -/
def bitOf (x n : Nat) : Bool := Nat.testBit x n

/-- The set of indices below n whose bit is set, ascending. -/
def bitsSet (n x : Nat) : List Nat := (List.range n).filter (fun i => Nat.testBit x i)

/-- A number read as a two's-complement value of w bits. -/
def signedOf (w x : Nat) : Int :=
  let y := x % 2 ^ w
  if 2 * y < 2 ^ w then (y : Int) else (y : Int) - (2 ^ w : Nat)

/-- An integer modulo 2^w (R68). -/
def wrapTo (w : Nat) (x : Int) : Nat := (x % ((2 ^ w : Nat) : Int)).toNat

/-- Byte i of a cache line. -/
def lineByte (d : LineData) (i : Nat) : Byte := d.extractLsb' (8 * i) 8

/-- The data bits that a byte mask covers. -/
def maskBits (m : LineMask) : LineData :=
  (List.range 128).foldl (fun acc i => if m.getLsbD i then acc ||| ((0xFF#1024) <<< (8 * i)) else acc) 0

/-- A line with the bytes of a mask taken from `new`. -/
def mergeLine (old new : LineData) (m : LineMask) : LineData :=
  let b := maskBits m
  (old &&& ~~~b) ||| (new &&& b)

/-- The mask of n bytes from byte offset o of a line; bytes beyond the line are not covered. -/
def spanMask (o n : Nat) : LineMask := BitVec.ofNat 128 ((2 ^ n - 1) <<< o)

end Sys2Proof.Machine
end

