-- ==== Sys2Proof/Machine/State.lean ====
section
/-! DEFINITION. Everything the specification gives the Relquel to hold, as plain data, and the state right after reset. INVENTORY.md
lists every piece with its rule. Sparse maps are lists in the canonical form of Machine/Map.lean. -/

namespace Sys2Proof.Machine

/-- Why the model stops with a fault. -/
inductive Fault where
  /-- An instruction was executed while no visit is in progress: the specification gives an instruction a meaning only within a
  visit of the section barrel (R22). Raised by every instruction's meaning on such a state; `step` never raises it. Safe. -/
  | noVisit
  deriving DecidableEq, Repr

/-- Why the model refuses a step. -/
inductive Refusal where
  /-- The instruction has no meaning yet. Raised by refused arms of exec only. Safe. -/
  | notModelled (mnemonic : String)
  deriving DecidableEq, Repr

/-! ## Traps -/

/-- The causes of R337. -/
inductive Cause where
  | illegalOpcode | illegalEncoding | illegalType | regRange | regDeadlock | priv | badFormat
  | pageAbsent | rangeUndeclared | accessRights | attrRequest | aliasAttr | woRewrite | pvForeign | misaligned
  | sparseMeta | rowptrOrder | countResidue | indexBounds | hashFull | mergeProtocol | redSaturate
  | detTimer | detAtomic | eccUncorrectable | directoryLost | peerLinkDown | trap | brk | watchdog
  deriving DecidableEq, Repr

/-- The fields of a trap record that the event itself decides (R336, R337). KIND: 0 precise, 1 deferred, 2 block, 3 device. -/
structure Trap where
  cause : Cause
  kind  : Nat := 0
  slc   : Nat := 0
  thr   : Nat := 0
  unit  : Nat := 0
  ea    : Nat := 0
  info  : Nat := 0
  info2 : Nat := 0
  pc    : W64 := 0
  tpc   : W64 := 0
  word  : W96 := 0
  ext   : BitVec 128 := 0
  deriving DecidableEq, Repr

/-- A deferred trap not yet taken (R169): the issue order of its instruction, and the flag, tag and completed phases at which
it is taken (R258). -/
structure Deferred where
  seq    : Nat
  flag   : Nat
  tag    : Option Nat := none
  phases : List (Nat × Nat) := []
  /-- The fault of a memory instruction, which a release also takes (R169). -/
  mem    : Bool := false
  trap   : Trap
  deriving DecidableEq, Repr

/-- A trap record made and not yet written to its ring (R336, R338). -/
structure TrapRec where
  seq  : Nat
  part : Nat
  core : Nat
  bnum : Nat
  lra  : W64
  cfa  : Nat
  clk  : Nat
  bid  : Option Nat
  /-- The record has been committed to the trap log, or needs no commit. -/
  logged : Bool
  trap : Trap
  deriving DecidableEq, Repr

/-! ## Results and waiting -/

/-- One register element that an instruction writes. -/
inductive RegDest where
  | lane (r t : Nat)
  | uni (r : Nat)
  | pred (n t : Nat)
  deriving DecidableEq, Repr

/-- A write of some bit positions of a register (R53). -/
structure RegWrite where
  dest : RegDest
  mask : W32
  val  : W32
  deriving DecidableEq, Repr

/-- When a pending result is written: after so many more advances of the distance count (R23, R24), or at a release of its flag (R62). -/
inductive Due where
  | count (left : Nat)
  | flag (f : Nat)
  deriving DecidableEq, Repr

/-- A pending or held result of a slice (R23, R24, R62). `op` names the operation that delivers a held result, and `ready` says
that it has. -/
structure Pend where
  seq    : Nat
  due    : Due
  op     : Nat
  ready  : Bool
  writes : List RegWrite
  deriving DecidableEq, Repr

/-- The waiting instruction that holds a slice (R188). -/
inductive WaitKind where
  | quorum (q : Nat)
  | flags (mask : BitVec 12)
  | tagsAll (mask : W64)
  | tagsAny (mask : W64)
  | phase (cb : Nat) (ph : BitVec 16)
  | claim (n : Nat)
  | regang (addr : W64) (site : Nat) (pass : W32) (bound : W32) (any : Bool)
  | rotation (addr : W64) (site : Nat) (pass : W32)
  deriving DecidableEq, Repr

/-- A held slice's wait state (R189): the instruction word, and whether its condition has held. -/
structure Wait where
  kind : WaitKind
  word : W96
  met  : Bool
  deriving DecidableEq, Repr

/-- A REGANG issued since the issue count was last set to 0 (R197). -/
structure RgIssue where
  addr : W64
  site : Nat
  pass : W32
  c    : W32
  deriving DecidableEq, Repr

/-! ## Memory operations of threads -/

/-- Request types of R43, in code order. -/
inductive Req where
  | own | si | wt | nc
  deriving DecidableEq, Repr

/-- Frame attributes of R42, in code order. -/
inductive Attr where
  | rc | sc | wo | pv
  deriving DecidableEq, Repr

/-- The kinds of memory operation (R162, R165, R171, R174 to R184, R222, R209). -/
inductive MopKind where
  | load | store | atom | acas | red | redf | reddcl | redrd
  | ldb | stb | atomb
  | rwb | rinv | rwbi | fence | tfence | pref | harvest | ifence
  /-- The memory ordering of QSIGN and BAR, a release at .blk (R209, R210). -/
  | sign
  /-- IDIV and IREM, which complete 36 cycles after issue (R117). -/
  | divide
  deriving DecidableEq, Repr

/-- One participant's access (R158): its thread position, effective address, width, physical address, key, request type as
performed, frame attribute, extent, store data, the registers that its load delivers, each with the number of the word it takes, and the bytes of its
line that a later participant of the instruction stores. -/
structure Access where
  thr   : Nat
  ea    : Nat
  bytes : Nat
  pa    : Nat
  kid   : Nat
  req   : Req
  attr  : Attr
  data  : Nat
  data2 : Nat
  dests : List (RegDest × Nat)
  done  : Bool
  old   : Nat
  skip  : LineMask
  deriving DecidableEq, Repr

/-- A memory operation that has issued and not completed (R164, R168). `stage` counts the parts performed, `bar` is the identity
that bounds the earlier writes a release waits for, `oc` the order code with the direction bits `acq` and `rel`, and `grp` is shared by the operations of
one instruction in its served slices (R158). -/
structure Mop where
  id    : Nat
  iss   : Nat
  seq   : Nat
  pc    : W64
  word  : W96
  flag  : Nat
  kind  : MopKind
  oc    : Nat
  acq   : Bool
  rel   : Bool
  accs  : List Access
  stage : Nat
  bar   : Nat
  promo : Bool
  due   : Nat
  arg   : Nat
  grp   : Nat
  /-- An access met a fault, so that the operation writes none of its result (R169). -/
  bad   : Bool
  /-- A page of it was absent when its block was restored; it waits for the next restore (R331, R334). -/
  absent : Bool := false
  deriving DecidableEq, Repr

/-- A run of bytes that an engine command or Loom operation reads or writes, of the bench or of virtual memory, for the
interlocks of R166, R231, R255 and R256. -/
structure Span where
  mem   : Bool
  lo    : Nat
  n     : Nat
  write : Bool
  deriving DecidableEq, Repr

/-- The poison of a line in the L2 and the L3: the 64-byte units of LPDDR6 that could not be corrected, and the 64-bit words poisoned on the
die (R306). -/
structure Pois where
  unit : BitVec 2
  word : BitVec 16
  deriving DecidableEq, Repr

/-! ## Slices and blocks -/

/-- Everything a slice holds (R25, R343). Mask stack entries stand with the top first. -/
structure Slice where
  pc       : W64
  stage    : Nat
  sec      : Nat
  live     : BitVec 4
  act      : BitVec 4
  alloc    : Nat
  v        : List (Nat × W32)
  k        : List (Nat × W32)
  prd      : BitVec 28
  flg      : BitVec 48
  mstk     : List (BitVec 64)
  dcnt     : W32
  /-- The advances of the distance count since the slice's previous issue (R23); none before its first. -/
  since    : Option Nat
  issueC   : W32
  /-- Whether an instruction has issued with the issue count at its limit, 0xFFFF_FFFF (R195, R197). -/
  cFull    : Bool := false
  pass     : List (Nat × W32)
  strand   : List Nat
  firstRg  : Option RgIssue
  ycnt     : Nat
  wait     : Option Wait
  qarm     : BitVec 16
  qdone    : BitVec 16
  tsm      : W32
  item     : List (Nat × W32)
  mxp      : BitVec 3
  /-- The issue number of the MXV call whose placement `mxp` holds (R247). -/
  mxpSeq   : Nat := 0
  pend     : List Pend
  seq      : Nat
  deferred : List Deferred
  mops     : List Mop
  ended    : Bool
  /-- Poisoned lane register elements, as 4·r + t (R306; log entry 37). -/
  pois     : List Nat
  deriving DecidableEq, Repr

/-- A flag raise that a Loom operation or engine command will lower (R32, R227). -/
structure Token where
  slice : Nat
  flag  : Nat
  id    : Nat
  deriving DecidableEq, Repr

/-- The Loom instruction recorded in a quorum register's phase (R227). -/
structure LoomSign where
  slice : Nat
  seq   : Nat
  pc    : W64
  word  : W96
  desc  : List W32
  deriving DecidableEq, Repr

/-- A quorum register (R34, R208, R227). -/
structure Quorum where
  decl    : Nat
  signed  : Nat
  phase   : Bool
  sign    : Option LoomSign
  members : List Token
  deriving DecidableEq, Repr

/-- A tag's state (R33): the commands outstanding, and whether it is ready. Neither is idle. -/
structure Tag where
  pending : Nat
  ready   : Bool
  deriving DecidableEq, Repr

/-- A count barrier (R34, R213): count, expectation, posted bit, phase number. -/
structure CountBar where
  c : Nat
  e : Nat
  p : Bool
  n : BitVec 16
  deriving DecidableEq, Repr

/-- An extent (R327). -/
structure Extent where
  vb   : Nat
  npg  : Nat
  abs  : Bool
  attr : Attr
  rd   : Bool
  w    : Bool
  d    : Bool
  kid  : Nat
  ps   : Nat
  rix  : Nat
  pf   : Nat
  deriving DecidableEq, Repr

/-- The stages of a Loom operation (R347, R352, R353). -/
inductive LoomStage where
  | queued | accepted | granted | draining
  deriving DecidableEq, Repr

/-- An operation in a block's Loom order (R226): the forming slice, the instruction word, the descriptor read at issue, the
flags it lowers, the values a LOPF, an accepted LMMG or LDRX or a granted LMMS took, the lines in the operand buffer (R350), the drain
buffer content, the row a drain stands at and its rounding key's seed. -/
structure LoomOp where
  id      : Nat
  iss     : Nat
  slice   : Nat
  seq     : Nat
  pc      : W64
  word    : W96
  desc    : List W32
  members : List Token
  stage   : LoomStage
  vals    : List W32
  lines   : List (Nat × LineData × Pois)
  /-- The lines read, with their keys, and the virtual line each was entered under: each is read once (R350). -/
  entered : List ((Nat × Nat) × Nat) := []
  buf     : List (Nat × W32)
  row     : Nat
  /-- The rounding key of a drain (R81, R241). -/
  key     : W64
  spans   : List Span
  /-- The order in which the Loom accepted it, or took its restored drain; 0 before that (R348). -/
  turn    : Nat := 0
  /-- An absent page met while the block drains ended the drain of the operation (R334). -/
  absent  : Bool := false
  deriving DecidableEq, Repr

/-- Why and how a block stops (R332): the frame's STATE and, for a trap or an absent page, its record and the cycle of its event. -/
structure Stop where
  state : Nat
  trap  : Option Trap
  cycle : Nat := 0
  deriving DecidableEq, Repr

/-- Where a block stands (R18, R335). -/
inductive Loc where
  | resident (core : Nat)
  | saved
  deriving DecidableEq, Repr

/-- A resident or saved block (R25, R342). -/
structure Block where
  bid     : Nat
  gid     : Nat
  part    : Nat
  bnum    : Nat
  loc     : Loc
  lcore   : Nat
  stop    : Option Stop
  /-- A saved block may be restored: pre-empted, or its resume was accepted (R335). -/
  resume  : Bool
  trseq   : Nat
  frState : Nat
  cfa     : Nat
  nthr    : Nat
  slices  : List Slice
  reserve : Nat
  units   : Nat
  q       : List (Nat × Quorum)
  tags    : List (Nat × Tag)
  cbs     : List (Nat × CountBar)
  bench   : List Host.Cell
  bsize   : Nat
  tcount  : Nat
  held    : BitVec 8
  tiles   : List (Nat × W32)
  idx     : List (Nat × W32)
  claimQ  : List (Nat × Nat)
  loomQ   : List LoomOp
  extents : List Extent
  gangs   : List (Nat × List Nat)
  /-- The clock when a slice last issued or ended; of a saved block, the cycles counted so far (R341). -/
  wdog    : Nat
  /-- Bounds the writes whose completion a save or retirement waits for (R302); 0 before they were sent. -/
  bar     : Nat
  blkDef  : List Deferred
  /-- Poisoned 64-bit words of the bench share (R306; log entry 37). -/
  bpois   : List Nat
  /-- The pending records of a restored block in saved order, which are performed before any instruction of it issues (R248, R335). -/
  redo    : List Nat := []
  deriving DecidableEq, Repr

/-! ## Cores -/

/-- A gang or sub-gang of a slot (R19, R20). -/
structure Gang where
  bid    : Nat
  slices : List Nat
  deriving DecidableEq, Repr

/-- One gang slot: its sub-gangs in order, the sub-gang served next, and whether it was filled in this rotation (R20, R321). -/
structure Slot where
  gangs : List Gang
  cur   : Nat
  fresh : Bool
  deriving DecidableEq, Repr

/-- A section barrel (R22, R321): 16 slots, the next slot of the rotation, its cycles so far, whether this rotation has taken a
cycle, and whether a visit has been passed over. -/
structure Section where
  slots  : List Slot
  next   : Nat
  time   : Nat
  spent  : Bool
  passed : Bool
  deriving DecidableEq, Repr

/-- A work-queue entry (R203): its launch, its logical core in a deterministic launch, and the item. -/
structure WqEntry where
  gid   : Nat
  lcore : Option Nat
  item  : W32
  deriving DecidableEq, Repr

/-- The slice that stored some dirty bytes of an L1 line (R168, R287), with the key and the virtual line that it stored them under. -/
structure ByteOwner where
  bid   : Nat
  slice : Nat
  kid   : Nat
  vline : Nat
  mask  : LineMask
  /-- The store: its issue order, flag, address, word and thread position (R169). -/
  seq   : Nat := 0
  flag  : Nat := 15
  pc    : W64 := 0
  word  : W96 := 0
  thr   : Nat := 0
  deriving DecidableEq, Repr

/-- An L1 line (R285), whose tag holds no key (R396), with the bytes that were dirty at the last block-scope release (R181), the poisoned bytes
(R306) and the slices that stored its dirty bytes. -/
structure L1Line where
  line   : Nat
  o      : Bool
  valid  : BitVec 4
  dirty  : LineMask
  data   : LineData
  promo  : LineMask
  poison : LineMask
  owners : List ByteOwner
  deriving DecidableEq, Repr

/-- An instruction cache line (R283), with the 32-byte flits of its fill that were lost (R385). -/
structure ILine where
  line : Nat
  kid  : Nat
  data : LineData
  lost : BitVec 4 := 0
  deriving DecidableEq, Repr

/-- A fetch translation (R328). -/
structure ITrans where
  part : Nat
  page : Nat
  pf   : Nat
  kid  : Nat
  deriving DecidableEq, Repr

/-- A line pinned by a core's tile fetch unit for an operation, and the virtual lines that reach it, the one it was first met at before the others (R231,
R350). -/
structure Pin where
  op     : Nat
  line   : Nat
  kid    : Nat
  vlines : List Nat
  deriving DecidableEq, Repr

/-- What a core holds beside its blocks. -/
structure Core where
  holder : Option Nat
  secs   : List Section
  wq     : List (List WqEntry)
  mxvbat : W32
  mxvres : W32
  mxvq   : W32
  steal  : W32
  l1     : List L1Line
  icache : List ILine
  itlb   : List ITrans
  /-- The places reserved in the queues, as grid and logical core (R206). -/
  wqres  : List (Nat × Nat)
  /-- Lines pinned by the tile fetch unit (R231, R350). -/
  pins   : List Pin
  /-- Where the Dray's rotation stands (R363): the issue order of the command it served last. -/
  drayLast : Nat := 0
  /-- The partition that the core is taken for, until its blocks are saved and it is given (R316). -/
  promised : Option Nat := none
  deriving DecidableEq, Repr

/-! ## The device memory system -/

/-- A line held in an L2 slice (R288): its key (R395), data, dirty bytes, leave to write, and poison (R306). -/
structure L2Line where
  sl     : Nat
  line   : Nat
  kid    : Nat
  data   : LineData
  dirty  : LineMask
  wr     : Bool
  poison : Pois
  deriving DecidableEq, Repr

/-- A line held in the L3 (R293). -/
structure L3Line where
  line   : Nat
  kid    : Nat
  data   : LineData
  dirty  : Bool
  poison : Pois
  deriving DecidableEq, Repr

/-- The slice whose write or addend is under way, for deferred traps (R169): its block, slice, instruction order, flag, address
and word, thread position, and the virtual line of a write's bytes or the ea of an addend's slot. -/
structure Source where
  core  : Nat
  bid   : Nat
  slice : Nat
  seq   : Nat
  op    : Nat
  flag  : Nat
  tag   : Option Nat
  pc    : W64
  word  : W96
  thr   : Nat
  unit  : Nat
  vline : Nat
  deriving DecidableEq, Repr

/-- A write of one line on its way to an L2 slice, or acknowledged there and not yet performed at .dev (R288). -/
structure MWrite where
  id     : Nat
  sl     : Nat
  line   : Nat
  kid    : Nat
  mask   : LineMask
  data   : LineData
  poison : LineMask
  wo     : Bool
  src    : Source
  /-- The thread, ea and bytes of each participant's part, for the record of a rewrite (R293). -/
  thrs   : List (Nat × Nat × LineMask)
  /-- A write-back of a frame that is SC by now, performed at the L3 home (R304). -/
  home   : Bool := false
  deriving DecidableEq, Repr

/-- A directory entry (R390). `used` orders entries for the least recently used way (R394). -/
structure DirEntry where
  rb   : Nat
  kid  : Nat
  sz   : Nat
  qt   : Nat
  dm   : BitVec 32
  sm   : BitVec 32
  used : Nat
  deriving DecidableEq, Repr

/-- A fill or leave-to-write request at or on its way to its directory home (R391), and the slices whose acknowledgement it
awaits. -/
structure DirReq where
  id    : Nat
  sl    : Nat
  line  : Nat
  kid   : Nat
  write : Bool
  acks  : List Nat
  /-- The region that the request holds: base line and SZ. -/
  rb    : Nat
  sz    : Nat
  /-- The action is the eviction of a directory way (R394). -/
  evict : Bool
  /-- The victim of that eviction: base line, SZ and key. -/
  vict  : Option (Nat × Nat × Nat) := none
  /-- The home has begun to serve the request, which holds its region until it is granted (R391). -/
  begun : Bool := false
  deriving DecidableEq, Repr

/-- A recall or invalidation on its way to an L2 slice, or its acknowledgement on the way back (R391, R392). -/
structure DirMsg where
  req   : Nat
  sl    : Nat
  rb    : Nat
  sz    : Nat
  kid   : Nat
  inval : Bool
  /-- The slice held a line of the region. -/
  held  : Bool
  deriving DecidableEq, Repr

/-- A directory entry lost and being recovered (R397). -/
structure DirLost where
  id    : Nat
  rb    : Nat
  kid   : Nat
  acks  : List Nat
  dirty : Nat
  whole : Bool
  home  : Nat
  set   : Nat
  deriving DecidableEq, Repr

/-- An atomic at its home slice (R365): the operation and participant it belongs to. -/
structure AtomReq where
  id    : Nat
  sl    : Nat
  bid   : Nat
  slice : Nat
  op    : Nat
  part  : Nat
  line  : Nat
  kid   : Nat
  deriving DecidableEq, Repr

/-- A reduction addend on its way to its L2 unit (R366). -/
structure Addend where
  id   : Nat
  sl   : Nat
  pa   : Nat
  kid  : Nat
  val  : W32
  src  : Source
  deriving DecidableEq, Repr

/-- A partial element (R366): Q, whether a NaN was met, the overflow sign, the addends folded and the slice charged. -/
structure PartEl where
  q      : Int
  nan    : Bool
  x      : Int
  count  : Nat
  charge : Source
  deriving DecidableEq, Repr

/-- A slot line's partials at an L2 unit or on their way to the L3 unit, and when an addend was last folded (R366). -/
structure PartLine where
  id   : Nat
  sl   : Nat
  line : Nat
  kid  : Nat
  els  : List (Nat × PartEl)
  last : Nat
  /-- The payload was poisoned on its way (R385). -/
  bad  : Bool := false
  deriving DecidableEq, Repr

/-! ## Engines -/

/-- The engine that a command belongs to. -/
inductive Eng where
  | dray (core : Nat)
  | surveyor (u : Nat)
  | crier (u : Nat)
  deriving DecidableEq, Repr

/-- The progress of an engine command. -/
inductive CmdStage where
  | queued | active | finished
  deriving DecidableEq, Repr

/-- An engine command (R252, R254): its descriptor, tag, count barrier and flag, the units performed, the bytes of a long row
already written, the fault it met and the phases its arrivals completed. -/
structure EngCmd where
  id     : Nat
  iss    : Nat
  eng    : Eng
  bid    : Nat
  slice  : Nat
  seq    : Nat
  pc     : W64
  word   : W96
  desc   : List W32
  tag    : Option Nat
  cb     : Option Nat
  tok    : Token
  stage  : CmdStage
  units  : Nat
  part   : Nat
  fault  : Option Trap
  phases : List (Nat × Nat)
  spans  : List Span
  /-- Bounds the earlier writes that a Surveyor or Crier command waits for (R255); 0 before it asked for them. -/
  bar    : Nat
  arg    : Nat
  /-- SVNBR: the output set and the map are complete; SVCLR, SVVOX, SVDWN: the table has changed. -/
  mark   : Bool
  /-- An absent page met while the block drains ended the drain of the command (R334). -/
  absent : Bool := false
  /-- What a unit keeps of what it read: the index words of a Dray unit that is cut (R261, R363), the bytes of SVNBR's map (R271). -/
  memo   : List Nat := []
  /-- The counts of a DSCA's chunks whose adds are not all performed, each with the unit behind the last it completed (R364). -/
  due    : List (Nat × Nat) := []
  deriving DecidableEq, Repr

/-- A segment of an MXV call (R354, R357): rows, next K position, the private accumulator, and on the Mill the rows whose blocks of the window have
been added, `taken`, and the block values of the next row that its owner has computed or been sent. With .acc the prior of an element is read just before its result is written (R246): `blks` holds the
block values until then, and `primed` says that the accumulator already holds the priors, as that of a segment stopped between pieces does (log entry 65). `turn`
is the order in which the Loom accepted the segment, 0 where it holds no place (R348). -/
structure MxvSeg where
  first  : Nat
  last   : Nat
  kpos   : Nat
  acc    : List (Nat × W32)
  mill   : Bool
  fwd    : List ((Nat × Nat) × List W32)
  blks   : List (List W32) := []
  primed : Bool := false
  turn   : Nat := 0
  taken  : Nat := 0
  deriving DecidableEq, Repr

/-- An MXV call in progress (R243, R354, R360): `regs` holds the dispatcher registers at its issue, and `stage` is 0 at issue, 1 once the
writes it waits for are sent, 2 once they are performed and 3 once it is placed. -/
structure MxvCall where
  id     : Nat
  iss    : Nat
  bid    : Nat
  slice  : Nat
  seq    : Nat
  pc     : W64
  word   : W96
  desc   : List W32
  tok    : Token
  bar    : Nat
  regs   : List W32
  stage  : Nat
  mill   : Bool
  rows   : Nat
  seg    : Option MxvSeg
  fault  : Option Trap
  spans  : List Span
  /-- The activation window in the Mill buffers: its first block of K and the bytes of its runs (R357). -/
  xwin   : Option (Nat × List (List Byte)) := none
  /-- An absent page met while the block drains ended the drain of the call (R334). -/
  absent : Bool := false
  deriving DecidableEq, Repr

/-- An entry of a table's map cache (R271, R374). -/
structure MapEnt where
  g    : Nat
  kid  : Nat
  str  : Nat
  dil  : Nat
  csr  : Bool
  mb   : W64
  len  : Nat
  used : Nat
  deriving DecidableEq, Repr

/-- A hash entry: voxel record and index (R371). -/
structure HashEnt where
  key : W64
  idx : Nat
  deriving DecidableEq, Repr

/-- A Surveyor table (R263, R371). -/
structure Table where
  part    : Nat
  tid     : Nat
  blocks  : List Nat
  ents    : List (Nat × HashEnt)
  voxels  : List W64
  g       : Nat
  vab     : W64
  vmax    : Nat
  srb     : W64
  dropped : Nat
  cache   : List MapEnt
  /-- The block and grid that added the last voxel (R282). -/
  adder   : Option (Nat × Nat)
  deriving DecidableEq, Repr

/-- A subscription (R275 to R280, R378, R379). `ring` lists the slots delivered and not freed: slot, position, taken. -/
structure Sub where
  id       : Nat
  bid      : Nat
  part     : Nat
  subi     : Nat
  sid      : Nat
  cmd      : Nat
  slice    : Nat
  pc       : W64
  word     : W96
  qr       : Nat
  nslot    : Nat
  rbase    : Nat
  nl       : Nat
  lb       : W64
  accepted : Bool
  ended    : Bool
  /-- Takes part in the pass in progress; a subscription accepted while none is in progress takes part in the next. -/
  inPass   : Bool
  pages    : List Nat
  /-- Positions delivered, in delivery order. -/
  deliv    : List Nat
  nextSlot : Nat
  ring     : List (Nat × Nat × Bool)
  /-- Positions returned by ATNEXT. -/
  taken    : List Nat
  posted   : List (Nat × List W32)
  everPost : List Nat
  merged   : Nat
  acc      : List W32
  /-- Granules of the merge buffer reserved. -/
  gran     : Nat
  /-- Every position's slot was reserved at acceptance (R379). -/
  allRes   : Bool
  /-- ATUNS has freed its SUBI; the record stands only for an earlier ATMRG that has still to write (R280). -/
  gone     : Bool := false
  /-- Its acceptance has waited for the end of a pass of its stream (R379). -/
  waited   : Bool := false
  deriving DecidableEq, Repr

/-- A stream of a Crier unit (R273, R274). -/
structure Stream where
  part  : Nat
  sid   : Nat
  np    : Nat
  pb    : W64
  pstr  : Nat
  dkm   : Nat
  e4m3  : Bool
  nsb   : Nat
  made  : Nat
  ended : Nat
  /-- The pass in progress: the next page number it may fetch. -/
  pass  : Option Nat
  /-- The page fetched and the subscriptions it is still to be delivered to. -/
  fetch : Option (Nat × List Byte × List Nat)
  deriving DecidableEq, Repr

/-- A Crier unit (R376, R378): its streams, its subscriptions in arrival order, the granules in use, and the last stream served. -/
structure Crier where
  streams : List Stream
  subs    : List Sub
  used    : Nat
  last    : Nat
  /-- Where the rotation of the merge engine stands (R381): the subscription it folded last. -/
  merge   : Nat := 0
  deriving DecidableEq, Repr

/-! ## The Foreman -/

/-- One stage of a launch record (R308). -/
structure StageRec where
  a   : Nat
  slc : Nat
  ent : Nat
  deriving DecidableEq, Repr

/-- A declared range (R309). -/
structure RangeRec where
  vb   : Nat
  len  : Nat
  rd   : Bool
  w    : Bool
  attr : Attr
  deriving DecidableEq, Repr

/-- A launch record that passed its checks (R307). -/
structure Launch where
  lra    : W64
  kaddr  : W64
  gx : Nat
  gy : Nat
  gz : Nat
  bx : Nat
  byDim : Nat
  bz : Nat
  stages : List StageRec
  tc     : Nat
  det    : Bool
  bench  : Nat
  rsv    : Nat
  lc     : Nat
  part   : Nat
  pri    : Nat
  seed   : W64
  rta    : W64
  dca    : W64
  sla    : W64
  sln    : Nat
  rnc    : Nat
  tlk    : W64
  ranges : List RangeRec
  deriving DecidableEq, Repr

/-- The TLAUNCH candidate of a grid (R40): block number, thread number, and record address. -/
structure TlCand where
  bnum : Nat
  thr  : Nat
  lra  : W64
  deriving DecidableEq, Repr

/-- A grid in a ready queue or running (R313, R314): `chain` holds the successor lists of the chain's earlier grids, last first. -/
structure Grid where
  gid     : Nat
  rq      : Nat
  /-- The queue it was posted to, and its entry's address (R310). -/
  queue   : Nat
  qea     : Nat
  irq     : Bool
  priv    : Bool
  lr      : Launch
  chain   : List (W64 × Nat)
  chn     : Nat
  disc    : Nat
  nextB   : Nat
  retired : Nat
  lastCore : Option Nat
  cand    : Option TlCand
  started : Bool
  hosts   : List Nat
  /-- The next block of each logical core (R318). -/
  nextL   : List Nat
  /-- Ends with ST 3: a block trap at retirement or an END (R332, R339). -/
  failed  : Bool
  /-- Ended by END or a partition reset: its blocks stop and no other begins (R339, R403). -/
  ended   : Bool
  deriving DecidableEq, Repr

/-- A launch parked on its task record (R312). -/
structure Parked where
  dca  : W64
  part : Nat
  grid : Grid
  deriving DecidableEq, Repr

/-- A reserved context frame (R333). -/
structure Frame where
  bid  : Nat
  part : Nat
  base : Nat
  len  : Nat
  deriving DecidableEq, Repr

/-- A partition's entry in the partition table (R316, R323, R333). -/
structure Part where
  root  : Nat
  ctx   : Nat
  len   : Nat
  guar  : Nat
  limit : Nat
  /-- The context key identifier (R333), which the specification lets nothing set (log entry 98). -/
  ckid  : Nat := 0
  deriving DecidableEq, Repr

/-! ## The host side -/

/-- A ring's registers (R402, R403). -/
structure Ring where
  base : Nat
  size : Nat
  head : Nat
  tail : Nat
  vec  : Nat
  err  : Nat
  deriving DecidableEq, Repr

/-- A partition page (R402, R407). -/
structure PartPage where
  queues  : List Ring
  trap    : Ring
  vapb    : Nat
  aperr   : Nat
  nonce   : List Byte
  repaddr : Nat
  atst    : Nat
  deriving DecidableEq, Repr

/-- A peer window (R404). -/
structure Window where
  opened : Bool
  link   : Nat
  base   : Nat
  len    : Nat
  down   : Bool
  deriving DecidableEq, Repr

/-- The rates at which the host port trains (R398). -/
inductive PortRate where
  | gen6 | gen5 | gen4
  deriving DecidableEq, Repr

/-- The host-visible registers (R399 to R409). -/
structure HostRegs where
  fwst    : Nat
  fwrsn   : Nat
  fwch    : Nat
  fwlen   : Nat
  image   : List Host.Cell
  step    : Nat
  stepcap : Nat
  thcrit  : Bool
  temp    : Int
  pwr     : Nat
  thev    : Nat
  cecc    : Nat
  lrty    : Nat
  dcor    : Nat
  hwbase  : Nat
  apbase  : Nat
  links   : List Nat
  /-- The reference time at the last step change, and since when the next faster step has been allowed (R408). -/
  stepAt  : Nat
  coolAt  : Option Nat
  /-- The reference time and the core clock at the last step change (R6, R35). -/
  refBase : Nat := 0
  refClk  : Nat := 0
  /-- The rate and width that the host port trained at (R398). -/
  port    : PortRate := .gen6
  narrow  : Bool := false
  pwrfail : Bool
  powered : Bool
  pages   : List PartPage
  ring    : Ring
  pfTrap  : Ring
  /-- MSI-X interrupts raised: function (0 the PF, n+1 partition n) and vector, the newest first (R398). -/
  msix    : List (Nat × Nat)
  /-- Launches posted by the physical function: queue and entry index (R310). -/
  pfPosts : List (Nat × Nat)
  /-- Task-record underflows reported (R312). -/
  underfl : Nat
  /-- The digest of the image that passed the checks (R406, R407). -/
  digest  : List Byte
  /-- The blocks that a pre-emption command under way waits for (R403). -/
  saving  : Option (List Nat)
  /-- What the last read by the host through a BAR2 or by a peer was answered (R399, R404; log entry 49). -/
  answer  : List Byte
  /-- The peers' requests that wait while their key is under retirement: address, key identifier, length, request and data (R396). -/
  waiting : List (Nat × Nat × Nat × PeerReq × Nat) := []
  deriving DecidableEq, Repr

/-- The visit in progress (R22): its core, section, slot, block and served slices in ascending order. -/
structure Visit where
  core   : Nat
  sec    : Nat
  slot   : Nat
  bid    : Nat
  slices : List Nat
  deriving DecidableEq, Repr

/-! ## The device -/

/-- The whole device. -/
structure State where
  cores   : List Core
  blocks  : List Block
  grids   : List Grid
  ready   : List (List Nat)
  parked  : List Parked
  parts   : List Part
  frames  : List Frame
  wdogLim : W32
  seqNo   : Nat
  recs    : List TrapRec
  /-- The trap log: the byte at 128 · slot + offset (R409). -/
  mram    : List Host.Cell
  mem     : List Host.Cell
  memKey  : List (Nat × Nat)
  poison  : List Nat
  l3      : List L3Line
  l2      : List L2Line
  wo      : List (Nat × LineMask)
  netw    : List MWrite
  l2w     : List MWrite
  dir     : List DirEntry
  dirQ    : List DirReq
  recQ    : List DirMsg
  ackQ    : List DirMsg
  lost    : List DirLost
  atomQ   : List AtomReq
  addQ    : List Addend
  partials : List PartLine
  partQ   : List PartLine
  pv      : List (Nat × Nat × Nat)
  walkCache : List (Nat × W64)
  /-- LPDDR6 carries check symbols (R4, R306). -/
  checks  : Bool
  fatb    : Nat
  fn      : Nat
  keys    : List (Nat × List Byte)
  /-- The key identifier whose retirement is under way (R396). -/
  retiring : Option Nat := none
  /-- The shoot-down under way: its first page, its pages and its PART and ALLP (R330). -/
  shooting : Option (Nat × Nat × Nat) := none
  /-- The payload of the next response to a read is lost on the fabric (R385). -/
  lostRead : Bool := false
  windows : List Window
  cmds    : List EngCmd
  mxvs    : List MxvCall
  tables  : List (List Table)
  criers  : List Crier
  host    : HostRegs
  /-- The core clock in cycles: the time of the device, from which %clock follows (R6, R35; log entry 11). -/
  clock   : Nat
  /-- The steps other agents take next (log entry 1). -/
  agenda  : List Instr
  visit   : Option Visit
  /-- Counter of free values (log entry 6). -/
  free    : Nat
  /-- Issue order of the device and the next identity. -/
  iss     : Nat
  nextId  : Nat
  /-- Dirty states dropped since the last shoot-down completed (R329, R330). -/
  dlost   : Nat
  deriving DecidableEq, Repr

/-! ## Blank values, which total accessors answer where nothing stands -/

/-- A slice with nothing in it. -/
def Slice.blank : Slice :=
  { pc := 0, stage := 0, sec := 0, live := 0, act := 0, alloc := 1, v := [], k := [], prd := 0, flg := 0, mstk := [], dcnt := 0,
    since := none, issueC := 0, pass := [], strand := [], firstRg := none, ycnt := 0, wait := none, qarm := 0, qdone := 0, tsm := 0,
    item := [], mxp := 0, pend := [], seq := 0, deferred := [], mops := [], ended := false, pois := [] }

/-- A block with nothing in it. -/
def Block.blank : Block :=
  { bid := 0, gid := 0, part := 0, bnum := 0, loc := .saved, lcore := 0, stop := none, resume := false, trseq := 0, frState := 0,
    cfa := 0, nthr := 0, slices := [], reserve := 0, units := 0, q := [], tags := [], cbs := [], bench := [], bsize := 0, tcount := 0,
    held := 0, tiles := [], idx := [], claimQ := [], loomQ := [], extents := [], gangs := [], wdog := 0, bar := 0, blkDef := [],
    bpois := [] }

/-- A launch of one thread with nothing declared. -/
def Launch.blank : Launch :=
  { lra := 0, kaddr := 0, gx := 1, gy := 1, gz := 1, bx := 1, byDim := 1, bz := 1, stages := [⟨1, 1, 0⟩], tc := 0, det := false,
    bench := 0, rsv := 0, lc := 0, part := 0, pri := 0, seed := 0, rta := 0, dca := 0, sla := 0, sln := 0, rnc := 0, tlk := 0,
    ranges := [] }

/-- A grid of a blank launch. -/
def Grid.blank : Grid :=
  { gid := 0, rq := 0, queue := 0, qea := 0, irq := false, priv := false, lr := Launch.blank, chain := [], chn := 1,
    disc := 0, nextB := 0, retired := 0, lastCore := none, cand := none, started := false, hosts := [], nextL := [], failed := false, ended := false }

/-! ## Reset -/

def Slot.empty : Slot := { gangs := [], cur := 0, fresh := false }
def Section.empty : Section := { slots := List.replicate 16 Slot.empty, next := 0, time := 0, spent := false, passed := false }

/-- A core at reset: every queue and cache empty (R203, R285) and the registers of R221. -/
def Core.reset : Core :=
  { holder := none, secs := List.replicate 8 Section.empty, wq := [[], [], [], []], mxvbat := 0x00000004, mxvres := 0x00000002,
    mxvq := 0x00000018, steal := 0x0000000F, l1 := [], icache := [], itlb := [], wqres := [], pins := [] }

def Ring.reset : Ring := { base := 0, size := 0, head := 0, tail := 0, vec := 0, err := 0 }
def PartPage.reset : PartPage :=
  { queues := List.replicate 4 Ring.reset, trap := Ring.reset, vapb := 0, aperr := 0, nonce := List.replicate 32 0, repaddr := 0, atst := 0 }
def Window.closed : Window := { opened := false, link := 0, base := 0, len := 0, down := false }

/-- The host registers at reset (R400, R402, R403). -/
def HostRegs.reset : HostRegs :=
  { fwst := 1, fwrsn := 0, fwch := 0, fwlen := 0, image := [], step := 0, stepcap := 0, thcrit := false, temp := 0, pwr := 0,
    thev := 0, cecc := 0, lrty := 0, dcor := 0, hwbase := 0, apbase := 0, links := [0, 0, 0, 0], stepAt := 0, coolAt := none,
    pwrfail := false, powered := true, pages := List.replicate 16 PartPage.reset, ring := Ring.reset, pfTrap := Ring.reset,
    msix := [], pfPosts := [], underfl := 0, digest := List.replicate 64 0, saving := none, answer := [] }

/-- The device right after reset: every field at the value the specification states, and the values of log entries 4 and 5
where it states none. -/
def State.reset : State :=
  { cores := List.replicate 32 Core.reset, blocks := [], grids := [], ready := List.replicate 64 [], parked := [],
    parts := List.replicate 16 { root := 0, ctx := 0, len := 0, guar := 0, limit := 0 }, frames := [], wdogLim := 0x000F4240,
    seqNo := 1, recs := [], mram := [], mem := [], memKey := [], poison := [], l3 := [], l2 := [], wo := [], netw := [], l2w := [],
    dir := [], dirQ := [], recQ := [], ackQ := [], lost := [], atomQ := [], addQ := [], partials := [], partQ := [], pv := [],
    walkCache := [], checks := true, fatb := 0, fn := 0, keys := [], windows := List.replicate 16 Window.closed, cmds := [], mxvs := [],
    tables := [[], [], [], []], criers := List.replicate 4 { streams := [], subs := [], used := 0, last := 0 },
    host := HostRegs.reset, clock := 0, agenda := [], visit := none, free := 0, iss := 0, nextId := 0,
    dlost := 0 }

end Sys2Proof.Machine
end

