-- ==== Sys2Proof/Machine/Ops.lean ====
section
/-! DEFINITION. The named operations over the state: blocks, slices and registers, completion flags, pending and held results, taking a
trap and returning from one (R23, R27, R32, R61 to R63, R332, R336 to R340). -/

namespace Sys2Proof.Machine

/-! ## Accessors -/

/-- The block of an identity; a blank one where there is none. -/
def State.blk (s : State) (bid : Nat) : Block := (s.blocks.find? (fun b => b.bid == bid)).getD Block.blank

/-- The state with a block changed. -/
def State.modBlk (s : State) (bid : Nat) (f : Block → Block) : State :=
  { s with blocks := updFirst (fun b => b.bid == bid) f s.blocks }

/-- The slice of a number; a blank one where there is none. -/
def Block.sl (b : Block) (i : Nat) : Slice := (b.slices[i]?).getD Slice.blank

/-- The block with a slice changed. -/
def Block.modSl (b : Block) (i : Nat) (f : Slice → Slice) : Block := { b with slices := updAt f i b.slices }

def State.sl (s : State) (bid i : Nat) : Slice := (s.blk bid).sl i
def State.modSl (s : State) (bid i : Nat) (f : Slice → Slice) : State := s.modBlk bid (fun b => b.modSl i f)

/-- The grid of an identity; a blank one where there is none. -/
def State.grid (s : State) (gid : Nat) : Grid := (s.grids.find? (fun g => g.gid == gid)).getD Grid.blank
def State.modGrid (s : State) (gid : Nat) (f : Grid → Grid) : State :=
  { s with grids := updFirst (fun g => g.gid == gid) f s.grids }

/-- The core of a number. -/
def State.core (s : State) (c : Nat) : Core := (s.cores[c]?).getD Core.reset
def State.modCore (s : State) (c : Nat) (f : Core → Core) : State := { s with cores := updAt f c s.cores }

/-- The launch record of a block. -/
def State.launch (s : State) (bid : Nat) : Launch := (s.grid (s.blk bid).gid).lr

/-- Whether a block's launch is deterministic (R346). -/
def State.det (s : State) (bid : Nat) : Bool := (s.launch bid).det

/-- The core a block is resident on; 32 for a saved block. -/
def Block.core (b : Block) : Nat :=
  match b.loc with
  | .resident c => c
  | .saved => 32

/-- The compute die of a core (R35). -/
def dieOf (core : Nat) : Nat := core / 16

/-- Changes every listed slice of a block, in the order listed. -/
def State.forSlices (s : State) (bid : Nat) (l : List Nat) (f : Nat → Slice → Slice) : State :=
  l.foldl (fun s i => s.modSl bid i (f i)) s

/-- The positions of a 4-bit mask, ascending. -/
def posOf (m : BitVec 4) : List Nat := bitsSet 4 m.toNat

/-! ## Registers -/

/-- Lane register r of position t (R25). -/
def Slice.lane (sl : Slice) (r t : Nat) : W32 := mget 0 sl.v (4 * r + t)
/-- Uniform register r. -/
def Slice.uni (sl : Slice) (r : Nat) : W32 := mget 0 sl.k r
/-- Predicate n of position t; p7 reads true always (R25). -/
def Slice.pred (sl : Slice) (n t : Nat) : Bool := if n = 7 then true else sl.prd.getLsbD (7 * t + n)

/-- The bits of a word that a write leaves and sets (R53). -/
def maskMerge (old new mask : W32) : W32 := (old &&& ~~~mask) ||| (new &&& mask)

/-- One register element written. A lane register outside the allocation keeps nothing (R62), and a write to p7 has no effect
(R25). -/
def Slice.write (sl : Slice) (w : RegWrite) : Slice :=
  match w.dest with
  | .lane r t =>
    if r < 8 * sl.alloc then
      { sl with v := mput 0 sl.v (4 * r + t) (maskMerge (sl.lane r t) w.val w.mask)
                pois := if w.mask = 0xFFFFFFFF then sl.pois.filter (fun k => k != 4 * r + t) else sl.pois }
    else sl
  | .uni r => { sl with k := mput 0 sl.k r (maskMerge (sl.uni r) w.val w.mask) }
  | .pred n t =>
    if n = 7 ∨ w.mask.getLsbD 0 = false then sl
    else
      let bit : BitVec 28 := (1#28) <<< (7 * t + n)
      { sl with prd := if w.val.getLsbD 0 then sl.prd ||| bit else sl.prd &&& ~~~bit }

/-- A pending result with the positions that a later write has covered removed (R23, R62). -/
def Pend.without (p : Pend) (seq : Nat) (w : RegWrite) : Pend :=
  if p.seq < seq then
    { p with writes := (p.writes.map (fun x => if x.dest = w.dest then { x with mask := x.mask &&& ~~~w.mask } else x)) }
  else p

/-- A write of the instruction of order `seq`: the element ends with the later write in program order (R23, R62). -/
def Slice.writeSeq (sl : Slice) (seq : Nat) (w : RegWrite) : Slice :=
  let sl := sl.write w
  { sl with pend := sl.pend.map (fun p => p.without seq w) }

/-- All the writes of one instruction. -/
def Slice.writeAll (sl : Slice) (seq : Nat) (ws : List RegWrite) : Slice := ws.foldl (fun sl w => sl.writeSeq seq w) sl

/-- Writes the pending results that satisfy `p`, in program order, and forgets them. -/
def Slice.release (sl : Slice) (p : Pend → Bool) : Slice :=
  (sl.pend.filter p).foldl (fun sl x => sl.writeAll x.seq x.writes) { sl with pend := sl.pend.filter (fun x => !p x) }

/-- Pending results in program order: a new one goes last. -/
def Slice.addPend (sl : Slice) (p : Pend) : Slice := { sl with pend := sl.pend ++ [p] }

/-- Whether a pending result is a held class-V result (R62). -/
def Pend.held (p : Pend) : Bool := match p.due with
  | .flag _ => true
  | .count _ => false

/-- Whether a pending result needs no further advance (R23). -/
def Pend.visible (p : Pend) : Bool := match p.due with
  | .flag _ => false
  | .count left => decide (left = 0)

/-- A pending result one advance on (R23). -/
def Pend.nearer (p : Pend) : Pend := match p.due with
  | .flag _ => p
  | .count left => { p with due := .count (left - 1) }

/-- Whether a held result is released by a wait on the flags of a mask (R62). -/
def Pend.named (p : Pend) (m : BitVec 12) : Bool := match p.due with
  | .flag f => m.getLsbD f
  | .count _ => false

/-! ## Completion flags (R32, R61) -/

/-- The value of flag f, 0 to 15. -/
def Slice.flag (sl : Slice) (f : Nat) : Nat := (sl.flg.extractLsb' (4 * f) 4).toNat

/-- A flag set to a value. -/
def Slice.setFlag (sl : Slice) (f n : Nat) : Slice :=
  let m : BitVec 48 := (0xF#48) <<< (4 * f)
  { sl with flg := (sl.flg &&& ~~~m) ||| ((BitVec.ofNat 48 n <<< (4 * f)) &&& m) }

/-- A flag raised by one; 15 names no flag (R61). -/
def Slice.raise (sl : Slice) (f : Nat) : Slice := if f < 12 then sl.setFlag f (min 15 (sl.flag f + 1)) else sl

/-- Whether every flag of a mask reads zero. -/
def Slice.flagsZero (sl : Slice) (m : BitVec 12) : Bool := (bitsSet 12 m.toNat).all (fun f => sl.flag f == 0)

/-! ## Waiting (R188) -/

/-- The tag of a number; idle where nothing is recorded (R33). -/
def Block.tag (b : Block) (n : Nat) : Tag := mget ⟨0, false⟩ b.tags n
/-- The count barrier of a number (R213). -/
def Block.cb (b : Block) (n : Nat) : CountBar := mget ⟨0, 0, false, 0⟩ b.cbs n
/-- The quorum register of a number; undeclared where nothing is recorded (R208). -/
def Block.quorum (b : Block) (n : Nat) : Quorum := mget ⟨0, 0, false, none, []⟩ b.q n
def Block.setTag (b : Block) (n : Nat) (t : Tag) : Block := { b with tags := mput ⟨0, false⟩ b.tags n t }
def Block.setCb (b : Block) (n : Nat) (c : CountBar) : Block := { b with cbs := mput ⟨0, 0, false, 0⟩ b.cbs n c }
def Block.setQuorum (b : Block) (n : Nat) (q : Quorum) : Block := { b with q := mput ⟨0, 0, false, none, []⟩ b.q n q }

/-- Whether no tag of a mask is pending (R212). -/
def Block.tagsDone (b : Block) (m : W64) : Bool := (bitsSet 64 m.toNat).all (fun n => (b.tag n).pending == 0)
/-- Whether some tag of a mask is ready. -/
def Block.tagsReady (b : Block) (m : W64) : Bool := (bitsSet 64 m.toNat).any (fun n => (b.tag n).ready)
/-- The ready bits of the tags (R35 %tagmap). -/
def Block.tagmap (b : Block) : W64 :=
  BitVec.ofNat 64 (sumNat ((List.range 64).map (fun n => if (b.tag n).ready then 2 ^ n else 0)))

/-- Whether phase `ph` of a count barrier has completed (R214). -/
def phaseDone (n ph : BitVec 16) : Bool := decide ((n - ph - 1).toNat < 2 ^ 15)

/-- Whether a waiting instruction's condition holds (R209 to R214). -/
def waitHolds (b : Block) (sl : Slice) : WaitKind → Bool
  | .quorum q => sl.qdone.getLsbD q
  | .flags m => sl.flagsZero m
  | .tagsAll m => b.tagsDone m
  | .tagsAny m => b.tagsReady m || b.tagsDone m
  | .phase cb ph => phaseDone (b.cb cb).n ph
  | .claim _ => false
  | .regang _ _ _ _ _ => false
  | .rotation _ _ _ => false

/-- A held slice whose condition holds is marked, and is released at its next own turn (R188). -/
def Block.latch (b : Block) : Block :=
  { b with slices := b.slices.map (fun sl => match sl.wait with
      | some w => if waitHolds b sl w.kind then { sl with wait := some { w with met := true } } else sl
      | none => sl) }

/-- A flag lowered by one, at the completion of an operation raised against it (R32, R61). -/
def State.lower (s : State) (bid i f : Nat) : State :=
  if f < 12 then s.modBlk bid (fun b => (b.modSl i (fun sl => sl.setFlag f (sl.flag f - 1))).latch) else s

/-- A command added to a tag, which leaves the ready state (R33). -/
def Block.tagAdd (b : Block) (n : Nat) : Block := b.setTag n ⟨(b.tag n).pending + 1, false⟩

/-- A command of a tag completed; the tag is ready when none is outstanding (R33). -/
def Block.tagDone (b : Block) (n : Nat) : Block :=
  let t := b.tag n
  (b.setTag n ⟨t.pending - 1, decide (t.pending ≤ 1)⟩).latch

/-! ## Held results delivered -/

/-- An operation delivers its held result: the values, in the order of the destinations, become known (R62). -/
def Slice.deliver (sl : Slice) (op : Nat) (vals : List (RegDest × W32)) : Slice :=
  { sl with pend := sl.pend.map (fun p =>
      if p.op == op && Pend.held p then
        { p with ready := true, writes := p.writes.filterMap (fun w =>
            (vals.find? (fun x => decide (x.1 = w.dest))).map (fun x => { w with val := x.2 })) }
      else p) }

/-- An operation that met a fault writes none of its result (R169). -/
def Slice.deliverNone (sl : Slice) (op : Nat) : Slice :=
  { sl with pend := sl.pend.filter (fun p => !(p.op == op && Pend.held p)) }

/-- A deferred trap recorded against a slice, or against the block of an ended slice (R169, R191). -/
def State.deferTrap (s : State) (bid i : Nat) (d : Deferred) : State :=
  s.modBlk bid (fun b =>
    if (b.sl i).ended then { b with blkDef := b.blkDef ++ [d] }
    else b.modSl i (fun sl => { sl with deferred := sl.deferred ++ [d] }))

/-! ## Taking a trap, and the return (R332, R336, R339) -/

/-- The code of a cause (R337). -/
def Cause.code : Cause → Nat
  | .illegalOpcode => 0x01 | .illegalEncoding => 0x02 | .illegalType => 0x03 | .regRange => 0x04 | .regDeadlock => 0x05
  | .priv => 0x06 | .badFormat => 0x07 | .pageAbsent => 0x10 | .rangeUndeclared => 0x11 | .accessRights => 0x12
  | .attrRequest => 0x13 | .aliasAttr => 0x14 | .woRewrite => 0x15 | .pvForeign => 0x16 | .misaligned => 0x17
  | .sparseMeta => 0x20 | .rowptrOrder => 0x21 | .countResidue => 0x22 | .indexBounds => 0x23 | .hashFull => 0x24
  | .mergeProtocol => 0x25 | .redSaturate => 0x26 | .detTimer => 0x30 | .detAtomic => 0x31 | .eccUncorrectable => 0x40
  | .directoryLost => 0x41 | .peerLinkDown => 0x42 | .trap => 0x50 | .brk => 0x51 | .watchdog => 0x60

/-- The causes whose records are also committed to the trap log (R338). -/
def Cause.logged (c : Cause) : Bool := c.code ∈ [0x40, 0x41, 0x42, 0x60]

/-- The length of a core cycle at a throttle step (R6), in units of 1/2,520 ns, in which every step's is whole. -/
def cycleTime (step : Nat) : Nat := ([2520, 2800, 3150, 3600, 4200, 5040][step]?).getD 5040
/-- A nanosecond in these units, and a tick of the 100 MHz reference (R35). -/
def nanosecond : Nat := 2520
def refTick : Nat := 10 * nanosecond
/-- The reference time since power-on, which throttle steps do not change (R35; log entry 11). -/
def State.refTime (s : State) : Nat := s.host.refBase + (s.clock - s.host.refClk) * cycleTime s.host.step
/-- %clock (R35). -/
def State.refClock (s : State) : Nat := s.refTime / refTick

/-- A trap record made (R336): the next sequence number, and what the block and the moment decide. It is written to its ring
later, by TRAP_RECORD_WRITE (R338). -/
def State.addRecord (s : State) (b : Option Block) (t : Trap) : State :=
  let g := match b with
    | some b => s.grid b.gid
    | none => Grid.blank
  let r : TrapRec :=
    { seq := s.seqNo, part := (b.map (·.part)).getD 0, core := match b with
        | some b => match b.loc with
          | .resident c => c
          | .saved => 0xFF
        | none => 0xFF
      bnum := (b.map (·.bnum)).getD 0, lra := g.lr.lra, cfa := (b.map (·.cfa)).getD 0, clk := s.refClock,
      bid := b.map (·.bid), logged := !t.cause.logged, trap := t }
  { s with recs := s.recs ++ [r], seqNo := s.seqNo + 1 }

/-- The least time of a core's occupied sections. -/
def Core.least (c : Core) : Nat :=
  let l := (c.secs.filter (fun x => x.slots.any (fun y => !y.gangs.isEmpty))).map (fun x => x.time)
  l.foldl min (l.headD 0)

/-- The cycle in which an event of a block falls: that of the visit in progress, and otherwise the one its core's sections have come to (R332). -/
def State.cycle (s : State) (bid : Nat) : Nat :=
  match s.visit with
  | some v => ((((s.core v.core).secs)[v.sec]?).map (fun x => x.time)).getD 0
  | none => (s.core (s.blk bid).core).least

/-- Which of two events of one cycle the Foreman takes: a block trap, otherwise that of the lowest slice and thread position (R332). -/
def Trap.before (t u : Trap) : Bool :=
  u.kind != 2 && (t.kind == 2 || decide (t.slc < u.slc) || (t.slc == u.slc && decide (t.thr < u.thr)))

/-- STATE of the frame: 2 for an absent page and 3 for any other trap (R342). -/
def Trap.frameState (t : Trap) : Nat := if t.cause = .pageAbsent then 2 else 3

/-- The record of an event that another of the same cycle displaces (R332). -/
def TrapRec.displaced (t : Trap) (r : TrapRec) : TrapRec := { r with trap := t, logged := !t.cause.logged }

/-- Taking a trap: the block stops with its state as it stands (R332), a record is made (R336), and the visit in progress ends.
A block already stopping records no other event, but for one of the same cycle that comes before it, which takes its place (R332; log entry 89).
The block is then drained and saved by BLOCK_STOP and BLOCK_SAVE, and its record written by TRAP_RECORD_WRITE. -/
def State.takeTrap (s : State) (bid : Nat) (t : Trap) : State :=
  let b := s.blk bid
  let at_ := s.cycle bid
  let stop : Stop := { state := t.frameState, trap := some t, cycle := at_ }
  let s := { s with visit := none }
  match b.stop with
  | none => (s.addRecord (some b) t).modBlk bid (fun b => { b with stop := some stop, trseq := s.seqNo })
  | some { state := _, trap := some u, cycle := n } =>
    if n = at_ ∧ t.before u then
      { s with recs := updFirst (fun r => r.seq == b.trseq) (TrapRec.displaced t) s.recs }.modBlk bid (fun b => { b with stop := some stop })
    else s
  | some { state := _, trap := none, cycle := _ } => s

/-- Whether an event of a block would be recorded: the block runs, or it stopped in this very cycle for an event that is no block trap. -/
def State.mayTrap (s : State) (bid : Nat) : Bool :=
  match (s.blk bid).stop with
  | none => true
  | some { state := _, trap := some u, cycle := n } => n == s.cycle bid && u.kind != 2
  | some { state := _, trap := none, cycle := _ } => false

/-- A pre-emption stops a block (R332); one that meets a block already stopping merges with that stop. -/
def State.preempt (s : State) (bid : Nat) : State :=
  s.modBlk bid (fun b => match b.stop with
    | some _ => b
    | none => { b with stop := some { state := 1, trap := none }, trseq := 0 })

/-- A slice released from its waiting instruction without its effect (R339 SKIP of a block trap). -/
def Block.skipWait (b : Block) (i : Nat) : Block :=
  { b.modSl i (fun sl => { sl with wait := none }) with claimQ := b.claimQ.filter (fun e => e.1 != i) }

/-- The return from a trap (R339): DISP 0 leaves the block as saved, so that a precise trap's instruction issues again and a
deferred trap, already consumed, resumes at TPC; DISP 1 resumes a precise trap at PC + 12 in every slice that stood at the
instruction with it, and releases the named slice of a block trap from its waiting instruction. After TRAP or BRK the block goes
on at the next instruction under DISP 0 as under DISP 1 (R219; log entry 42). The block may then be restored. -/
def Block.resumeDisp (b : Block) (disp : Nat) : Block :=
  let b := { b with resume := true }
  match b.stop with
  | some { state := _, trap := some t, cycle := _ } =>
    if (disp = 1 ∨ t.cause = .trap ∨ t.cause = .brk) ∧ t.kind = 0 then
      { b with slices := b.slices.mapIdx (fun i sl =>
          if sl.pc = t.pc ∧ !sl.ended ∧ (b.gangs.any (fun g => g.2.contains t.slc && g.2.contains i)) then { sl with pc := sl.pc + 12 } else sl) }
    else if disp = 1 ∧ t.kind = 2 then b.skipWait t.slc
    else b
  | _ => b

end Sys2Proof.Machine
end

