-- ==== Sys2Proof/Machine/Float.lean ====
section
/-! DEFINITION. The floating-point formats, rounding, NaN rules and basic arithmetic (R68 to R80, R83 to R85, R131 to R133, R429), and the
counter generator M (R82). Values are exact: a finite value is a signed magnitude m * 2^e, and each result is rounded once. -/

namespace Sys2Proof.Machine

/-! ## Exact values -/

/-- A dyadic real m * 2^e. -/
structure Dy where
  m : Int
  e : Int
  deriving DecidableEq, Repr

/-- m * 2^e as a numerator over a power of two. -/
def pow2Nat (e : Int) : Nat := 2 ^ e.toNat

def Dy.zero : Dy := ⟨0, 0⟩
def Dy.ofInt (x : Int) : Dy := ⟨x, 0⟩
/-- 2^e. -/
def Dy.pow (e : Int) : Dy := ⟨1, e⟩
def Dy.mul (a b : Dy) : Dy := ⟨a.m * b.m, a.e + b.e⟩
def Dy.neg (a : Dy) : Dy := ⟨-a.m, a.e⟩
/-- The exact sum, at the lower exponent. -/
def Dy.add (a b : Dy) : Dy :=
  if a.m = 0 then b else if b.m = 0 then a
  else
    let e := min a.e b.e
    ⟨a.m * (pow2Nat (a.e - e) : Int) + b.m * (pow2Nat (b.e - e) : Int), e⟩
def Dy.sub (a b : Dy) : Dy := a.add b.neg
/-- a * 2^k. -/
def Dy.scale (a : Dy) (k : Int) : Dy := ⟨a.m, a.e + k⟩
/-- Whether a < b. -/
def Dy.lt (a b : Dy) : Bool := decide ((a.sub b).m < 0)
def Dy.eq (a b : Dy) : Bool := decide ((a.sub b).m = 0)
/-- The floor of a dyadic real. -/
def Dy.floor (a : Dy) : Int := if 0 ≤ a.e then a.m * (pow2Nat a.e : Int) else a.m / (pow2Nat (-a.e) : Int)
/-- Numerator and denominator of the magnitude. -/
def Dy.ratio (a : Dy) : Nat × Nat := if 0 ≤ a.e then (a.m.natAbs * pow2Nat a.e, 1) else (a.m.natAbs, pow2Nat (-a.e))
/-- floor(log2 |a|) of a nonzero value. -/
def Dy.log2 (a : Dy) : Int := (Nat.log2 a.m.natAbs : Int) + a.e

/-! ## Formats -/

/-- A floating-point format (R70): width, mantissa bits, bias, whether it has infinities, the encodings of the largest finite
magnitude and of the generated NaN, and the width of the cause field. -/
structure Fmt where
  w      : Nat
  mb     : Nat
  bias   : Nat
  hasInf : Bool
  maxEnc : Nat
  cause  : Nat
  deriving DecidableEq, Repr

def Fmt.f32 : Fmt := ⟨32, 23, 127, true, 0x7F7FFFFF, 255⟩
def Fmt.f16 : Fmt := ⟨16, 10, 15, true, 0x7BFF, 63⟩
def Fmt.bf16 : Fmt := ⟨16, 7, 127, true, 0x7F7F, 63⟩
def Fmt.e4m3 : Fmt := ⟨8, 3, 7, false, 0x7E, 0⟩
def Fmt.e5m2 : Fmt := ⟨8, 2, 15, true, 0x7B, 3⟩

/-- The infinity of a format, or E4M3's NaN (R78, R429). -/
def Fmt.inf (f : Fmt) (neg : Bool) : Nat :=
  if f.hasInf then f.maxEnc + 1 + (if neg then 2 ^ (f.w - 1) else 0) else 0x7F
/-- The largest finite value of a sign. -/
def Fmt.maxFin (f : Fmt) (neg : Bool) : Nat := f.maxEnc + (if neg then 2 ^ (f.w - 1) else 0)
/-- The zero of a sign. -/
def Fmt.zero (f : Fmt) (neg : Bool) : Nat := if neg then 2 ^ (f.w - 1) else 0

/-- A NaN of a format with a sign and a cause (R84, R85). -/
def Fmt.nan (f : Fmt) (neg : Bool) (c : Nat) : Nat :=
  if f = Fmt.e4m3 then 0x7F
  else if f = Fmt.e5m2 then Fmt.zero f neg + 0x7C + min (Nat.max c 1) 3
  else Fmt.zero f neg + (f.maxEnc + 1) + 2 ^ (f.mb - 1) + min c f.cause

/-- A decoded value (R71, R72). A NaN keeps its bits; a finite value is (−1)^neg * m * 2^e. -/
inductive FVal where
  | nan (bits : Nat)
  | inf (neg : Bool)
  | fin (neg : Bool) (m : Nat) (e : Int)
  deriving DecidableEq, Repr

/-- The value of an encoding (R71, R72). -/
def Fmt.decode (f : Fmt) (x : Nat) : FVal :=
  let bits := x % 2 ^ f.w
  let neg := Nat.testBit bits (f.w - 1)
  let mag := bits % 2 ^ (f.w - 1)
  let ex := mag / 2 ^ f.mb
  let m := mag % 2 ^ f.mb
  if mag ≤ f.maxEnc then
    (if ex = 0 then .fin neg m (1 - (f.bias : Int) - (f.mb : Int)) else .fin neg (2 ^ f.mb + m) ((ex : Int) - (f.bias : Int) - (f.mb : Int)))
  else if f.hasInf && mag == f.maxEnc + 1 then .inf neg
  else .nan bits

/-- The cause field of a NaN (R83 to R85). -/
def Fmt.causeOf (f : Fmt) (bits : Nat) : Nat := if f = Fmt.e4m3 then 1 else bits % (f.cause + 1)

/-- A NaN carried from one format to another (R85). -/
def Fmt.carry (src dst : Fmt) (bits : Nat) : Nat :=
  if src = dst then
    (if src = Fmt.e4m3 then 0x7F else if src = Fmt.e5m2 then bits else bits ||| 2 ^ (src.mb - 1))
  else Fmt.nan dst (Nat.testBit bits (src.w - 1)) (src.causeOf bits)

/-- The value as a dyadic real; NaN and infinities as zero. -/
def FVal.dy : FVal → Dy
  | .fin neg m e => ⟨if neg then -(m : Int) else m, e⟩
  | _ => Dy.zero

def FVal.isNan : FVal → Bool
  | .nan _ => true
  | _ => false
def FVal.isInf : FVal → Bool
  | .inf _ => true
  | _ => false
def FVal.isZero : FVal → Bool
  | .fin _ m _ => m == 0
  | _ => false
def FVal.neg : FVal → Bool
  | .nan _ => false
  | .inf n => n
  | .fin n _ _ => n

/-! ## Rounding -/

/-- The rounding modes of R77; stochastic rounding carries its 16 random bits (R80). -/
inductive RMode where
  | rne | rz | ru | rd
  | sr (u : Nat)
  deriving DecidableEq, Repr

/-- The mode of a code of R77 below 4. -/
def RMode.ofCode (c : Nat) : RMode := if c = 0 then .rne else if c = 1 then .rz else if c = 2 then .ru else .rd

/-- Whether a magnitude t + rem/den between grid points t and t + 1 rounds to t + 1. -/
def RMode.up (rm : RMode) (neg : Bool) (t rem den : Nat) : Bool :=
  match rm with
  | .rne => decide (den < 2 * rem) || (decide (2 * rem = den) && decide (t % 2 = 1))
  | .rz => false
  | .ru => !neg && decide (0 < rem)
  | .rd => neg && decide (0 < rem)
  | .sr u => decide (0 < rem) && decide (2 ^ 16 ≤ rem * 2 ^ 16 / den + u % 2 ^ 16)

/-- floor(log2 (num/den)) of positive numbers. -/
def ratioLog (num den : Nat) : Int :=
  let l : Int := (Nat.log2 num : Int) - (Nat.log2 den : Int)
  if (if 0 ≤ l then decide (den * pow2Nat l ≤ num) else decide (den ≤ num * pow2Nat (-l))) then l else l - 1

/-- The encoding of a rounded magnitude num/den, before overflow is considered (R78). -/
def Fmt.encMag (f : Fmt) (rm : RMode) (neg : Bool) (num den : Nat) : Nat :=
  let emin : Int := 1 - (f.bias : Int) - (f.mb : Int)
  let u := max (ratioLog num den - (f.mb : Int)) emin
  let n := if 0 ≤ u then num else num * pow2Nat (-u)
  let d := if 0 ≤ u then den * pow2Nat u else den
  let t := n / d
  let r := if rm.up neg t (n % d) d then t + 1 else t
  if r < 2 ^ f.mb then r
  else if r = 2 ^ (f.mb + 1) then ((u - emin + 2).toNat) * 2 ^ f.mb
  else ((u - emin + 1).toNat) * 2 ^ f.mb + (r - 2 ^ f.mb)

/-- The overflow result of a mode (R78, R80). -/
def Fmt.overflow (f : Fmt) (rm : RMode) (neg : Bool) : Nat :=
  match rm with
  | .rne | .sr _ => f.inf neg
  | .rz => f.maxFin neg
  | .ru => if neg then f.maxFin true else f.inf false
  | .rd => if neg then f.inf true else f.maxFin false

/-- A positive rational num/den with a sign rounded into a format, and whether it overflowed (R78, R80). -/
def Fmt.roundRatio (f : Fmt) (rm : RMode) (neg : Bool) (num den : Nat) : Nat × Bool :=
  if num = 0 then (f.zero neg, false)
  else
    let enc := f.encMag rm neg num den
    if f.maxEnc < enc then (f.overflow rm neg, true) else (enc + f.zero neg, false)

/-- A nonzero dyadic value rounded into a format; zero gives +0. -/
def Fmt.round (f : Fmt) (rm : RMode) (x : Dy) : Nat :=
  (f.roundRatio rm (decide (x.m < 0)) x.ratio.1 x.ratio.2).1

/-- RNE(x, FP32). -/
def rne32 (x : Dy) : Nat := Fmt.f32.round .rne x

/-- The dyadic value of FP32 bits. -/
def dy32 (x : Nat) : Dy := (Fmt.f32.decode x).dy

/-- A rational rounded to an integer (R138, R140). -/
def roundInt (rm : RMode) (neg : Bool) (num den : Nat) : Int :=
  let t := num / den
  let r := if rm.up neg t (num % den) den then t + 1 else t
  if neg then -(r : Int) else r

/-- The integer nearest a dyadic value, ties to even (R91). -/
def nearestInt (x : Dy) : Int := roundInt .rne (decide (x.m < 0)) x.ratio.1 x.ratio.2

/-- An integer clamped to an interval. -/
def clampInt (lo hi x : Int) : Int := if x < lo then lo else if hi < x then hi else x

/-! ## Basic operations -/

/-- An FP32 value that is passed on as it stands, but that a NaN is quiet (R71, R85). -/
def quietF32 (x : Nat) : Nat := if (Fmt.f32.decode x).isNan then Fmt.f32.carry Fmt.f32 x else x

/-- The first NaN of a list of inputs in operand order, propagated within one format (R85). -/
def firstNan (f : Fmt) : List FVal → Option Nat
  | [] => none
  | .nan b :: _ => some (f.carry f b)
  | _ :: l => firstNan f l

/-- The sign of a zero sum of two signed addends (R79). -/
def zeroSign (rm : RMode) (na nb : Bool) : Bool := if na = nb then na else decide (rm = .rd)

/-- The rounded sum of two values of which neither is a NaN: ∞ − ∞ gives cause 3 (R131). The zero sum of nonzero addends is
+0, or −0 under RD. -/
def fSum (f : Fmt) (rm : RMode) (a b : FVal) : Nat :=
  match a, b with
  | .inf na, .inf nb => if na = nb then f.inf na else f.nan false 3
  | .inf na, _ => f.inf na
  | _, .inf nb => f.inf nb
  | _, _ =>
    let s := a.dy.add b.dy
    if s.m = 0 then
      (if a.isZero && b.isZero then f.zero (zeroSign rm a.neg b.neg) else f.zero (decide (rm = .rd)))
    else f.round rm s

/-- The exact product of two values that are not NaN; none is 0 × ∞. -/
def fProd (a b : FVal) : Option FVal :=
  let neg := a.neg != b.neg
  match a, b with
  | .inf _, _ => if b.isZero then none else some (.inf neg)
  | _, .inf _ => if a.isZero then none else some (.inf neg)
  | .fin _ ma ea, .fin _ mb eb => some (.fin neg (ma * mb) (ea + eb))
  | _, _ => none

/-- A value that is not NaN rounded into a format; zero keeps its sign (R79, R429). -/
def fRound (f : Fmt) (rm : RMode) (x : FVal) : Nat :=
  match x with
  | .nan b => b
  | .inf n => f.inf n
  | .fin n _ _ => if x.isZero then f.zero n else f.round rm x.dy

/-- FADD and FSUB (R131): `sub` negates the second operand, but a NaN propagates as it is. -/
def fAdd (f : Fmt) (rm : RMode) (sub : Bool) (a b : Nat) : Nat :=
  let x := f.decode a
  let y := f.decode b
  match firstNan f [x, y] with
  | some n => n
  | none => fSum f rm x (match y with
    | .inf n => .inf (n != sub)
    | .fin n m e => .fin (n != sub) m e
    | .nan b => .nan b)

/-- FMUL (R131): 0 × ∞ gives cause 4. -/
def fMul (f : Fmt) (rm : RMode) (a b : Nat) : Nat :=
  let x := f.decode a
  let y := f.decode b
  match firstNan f [x, y] with
  | some n => n
  | none => match fProd x y with
    | none => f.nan false 4
    | some p => fRound f rm p

/-- FFMA (R131): one rounding of a·b + d; the NaN order is a, b, d. -/
def fFma (f : Fmt) (rm : RMode) (a b d : Nat) : Nat :=
  let x := f.decode a
  let y := f.decode b
  let z := f.decode d
  match firstNan f [x, y, z] with
  | some n => n
  | none => match fProd x y with
    | none => f.nan false 4
    | some p => fSum f rm p z

/-- Whether a < b for values that are not NaN, with −0 below +0 when `signed` says so (R132, R133). -/
def fLess (signed : Bool) (a b : FVal) : Bool :=
  match a, b with
  | .inf na, .inf nb => na && !nb
  | .inf na, _ => na
  | _, .inf nb => !nb
  | _, _ =>
    if a.isZero && b.isZero then signed && a.neg && !b.neg else a.dy.lt b.dy

/-- FMIN and FMAX (R132). -/
def fMinMax (f : Fmt) (isMax : Bool) (a b : Nat) : Nat :=
  let x := f.decode a
  let y := f.decode b
  match firstNan f [x, y] with
  | some n => n
  | none => if isMax then (if fLess true x y then b % 2 ^ f.w else a % 2 ^ f.w)
    else (if fLess true y x then b % 2 ^ f.w else a % 2 ^ f.w)

/-- The condition codes of R133. -/
def fCond (cond a b : Nat) : Bool :=
  let x := Fmt.f32.decode a
  let y := Fmt.f32.decode b
  let un := x.isNan || y.isNan
  let lt := fLess false x y
  let gt := fLess false y x
  if cond = 0 then !un && !lt && !gt
  else if cond = 1 then un || lt || gt
  else if cond = 2 then !un && lt
  else if cond = 3 then !un && !gt
  else if cond = 4 then !un && gt
  else if cond = 5 then !un && !lt
  else if cond = 6 then un
  else !un

/-- FRND (R134). -/
def fRnd (rm : RMode) (a : Nat) : Nat :=
  match Fmt.f32.decode a with
  | .nan b => Fmt.f32.carry Fmt.f32 b
  | .inf _ => a
  | .fin neg m e =>
    if m = 0 then a
    else
      let q := Dy.ratio ⟨m, e⟩
      let r := roundInt rm neg q.1 q.2
      if r = 0 then Fmt.f32.zero neg else rne32 (Dy.ofInt r)

/-- FCLS (R143). -/
def fClass (a : Nat) : Nat :=
  match Fmt.f32.decode a with
  | .nan b => 2 ^ 8 + 2 ^ 16 * (b % 256)
  | .inf neg => if neg then 1 else 2 ^ 7
  | .fin neg m _ =>
    let sub := decide (m < 2 ^ 23)
    if m = 0 then (if neg then 2 ^ 3 else 2 ^ 4)
    else if sub then (if neg then 2 ^ 2 else 2 ^ 5)
    else (if neg then 2 ^ 1 else 2 ^ 6)

/-! ## The counter generator (R82) -/

/-- One round of M on (a, b, c, d). -/
def mRound (x : W32 × W32 × W32 × W32) : W32 × W32 × W32 × W32 :=
  let (a, b, c, d) := x
  let p : W64 := a.zeroExtend 64 * (0xE1F3A27D#64)
  (p.extractLsb' 32 32 ^^^ b ^^^ c, p.extractLsb' 0 32 + d, c + 0x6A5D39C1#32, d + 0x4B8F2E63#32)

def mRounds : Nat → W32 × W32 × W32 × W32 → W32 × W32 × W32 × W32
  | 0, x => x
  | n + 1, x => mRounds n (mRound x)

/-- M(key, ctr). -/
def mGen (key ctr : W64) : W32 :=
  let (a, b, _, _) := mRounds 10 (ctr.extractLsb' 0 32, ctr.extractLsb' 32 32, key.extractLsb' 0 32, key.extractLsb' 32 32)
  a ^^^ (b <<< 16) ^^^ (b >>> 16)

/-- The key of a stochastic rounding (R81). -/
def srKey (seed : W64) (stream : Nat) : W64 := seed ^^^ (BitVec.ofNat 64 stream <<< 48)

/-- The mode SR under a key and a counter (R80). -/
def srMode (key ctr : W64) : RMode := .sr (mGen key ctr).toNat

end Sys2Proof.Machine
end

