-- ==== Sys2Proof/Machine/Special.lean ====
section
/-! DEFINITION. The special functions (R91 to R95): each is the algorithm the manual fixes, over FP32 bit patterns. The constants and
tables are the bits of the expressions of R92 to R95, each rounded once to FP32. -/

namespace Sys2Proof.Machine

/-- T2 of R92: 2^(j/64), part 0. -/
def tabT20 : List Nat := [
  0x3F800000, 0x3F8164D2, 0x3F82CD87, 0x3F843A29, 0x3F85AAC3, 0x3F871F62, 0x3F88980F, 0x3F8A14D5, 0x3F8B95C2, 0x3F8D1ADF, 0x3F8EA43A,
  0x3F9031DC, 0x3F91C3D3, 0x3F935A2B, 0x3F94F4F0, 0x3F96942D, 0x3F9837F0, 0x3F99E046, 0x3F9B8D3A, 0x3F9D3EDA, 0x3F9EF532, 0x3FA0B051,
  0x3FA27043, 0x3FA43516, 0x3FA5FED7, 0x3FA7CD94, 0x3FA9A15B, 0x3FAB7A3A, 0x3FAD583F, 0x3FAF3B79, 0x3FB123F6, 0x3FB311C4, 0x3FB504F3]
/-- T2 of R92: 2^(j/64), part 1. -/
def tabT21 : List Nat := [
  0x3FB6FD92, 0x3FB8FBAF, 0x3FBAFF5B, 0x3FBD08A4, 0x3FBF179A, 0x3FC12C4D, 0x3FC346CD, 0x3FC5672A, 0x3FC78D75, 0x3FC9B9BE, 0x3FCBEC15,
  0x3FCE248C, 0x3FD06334, 0x3FD2A81E, 0x3FD4F35B, 0x3FD744FD, 0x3FD99D16, 0x3FDBFBB8, 0x3FDE60F5, 0x3FE0CCDF, 0x3FE33F89, 0x3FE5B907,
  0x3FE8396A, 0x3FEAC0C7, 0x3FED4F30, 0x3FEFE4BA, 0x3FF28177, 0x3FF5257D, 0x3FF7D0DF, 0x3FFA83B3, 0x3FFD3E0C]
/-- T2 of R92: 2^(j/64). -/
def tabT2 : List Nat := tabT20 ++ tabT21
/-- Rc of R93: 1/(0.75 + j/128), part 0. -/
def tabRc0 : List Nat := [
  0x3FAAAAAB, 0x3FA8E83F, 0x3FA72F05, 0x3FA57EB5, 0x3FA3D70A, 0x3FA237C3, 0x3FA0A0A1, 0x3F9F1166, 0x3F9D89D9, 0x3F9C09C1, 0x3F9A90E8,
  0x3F991F1A, 0x3F97B426, 0x3F964FDA, 0x3F94F209, 0x3F939A86, 0x3F924925, 0x3F90FDBC, 0x3F8FB824, 0x3F8E7835, 0x3F8D3DCB, 0x3F8C08C1,
  0x3F8AD8F3, 0x3F89AE41, 0x3F888889, 0x3F8767AB, 0x3F864B8A, 0x3F853408, 0x3F842108, 0x3F83126F, 0x3F820821, 0x3F810204, 0x3F800000]
/-- Rc of R93: 1/(0.75 + j/128), part 1. -/
def tabRc1 : List Nat := [
  0x3F7E03F8, 0x3F7C0FC1, 0x3F7A232D, 0x3F783E10, 0x3F76603E, 0x3F74898D, 0x3F72B9D6, 0x3F70F0F1, 0x3F6F2EB7, 0x3F6D7304, 0x3F6BBDB3,
  0x3F6A0EA1, 0x3F6865AC, 0x3F66C2B4, 0x3F652598, 0x3F638E39, 0x3F61FC78, 0x3F607038, 0x3F5EE95C, 0x3F5D67C9, 0x3F5BEB62, 0x3F5A740E,
  0x3F5901B2, 0x3F579436, 0x3F562B81, 0x3F54C77B, 0x3F53680D, 0x3F520D21, 0x3F50B6A0, 0x3F4F6475, 0x3F4E168A, 0x3F4CCCCD, 0x3F4B8728]
/-- Rc of R93: 1/(0.75 + j/128), part 2. -/
def tabRc2 : List Nat := [
  0x3F4A4588, 0x3F4907DA, 0x3F47CE0C, 0x3F46980C, 0x3F4565C8, 0x3F443730, 0x3F430C31, 0x3F41E4BC, 0x3F40C0C1, 0x3F3FA030, 0x3F3E82FA,
  0x3F3D6910, 0x3F3C5264, 0x3F3B3EE7, 0x3F3A2E8C, 0x3F392144, 0x3F381703, 0x3F370FBB, 0x3F360B61, 0x3F3509E7, 0x3F340B41, 0x3F330F63,
  0x3F321643, 0x3F311FD4, 0x3F302C0B, 0x3F2F3ADE, 0x3F2E4C41, 0x3F2D602B, 0x3F2C7692, 0x3F2B8F6A, 0x3F2AAAAB]
/-- Rc of R93: 1/(0.75 + j/128). -/
def tabRc : List Nat := tabRc0 ++ tabRc1 ++ tabRc2
/-- Lg of R93: −log2 of the rounded Rc, part 0. -/
def tabLg0 : List Nat := [
  0xBED47FCD, 0xBECCD838, 0xBEC544BF, 0xBEBDC4F8, 0xBEB6587A, 0xBEAEFEE7, 0xBEA7B7DF, 0xBEA08301, 0xBE995FF9, 0xBE924E6B, 0xBE8B4E03,
  0xBE845E6F, 0xBE7AFEC6, 0xBE6D6112, 0xBE5FE33A, 0xBE5284A8, 0xBE4544C5, 0xBE382301, 0xBE2B1EE2, 0xBE1E37D7, 0xBE116D6E, 0xBE04BF21,
  0xBDF058D8, 0xBDD769D3, 0xBDBEB02F, 0xBDA62B00, 0xBD8DD98A, 0xBD6B75DB, 0xBD3B9C9B, 0xBD0C25DA, 0xBCBA1FA1, 0xBC3963D7, 0x00000000]
/-- Lg of R93: −log2 of the rounded Rc, part 1. -/
def tabLg1 : List Nat := [
  0x3C37F28B, 0x3CB73CB3, 0x3D08E68D, 0x3D35D690, 0x3D626FCC, 0x3D8759C9, 0x3D9D5182, 0x3DB31FB7, 0x3DC8C50D, 0x3DDE420E, 0x3DF3975C,
  0x3E0462C4, 0x3E0EE690, 0x3E195751, 0x3E23B551, 0x3E2E00D1, 0x3E383A17, 0x3E42615F, 0x3E4C76EA, 0x3E567AEF, 0x3E606DB6, 0x3E6A4F70,
  0x3E74205F, 0x3E7DE0B5, 0x3E83C856, 0x3E88983F, 0x3E8D602E, 0x3E92203D, 0x3E96D887, 0x3E9B8925, 0x3EA03234, 0x3EA4D3C2, 0x3EA96DEF]
/-- Lg of R93: −log2 of the rounded Rc, part 2. -/
def tabLg2 : List Nat := [
  0x3EAE00D1, 0x3EB28C80, 0x3EB71110, 0x3EBB8E97, 0x3EC0052D, 0x3EC474E2, 0x3EC8DDD3, 0x3ECD4011, 0x3ED19BAF, 0x3ED5F0C3, 0x3EDA3F60,
  0x3EDE8798, 0x3EE2C97E, 0x3EE70525, 0x3EEB3A9E, 0x3EEF69FF, 0x3EF39355, 0x3EF7B6B5, 0x3EFBD42A, 0x3EFFEBCB, 0x3F01FED4, 0x3F0404E8,
  0x3F060828, 0x3F08089D, 0x3F0A0650, 0x3F0C0146, 0x3F0DF98A, 0x3F0FEF1F, 0x3F11E20E, 0x3F13D260, 0x3F15C01A]
/-- Lg of R93: −log2 of the rounded Rc. -/
def tabLg : List Nat := tabLg0 ++ tabLg1 ++ tabLg2
/-- E1 = ln 2. -/
def cstE1 : Nat := 0x3F317218
/-- E2 = (ln 2)²/2. -/
def cstE2 : Nat := 0x3E75FDF0
/-- E3 = (ln 2)³/6. -/
def cstE3 : Nat := 0x3D635847
/-- L1 = 1/ln 2. -/
def cstL1 : Nat := 0x3FB8AA3B
/-- L2 = −1/(2 ln 2). -/
def cstL2 : Nat := 0xBF38AA3B
/-- L3 = 1/(3 ln 2). -/
def cstL3 : Nat := 0x3EF6384F
/-- L4 = −1/(4 ln 2). -/
def cstL4 : Nat := 0xBEB8AA3B
/-- S3 = −1/6. -/
def cstS3 : Nat := 0xBE2AAAAB
/-- S5 = 1/120. -/
def cstS5 : Nat := 0x3C088889
/-- S7 = −1/5,040. -/
def cstS7 : Nat := 0xB9500D01
/-- S9 = 1/362,880. -/
def cstS9 : Nat := 0x3638EF1D
/-- C2 = −1/2. -/
def cstC2 : Nat := 0xBF000000
/-- C4 = 1/24. -/
def cstC4 : Nat := 0x3D2AAAAB
/-- C6 = −1/720. -/
def cstC6 : Nat := 0xBAB60B61
/-- C8 = 1/40,320. -/
def cstC8 : Nat := 0x37D00D01
/-- K = 2/ln 2. -/
def cstK : Nat := 0x4038AA3B
/-- π·2^512, floored: π in R94 is the exact real, and no FP32 input needs more of it (log entry 32). -/
def piBits : Nat := 0x3243f6a8885a308d313198a2e03707344a4093822299f31d0082efa98ec4e6c89452821e638d01377be5466cf34e90c6cc0ac29b7c97c50dd3f84d5b5b5470917

/-- T2[j] as a dyadic value. -/
def t2At (j : Nat) : Dy := dy32 ((tabT2[j]?).getD 0)

/-- An FP32 result that is rounded once and used again. -/
def rneDy (x : Dy) : Dy := dy32 (rne32 x)

/-- The integer square root, one bit of the result for each unit of fuel, highest first. -/
def isqrtFrom (n : Nat) : Nat → Nat → Nat
  | 0, r => r
  | k + 1, r => isqrtFrom n k (if (r + 2 ^ k) * (r + 2 ^ k) ≤ n then r + 2 ^ k else r)

/-- floor(√n) for n below 2^256. -/
def isqrt (n : Nat) : Nat := isqrtFrom n 128 0

/-- RNE(√(m·2^e), FP32) for m > 0: the root to more than 40 bits with a sticky bit. -/
def sqrtBits (m : Nat) (e : Int) : Nat :=
  let m1 := if e % 2 = 0 then m else 2 * m
  let e1 := if e % 2 = 0 then e else e - 1
  let n := m1 * 2 ^ 80
  let r := isqrt n
  rne32 ⟨(2 * r + (if r * r = n then 0 else 1) : Nat), e1 / 2 - 41⟩

/-- RNE(1/√(m·2^e), FP32) for m > 0. -/
def rsqrtBits (m : Nat) (e : Int) : Nat :=
  let m1 := if e % 2 = 0 then m else 2 * m
  let e1 := if e % 2 = 0 then e else e - 1
  let r := isqrt (2 ^ 120 / m1)
  rne32 ⟨(2 * r + (if r * r * m1 = 2 ^ 120 then 0 else 1) : Nat), -(e1 / 2) - 61⟩

/-- FDIV (R91). -/
def fDiv (a b : Nat) : Nat :=
  let x := Fmt.f32.decode a
  let y := Fmt.f32.decode b
  let neg := x.neg != y.neg
  match firstNan Fmt.f32 [x, y] with
  | some n => n
  | none => match x, y with
    | .inf _, .inf _ => Fmt.f32.nan false 7
    | .inf _, _ => Fmt.f32.inf neg
    | _, .inf _ => Fmt.f32.zero neg
    | .fin _ ma ea, .fin _ mb eb =>
      if mb = 0 then (if ma = 0 then Fmt.f32.nan false 7 else Fmt.f32.inf neg)
      else if ma = 0 then Fmt.f32.zero neg
      else
        let d := ea - eb
        (Fmt.f32.roundRatio .rne neg (if 0 ≤ d then ma * pow2Nat d else ma) (if 0 ≤ d then mb else mb * pow2Nat (-d))).1
    | _, _ => 0

/-- The special cases of a function of one operand (R91): NaN by R85, the four special inputs by the table, and `f` for any other
finite input, which sees its sign, magnitude and exponent. -/
def special1 (a nInf zeroP zeroN pInf : Nat) (f : Bool → Nat → Int → Nat) : Nat :=
  match Fmt.f32.decode a with
  | .nan b => Fmt.f32.carry Fmt.f32 b
  | .inf neg => if neg then nInf else pInf
  | .fin neg m e => if m = 0 then (if neg then zeroN else zeroP) else f neg m e

def infP : Nat := 0x7F800000
def infN : Nat := 0xFF800000
def zeroNeg : Nat := 0x80000000
def onePos : Nat := 0x3F800000
def oneNeg : Nat := 0xBF800000
def nan3 : Nat := 0x7FC00003
def nan6 : Nat := 0x7FC00006

/-- FRCP (R91). -/
def fRcp (a : Nat) : Nat := special1 a zeroNeg infP infN 0 (fun _ _ _ => fDiv onePos a)
/-- FSQRT (R91). -/
def fSqrt (a : Nat) : Nat := special1 a nan6 0 zeroNeg infP (fun neg m e => if neg then nan6 else sqrtBits m e)
/-- FRSQ (R91). -/
def fRsq (a : Nat) : Nat := special1 a nan6 infP infN 0 (fun neg m e => if neg then nan6 else rsqrtBits m e)

/-- 2^r − 1 by the three p lines of R92. -/
def expPoly (r : Dy) : Dy :=
  let p := rneDy ((dy32 cstE3).mul r |>.add (dy32 cstE2))
  let p := rneDy (p.mul r |>.add (dy32 cstE1))
  rneDy (p.mul r)

/-- FEX2 (R92). -/
def fEx2 (a : Nat) : Nat :=
  special1 a 0 onePos onePos infP (fun neg m e =>
    let x : Dy := ⟨if neg then -(m : Int) else m, e⟩
    if ¬ x.lt (Dy.ofInt 128) then infP
    else if x.lt (Dy.ofInt (-150)) then 0
    else
      let k := nearestInt (x.scale 6)
      let n := k / 64
      let p := expPoly (x.sub ⟨k, -6⟩)
      let t := t2At (k % 64).toNat
      rne32 ((rneDy (t.mul p |>.add t)).scale n))

/-- FLG2 (R93). -/
def fLg2 (a : Nat) : Nat :=
  special1 a nan6 infN infN infP (fun neg mm ee =>
    if neg then nan6
    else
      let l := Nat.log2 mm
      let half := decide (3 * 2 ^ l ≤ 2 * mm)
      let e : Int := ee + l + (if half then 1 else 0)
      let m : Dy := ⟨mm, -(l : Int) - (if half then 1 else 0)⟩
      let j := (nearestInt ((m.sub ⟨3, -2⟩).scale 7)).toNat
      let t := rneDy ((m.mul (dy32 ((tabRc[j]?).getD 0))).sub (Dy.ofInt 1))
      let q := rneDy ((dy32 cstL4).mul t |>.add (dy32 cstL3))
      let q := rneDy (q.mul t |>.add (dy32 cstL2))
      let q := rneDy (q.mul t |>.add (dy32 cstL1))
      let q := rneDy (q.mul t |>.add (dy32 ((tabLg[j]?).getD 0)))
      rne32 (q.add (Dy.ofInt e)))

/-- The sign bit of an FP32 word inverted. -/
def flip32 (a : Nat) : Nat := if a < zeroNeg then a + zeroNeg else a - zeroNeg

/-- sin w, cos w and n of R94. -/
def sinCos (x : Dy) : Nat × Nat × Int :=
  let q : Nat × Nat := if 0 ≤ x.e then (x.m.natAbs * 2 ^ 513 * pow2Nat x.e, piBits) else (x.m.natAbs * 2 ^ 513, piBits * pow2Nat (-x.e))
  let n := roundInt .rne (decide (x.m < 0)) q.1 q.2
  let w := rneDy (x.sub ⟨n * (piBits : Int), -513⟩)
  let z := rneDy (w.mul w)
  let s := rneDy ((dy32 cstS9).mul z |>.add (dy32 cstS7))
  let s := rneDy (s.mul z |>.add (dy32 cstS5))
  let s := rneDy (s.mul z |>.add (dy32 cstS3))
  let s := rneDy (s.mul z)
  let s := rne32 (s.mul w |>.add w)
  let c := rneDy ((dy32 cstC8).mul z |>.add (dy32 cstC6))
  let c := rneDy (c.mul z |>.add (dy32 cstC4))
  let c := rneDy (c.mul z |>.add (dy32 cstC2))
  let c := rne32 (c.mul z |>.add (Dy.ofInt 1))
  (s, c, n)

/-- The choice of R94 among s, c, −s and −c. -/
def quadrant (k : Int) (s c : Nat) : Nat :=
  if k % 4 = 0 then s else if k % 4 = 1 then c else if k % 4 = 2 then flip32 s else flip32 c

/-- |x| < 2^−12. -/
def tiny12 (m : Nat) (e : Int) : Bool := Dy.lt ⟨m, e⟩ (Dy.pow (-12))

/-- FSIN (R94). -/
def fSin (a : Nat) : Nat :=
  special1 a nan3 0 zeroNeg nan3 (fun neg m e =>
    if tiny12 m e then a
    else
      let (s, c, n) := sinCos ⟨if neg then -(m : Int) else m, e⟩
      quadrant n s c)

/-- FCOS (R94): one quadrant on. -/
def fCos (a : Nat) : Nat :=
  special1 a nan3 onePos onePos nan3 (fun neg m e =>
    let (s, c, n) := sinCos ⟨if neg then -(m : Int) else m, e⟩
    quadrant (n + 1) s c)

/-- FTANH (R95). -/
def fTanh (a : Nat) : Nat :=
  special1 a oneNeg 0 zeroNeg onePos (fun neg m e =>
    if tiny12 m e then a
    else if ¬ Dy.lt ⟨m, e⟩ ⟨19, -1⟩ then (if neg then oneNeg else onePos)
    else
      let z := rneDy (Dy.mul ⟨m, e⟩ (dy32 cstK))
      let k := nearestInt (z.scale 6)
      let n := k / 64
      let p := expPoly (z.sub ⟨k, -6⟩)
      let t := t2At (k % 64).toNat
      let ev := if n = 0 then rneDy (t.mul p |>.add (t.sub (Dy.ofInt 1)))
        else rneDy (((rneDy (t.mul p |>.add t)).scale n).sub (Dy.ofInt 1))
      let h := fDiv (rne32 ev) (rne32 (ev.add (Dy.ofInt 2)))
      if neg then flip32 h else h)

end Sys2Proof.Machine
end

