-- ==== Sys2Proof/Machine/Sums.lean ====
section
/-! DEFINITION. The order of sums along K (R74 to R76, R86 to R90), the Q4 block, and the reduction-buffer elements (R96 to R98). An
element value is an FVal whose NaN, if any, already stands in FP32. -/

namespace Sys2Proof.Machine

/-! ## Element values -/

/-- An element of a floating-point format, a NaN carried to FP32 (R85). -/
def elemOf (f : Fmt) (bits : Nat) : FVal :=
  match f.decode bits with
  | .nan b => .nan (Fmt.carry f Fmt.f32 b)
  | x => x

/-- An integer as a value. -/
def intVal (x : Int) : FVal := .fin (decide (x < 0)) x.natAbs 0

/-- An E8M0 scale (R73): 0xFF is a NaN of cause 2. -/
def scaleVal (e : Nat) : FVal := if e % 256 = 255 then .nan 0x7FC00002 else .fin false 1 ((e % 256 : Nat) - 127)

/-- The scale of an operand that has none. -/
def scaleOne : FVal := .fin false 1 0

/-- Nibble n of the codes of a Q4 block (R75). -/
def q4Nib (blk : List Byte) (n : Nat) : Nat :=
  let b := ((blk[n / 2]?).getD 0).toNat
  if n % 2 = 0 then b % 16 else b / 16

def q4Byte17 (blk : List Byte) : Nat := ((blk[17]?).getD 0).toNat
/-- The scale byte of a Q4 block. -/
def q4Scale (blk : List Byte) : Nat := ((blk[16]?).getD 0).toNat

/-- Element n of a Q4 block before its scale (R76); none where the block is BAD_FORMAT at n. -/
def q4Code (blk : List Byte) (n : Nat) : Option FVal :=
  let b := q4Byte17 blk
  let i := b % 32
  let ov := Nat.testBit b 7
  if (b / 32) % 4 ≠ 0 then none
  else if q4Scale blk = 255 then some (.nan 0x7FC00002)
  else if ov ∧ n = i then some (elemOf Fmt.e4m3 (q4Nib blk (Nat.xor i 1) * 16 + q4Nib blk i))
  else if ov ∧ n = Nat.xor i 1 then some (.fin false 0 0)
  else if q4Nib blk n = 8 then none
  else some (intVal (signedOf 4 (q4Nib blk n)))

/-! ## Block values -/

/-- The first NaN of a block in the order of R89. -/
def blockNan (sa sb : FVal) (l : List (FVal × FVal)) : Option Nat :=
  firstNan Fmt.f32 (sa :: sb :: l.flatMap (fun p => [p.1, p.2]))

/-- The nonzero finite products of a block. -/
def finProds (l : List (FVal × FVal)) : List Dy :=
  (l.map (fun p => p.1.dy.mul p.2.dy)).filter (fun d => decide (d.m ≠ 0))

/-- The exact block sum of R87. -/
def exactSum (l : List (FVal × FVal)) : Dy := (finProds l).foldl Dy.add Dy.zero

/-- The largest of a list of integers. -/
def maxInt (x : Int) (l : List Int) : Int := l.foldl (fun a b => if a < b then b else a) x

/-- The anchored block sum of R88. -/
def anchoredSum (l : List (FVal × FVal)) : Dy :=
  match finProds l with
  | [] => Dy.zero
  | d :: ds =>
    let e := maxInt d.log2 (ds.map Dy.log2)
    ⟨((d :: ds).map (fun p => (p.scale (48 - e)).floor)).foldl (· + ·) 0, e - 48⟩

/-- The value of a block (R87 to R89), as FP32 bits. `window` is set when an operand's elements are BF16 or FP16. -/
def blockValue (window : Bool) (sa sb : FVal) (l : List (FVal × FVal)) : Nat :=
  match blockNan sa sb l with
  | some n => n
  | none =>
    let ps := l.map (fun p => fProd p.1 p.2)
    let hasInf := fun (neg : Bool) => ps.any (fun p => decide (p = some (.inf neg)))
    if ps.any (fun p => p.isNone) then Fmt.f32.nan false 4
    else if hasInf true && hasInf false then Fmt.f32.nan false 3
    else if hasInf true then infN
    else if hasInf false then infP
    else rne32 ((if window then anchoredSum l else exactSum l).mul (sa.dy.mul sb.dy))

/-- One accumulation of R86. -/
def accBlock (acc v : Nat) : Nat := fAdd Fmt.f32 .rne false acc v

/-- One rounding to FP32 of the exact sum of FP32 products and FP32 addends, as in R266 and R278; NaN inputs propagate in the order listed. -/
def fLinear (ps : List (Nat × Nat)) (cs : List Nat) : Nat :=
  let f := Fmt.f32.decode
  match firstNan Fmt.f32 (ps.flatMap (fun p => [f p.1, f p.2]) ++ cs.map f) with
  | some n => n
  | none =>
    let vs := ps.filterMap (fun p => fProd (f p.1) (f p.2)) ++ cs.map f
    let hasInf := fun (neg : Bool) => vs.any (fun v => decide (v = .inf neg))
    if vs.length < ps.length + cs.length then Fmt.f32.nan false 4
    else if hasInf true && hasInf false then Fmt.f32.nan false 3
    else if hasInf true then infN
    else if hasInf false then infP
    else
      let d := (vs.map FVal.dy).foldl Dy.add Dy.zero
      if d.m = 0 then Fmt.f32.zero (vs.all (fun v => v.isZero && v.neg)) else rne32 d

/-! ## Reduction elements -/

/-- The NaN state of an element (R96). -/
def redNan : Int := -(2 ^ 95)
/-- The largest magnitude of an element. -/
def redMax : Int := 2 ^ 95 - 1

/-- The integer an FP32 addend contributes under an anchor: nearest(x / 2^(A − 95)) (R97). -/
def redAddend (anchor : Int) (x : Dy) : Int := nearestInt (x.scale (95 - anchor))

/-- An integer added to an element: NaN and saturated states absorb, and the second component says that the sticky flag is set
(R97). -/
def redAddInt (i a : Int) : Int × Bool :=
  if i = redNan then (i, false)
  else if i = redMax ∨ i = -redMax then (i, false)
  else if redMax < i + a then (redMax, true)
  else if i + a < -redMax then (-redMax, true)
  else (i + a, false)

/-- An FP32 addend folded into an element (R97). -/
def redFold (anchor : Int) (i : Int) (x : Nat) : Int × Bool :=
  match Fmt.f32.decode x with
  | .nan _ => (redNan, false)
  | .inf neg =>
    if i = redNan ∨ i = redMax ∨ i = -redMax then (i, false) else (if neg then -redMax else redMax, true)
  | .fin neg m e => redAddInt i (redAddend anchor ⟨if neg then -(m : Int) else m, e⟩)

/-- An element read as FP32 (R98). -/
def redRead (anchor : Int) (i : Int) : Nat :=
  if i = redNan then Fmt.f32.nan false 1
  else if i = redMax then infP
  else if i = -redMax then infN
  else rne32 ⟨i, anchor - 95⟩

end Sys2Proof.Machine
end

