-- ==== Sys2Proof/Machine/Operands.lean ====
section
/-! DEFINITION. Operand forms: views and SEL of sources and destinations (R52, R53), short immediates (R54), special registers
(R35, R55, R220, R221), pairs and spans (R51, R137), and the values a thread reads. -/

namespace Sys2Proof.Machine

/-! ## Elements of a word (R69) -/

/-- Element j of width w of a word. -/
def elemAt (w : Nat) (x : W32) (j : Nat) : Nat := (x.toNat >>> (w * j)) % 2 ^ w

/-- The elements of width w of a word, e0 first. -/
def elems (w : Nat) (x : W32) : List Nat := (List.range (32 / w)).map (elemAt w x)

/-- The word of a list of elements of width w, e0 first. -/
def packElems (w : Nat) (l : List Nat) : W32 := BitVec.ofNat 32 (l.foldr (fun e acc => e % 2 ^ w + 2 ^ w * acc) 0)

/-- The floating-point format of a type (R57). -/
def tyFmt : Ty → Option Fmt
  | .f32 => some Fmt.f32
  | .h16x2 => some Fmt.f16
  | .bf16x2 => some Fmt.bf16
  | .e4m3x4 => some Fmt.e4m3
  | .e5m2x4 => some Fmt.e5m2
  | _ => none

/-! ## Views (R52, R53) -/

/-- The source element placed at each result element by the table of R52, for the packed views. -/
def viewTable : View → Nat → List (Option Nat)
  | .h, 0 => [some 0, some 1]
  | .h, 1 => [some 1, some 0]
  | .h, 2 => [some 0, some 0]
  | .h, 3 => [some 1, some 1]
  | .h, 4 => [some 0, none]
  | .h, 5 => [none, some 1]
  | .h, 6 => [some 1, none]
  | .h, _ => [none, some 0]
  | .b, 0 => [some 0, some 1, some 2, some 3]
  | .b, 1 => [some 1, some 0, some 3, some 2]
  | .b, 2 => [some 2, some 3, some 0, some 1]
  | .b, 3 => [some 3, some 2, some 1, some 0]
  | .b, 4 => [some 0, some 0, some 0, some 0]
  | .b, 5 => [some 1, some 1, some 1, some 1]
  | .b, 6 => [some 2, some 2, some 2, some 2]
  | .b, _ => [some 3, some 3, some 3, some 3]
  | .n, 0 => [some 0, some 1, some 2, some 3, some 4, some 5, some 6, some 7]
  | .n, 1 => [some 1, some 0, some 3, some 2, some 5, some 4, some 7, some 6]
  | .n, 2 => [some 2, some 3, some 0, some 1, some 6, some 7, some 4, some 5]
  | .n, 3 => [some 4, some 5, some 6, some 7, some 0, some 1, some 2, some 3]
  | .n, 4 => [some 7, some 6, some 5, some 4, some 3, some 2, some 1, some 0]
  | .n, 5 => [some 0, some 0, some 2, some 2, some 4, some 4, some 6, some 6]
  | .n, 6 => [some 1, some 1, some 3, some 3, some 5, some 5, some 7, some 7]
  | .n, _ => [some 0, some 4, some 1, some 5, some 2, some 6, some 3, some 7]
  | .w, _ => []

/-- The element width of a view. -/
def viewWidth : View → Nat
  | .w => 32 | .h => 16 | .b => 8 | .n => 4

/-- A source word read through VIEW 00 and a SEL (R52). -/
def readWordView (x : W32) (sel : Nat) : W32 :=
  if sel = 0 then x
  else if sel = 1 then (x.extractLsb' 0 16).zeroExtend 32
  else if sel = 2 then (x.extractLsb' 16 16).zeroExtend 32
  else if sel = 3 then (x.extractLsb' 0 16).signExtend 32
  else if sel = 4 then (x.extractLsb' 16 16).signExtend 32
  else if sel = 5 then (x.extractLsb' 0 8).zeroExtend 32
  else if sel = 6 then (x.extractLsb' 0 8).signExtend 32
  else packElems 8 (elems 8 x).reverse

/-- A source word read through a view and SEL (R52). -/
def readView (view : View) (sel : BitVec 3) (x : W32) : W32 :=
  match view with
  | .w => readWordView x sel.toNat
  | _ => packElems (viewWidth view) ((viewTable view sel.toNat).map (fun o => match o with
      | some j => elemAt (viewWidth view) x j
      | none => 0))

/-- The bit positions that a destination's view and SEL choose (R53). -/
def destMask (view : View) (sel : BitVec 3) : W32 :=
  match view, sel.toNat with
  | _, 0 => 0xFFFFFFFF
  | _, 1 => 0x0000FFFF
  | _, 2 => 0xFFFF0000
  | .n, 3 => 0x0F0F0F0F
  | .n, _ => 0xF0F0F0F0
  | _, 3 => 0x000000FF
  | _, 4 => 0x0000FF00
  | _, 5 => 0x00FF0000
  | _, _ => 0xFF000000

/-! ## Short immediates (R54) -/

/-- A short immediate as a 32-bit operand of a type. -/
def immWord (ty : Ty) (v : BitVec 13) : W32 :=
  match tyFmt ty with
  | some f => packElems f.w (List.replicate (32 / f.w) (f.round .rne (Dy.ofInt v.toInt)))
  | none =>
    if ty.width = 16 ∨ ty.width = 8 then packElems ty.width (List.replicate (32 / ty.width) (v.signExtend 32).toNat) else v.signExtend 32

/-! ## Special registers (R35, R55, R220, R221) -/

/-- The linear thread number of a position (R15). -/
def threadNo (slice t : Nat) : Nat := 4 * slice + t

/-- The cycles of a core, those of its furthest section (log entry 11). -/
def Core.cycles (c : Core) : Nat := c.secs.foldl (fun m x => max m x.time) 0

/-- A Uniform-class special register as the slice reads it. -/
def State.sregUniform (s : State) (bid i n : Nat) : W64 :=
  let b := s.blk bid
  let g := s.grid b.gid
  let sl := b.sl i
  let c := s.core b.core
  if n = 0x03 then BitVec.ofNat 64 (b.bnum % g.lr.gx)
  else if n = 0x04 then BitVec.ofNat 64 (b.bnum / g.lr.gx % g.lr.gy)
  else if n = 0x05 then BitVec.ofNat 64 (b.bnum / (g.lr.gx * g.lr.gy))
  else if n = 0x06 then BitVec.ofNat 64 sl.stage
  else if n = 0x07 then BitVec.ofNat 64 i
  else if n = 0x09 then BitVec.ofNat 64 sl.sec
  else if n = 0x0A then BitVec.ofNat 64 b.core
  else if n = 0x0B then BitVec.ofNat 64 (if g.lr.det then b.lcore else b.core)
  else if n = 0x0C then BitVec.ofNat 64 (dieOf b.core)
  else if n = 0x0E then g.lr.seed
  else if n = 0x0F then BitVec.ofNat 64 b.part
  else if n = 0x10 then BitVec.ofNat 64 s.refClock
  else if n = 0x11 then BitVec.ofNat 64 c.cycles
  else if n = 0x12 then b.tagmap
  else if n = 0x80 then (if g.priv then 1 else 0)
  else if n = 0x81 then c.mxvbat.zeroExtend 64
  else if n = 0x82 then c.mxvres.zeroExtend 64
  else if n = 0x83 then c.mxvq.zeroExtend 64
  else if n = 0x84 then s.wdogLim.zeroExtend 64
  else if n = 0x85 then c.steal.zeroExtend 64
  else 0

/-- A special register as position t of a slice reads it (R13, R55). -/
def State.sreg (s : State) (bid i t n : Nat) : W64 :=
  let lr := s.launch bid
  if n = 0x00 then BitVec.ofNat 64 (threadNo i t % lr.bx)
  else if n = 0x01 then BitVec.ofNat 64 (threadNo i t / lr.bx % lr.byDim)
  else if n = 0x02 then BitVec.ofNat 64 (threadNo i t / (lr.bx * lr.byDim))
  else if n = 0x08 then BitVec.ofNat 64 t
  else if n = 0x0D then (mget 0xFFFFFFFF (s.sl bid i).item t).zeroExtend 64
  else s.sregUniform bid i n

/-! ## Sources -/

/-- A predicate source: a predicate, which SEL 001 negates (R49). -/
def State.srcPred (s : State) (bid i t : Nat) (o : Opnd) : Bool :=
  match o with
  | .pred n neg => ((s.sl bid i).pred n.toNat t) != neg
  | _ => false

/-- A 32-bit source operand under a type; none reads zero. -/
def State.src (s : State) (bid i t : Nat) (ty : Ty) (o : Opnd) : W32 :=
  match o with
  | .lane n view sel => readView view sel ((s.sl bid i).lane n.toNat t)
  | .uni n view sel => readView view sel ((s.sl bid i).uni n.toNat)
  | .sreg n => (s.sreg bid i t n.toNat).setWidth 32
  | .imm v => immWord ty v
  | _ => 0

/-- A 64-bit source operand: a pair with the low half in the even register (R51), a special register or an immediate. -/
def State.src64 (s : State) (bid i t : Nat) (o : Opnd) : W64 :=
  match o with
  | .lane n _ _ => (s.sl bid i).lane (n.toNat + 1) t ++ (s.sl bid i).lane n.toNat t
  | .uni n _ _ => (s.sl bid i).uni (n.toNat + 1) ++ (s.sl bid i).uni n.toNat
  | .sreg n => s.sreg bid i t n.toNat
  | .imm v => v.signExtend 64
  | _ => 0

/-- Register NUM + j of a lane or uniform operand, without a view. -/
def State.srcReg (s : State) (bid i t : Nat) (o : Opnd) (j : Nat) : W32 :=
  match o with
  | .lane n _ _ => (s.sl bid i).lane (n.toNat + j) t
  | .uni n _ _ => (s.sl bid i).uni (n.toNat + j)
  | _ => 0

/-- The words of a source span of `cs` registers (R137): a view applies to a single register, and an immediate or special register is
one word or one 64-bit source. -/
def State.srcSpan (s : State) (bid i t : Nat) (ty : Ty) (cs : Nat) (o : Opnd) : List W32 :=
  match o with
  | .imm _ | .sreg _ =>
    if ty.is64 then
      let x := s.src64 bid i t o
      [x.setWidth 32, x.extractLsb' 32 32]
    else [s.src bid i t ty o]
  | _ => if cs = 1 then [s.src bid i t ty o] else (List.range cs).map (s.srcReg bid i t o)

/-- The elements of a span of words of a type (R137): 64-bit elements take a pair of words. -/
def spanElems (ty : Ty) (ws : List W32) : List Nat :=
  if ty.is64 then
    (List.range (ws.length / 2)).map (fun j => ((ws[2 * j]?).getD 0).toNat + 2 ^ 32 * ((ws[2 * j + 1]?).getD 0).toNat)
  else ws.flatMap (elems ty.width)

/-- Groups a list by n. -/
def chunk {α : Type} (n : Nat) (fuel : Nat) (l : List α) : List (List α) :=
  match fuel with
  | 0 => []
  | k + 1 => if l.isEmpty then [] else l.take n :: chunk n k (l.drop n)

/-- The words that elements of a type fill (R137). -/
def packSpan (ty : Ty) (es : List Nat) : List W32 :=
  if ty.is64 then es.flatMap (fun e => [BitVec.ofNat 32 e, BitVec.ofNat 32 (e / 2 ^ 32)])
  else (chunk (32 / ty.width) es.length es).map (packElems ty.width)

/-! ## Destinations -/

/-- The register element of index j of an operand. -/
def destElem (o : Opnd) (t j : Nat) : Option RegDest :=
  match o with
  | .lane n _ _ => some (.lane (n.toNat + j) t)
  | .uni n _ _ => some (.uni (n.toNat + j))
  | .pred n _ => some (.pred n.toNat t)
  | _ => none

/-- The bit positions that an operand writes in each of its registers: its view's for one register, all for several (R53, R137). -/
def opndMask (o : Opnd) (single : Bool) : W32 :=
  match o with
  | .lane _ view sel | .uni _ view sel => if single then destMask view sel else 0xFFFFFFFF
  | _ => 0xFFFFFFFF

/-- The writes of a list of words to a destination operand of position t. -/
def destWrites (o : Opnd) (t : Nat) (vals : List W32) : List RegWrite :=
  (vals.mapIdx (fun j x => (destElem o t j).map (fun d => { dest := d, mask := opndMask o (decide (vals.length = 1)), val := x }))).filterMap id

/-- A 64-bit value as its two words, low first (R51). -/
def words64 (x : W64) : List W32 := [x.setWidth 32, x.extractLsb' 32 32]

/-- A truth value as a predicate word. -/
def predWord (b : Bool) : W32 := if b then 1 else 0

end Sys2Proof.Machine
end

