-- ==== Sys2Proof/Machine/Flags.lean ====
section
/-! DEFINITION. Every flag computation: the integer conditions (R127), carries and borrows through a predicate (R121), the guard (R59,
R187) and the completion-flag tests that hold an instruction (R22, R61, R62). The float conditions of R133 are fCond. -/

namespace Sys2Proof.Machine

/-- An element as an integer of its type's signedness (R68). -/
def elemInt (ty : Ty) (w x : Nat) : Int := if ty.signed then signedOf w x else ((x % 2 ^ w : Nat) : Int)

/-- The conditions of R127. -/
def intCond (cond : Nat) (a b : Int) : Bool :=
  if cond = 0 then decide (a = b)
  else if cond = 1 then decide (a ≠ b)
  else if cond = 2 then decide (a < b)
  else if cond = 3 then decide (a ≤ b)
  else if cond = 4 then decide (b < a)
  else decide (b ≤ a)

/-- IADDC (R121): the sum and the carry out. -/
def addCarry (a b : W32) (ci : Bool) : W32 × Bool :=
  let s := a.toNat + b.toNat + (if ci then 1 else 0)
  (BitVec.ofNat 32 s, decide (2 ^ 32 ≤ s))

/-- ISUBB (R121): the difference and the borrow out. -/
def subBorrow (a b : W32) (ci : Bool) : W32 × Bool :=
  let d : Int := (a.toNat : Int) - (b.toNat : Int) - (if ci then 1 else 0)
  (BitVec.ofInt 32 d, decide (d < 0))

/-- The guard of a position (R59). -/
def State.guard (s : State) (bid i : Nat) (c : Common) (t : Nat) : Bool := ((s.sl bid i).pred c.gp.toNat t) != c.gn

/-- The active positions of a slice whose guard holds. -/
def State.guarded (s : State) (bid i : Nat) (c : Common) : List Nat := (posOf (s.sl bid i).act).filter (s.guard bid i c)

/-- Whether a Slice-class instruction takes effect in a slice: its guard holds in some active thread, or with .all in every
one (R187). -/
def State.takes (s : State) (bid i : Nat) (c : Common) (all : Bool) : Bool :=
  let g := s.guarded bid i c
  !g.isEmpty && (!all || g.length == (posOf (s.sl bid i).act).length)

/-- The transfers, whose MOD[0] is .all (R186). -/
def isTransfer (key : Nat) : Bool := keyIn key [0x002, 0x003, 0x004, 0x005, 0x006]

/-- The participants of an instruction in a slice: the active threads whose guard holds in the Thread class, and every active thread of
a slice in which a Slice-class or Always instruction takes effect (R59, R148, R187). -/
def State.participants (s : State) (bid i : Nat) (key : Nat) (cls : GuardClass) (c : Common) : List Nat :=
  match cls with
  | .thread => s.guarded bid i c
  | .slice | .quorum => if s.takes bid i c (isTransfer key && c.md.getLsbD 0) then posOf (s.sl bid i).act else []
  | .always => posOf (s.sl bid i).act

/-- Whether the flags of a wait mask read zero and the flag to raise is below 15 (R61). -/
def Slice.flagsReady (sl : Slice) (wm : BitVec 12) (setf : BitVec 4) : Bool :=
  sl.flagsZero wm && (decide (12 ≤ setf.toNat) || decide (sl.flag setf.toNat < 15))

end Sys2Proof.Machine
end

