-- ==== Sys2Proof/Machine/Slots.lean ====
section
/-! DEFINITION. Gang slots and sections (R19, R20, R22), and reconvergence: strands, the standing of a slice in a REGANG instance, and the
close of an instance (R195 to R198). -/

namespace Sys2Proof.Machine

/-! ## Slots and sections -/

/-- A core's section changed. -/
def State.modSec (s : State) (core sec : Nat) (f : Section → Section) : State :=
  s.modCore core (fun c => { c with secs := updAt f sec c.secs })

/-- A section's slot changed. -/
def Section.modSlot (x : Section) (n : Nat) (f : Slot → Slot) : Section := { x with slots := updAt f n x.slots }

/-- A slot with each sub-gang replaced by a list that takes its place in the order, the turn staying where it stood (R20). -/
def Slot.replace (x : Slot) (f : Gang → List Gang) : Slot :=
  let gs := x.gangs.flatMap f
  let c := ((x.gangs.take x.cur).flatMap f).length
  { x with gangs := gs, cur := if gs.length ≤ c then 0 else c }

/-- Keeps the first of each key, in order. -/
def firstKeys {α : Type} [DecidableEq α] : List α → List α
  | [] => []
  | x :: xs => x :: (firstKeys xs).filter (fun y => decide (y ≠ x))

/-- The sub-gangs of a gang by program counter, ended slices left out, in the order of the lowest slice each contains (R20). -/
def Gang.byPc (s : State) (g : Gang) : List Gang :=
  let live := g.slices.filter (fun i => !(s.sl g.bid i).ended)
  (firstKeys (live.map (fun i => (s.sl g.bid i).pc))).map
    (fun p => { g with slices := live.filter (fun i => decide ((s.sl g.bid i).pc = p)) })

/-- The slot's sub-gangs of a block parted by program counter. -/
def Slot.part (x : Slot) (s : State) (bid : Nat) : Slot := x.replace (fun g => if g.bid = bid then g.byPc s else [g])

/-- Cycles charged to a section, and the device time with it (R22; log entry 11). -/
def State.charge (s : State) (core sec n : Nat) : State :=
  let s := s.modSec core sec (fun x => { x with time := x.time + n, spent := true })
  { s with clock := max s.clock (s.core core).cycles }

/-! ## Gathering (R198, R199) -/

/-- A gang without some slices; nothing where none is left. -/
def Gang.less (g : Gang) (l : List Nat) : List Gang :=
  let r := g.slices.filter (fun i => !l.contains i)
  if r.isEmpty then [] else [{ g with slices := r }]

/-- The slices of a list made one gang, at the place of the sub-gang that holds the first of them. -/
def Section.gather (x : Section) (bid : Nat) (l : List Nat) : Section :=
  { x with slots := x.slots.map (fun slot => slot.replace (fun g =>
      if g.bid ≠ bid then [g]
      else if g.slices.contains (l.headD 0) then { bid := bid, slices := l } :: g.less l
      else g.less l)) }

/-- The slices of a block, of one section, made one gang; the list is ascending. -/
def State.gather (s : State) (bid : Nat) (l : List Nat) : State :=
  if l.isEmpty then s else s.modSec (s.blk bid).core (s.sl bid (l.headD 0)).sec (fun x => x.gather bid l)

/-! ## REGANG instances (R195 to R198) -/

/-- How a member stands in an instance (R197). -/
inductive Standing where
  | arrived | gone | lost | undecided
  deriving DecidableEq, Repr

/-- The standing of a slice in the instance at an address, site and pass count under a bound: its first REGANG since c was set to 0
decides it where that was issued with c at most the bound, and otherwise its first issue with c at or above the bound; c stays at its limit once it
has come to it (R195). -/
def Slice.standing (sl : Slice) (addr : W64) (site : Nat) (pass bound : W32) : Standing :=
  if sl.ended then .gone
  else match sl.firstRg with
    | some f => if f.addr = addr ∧ f.site = site ∧ f.pass = pass ∧ f.c ≤ bound then .arrived else .lost
    | none => if bound < sl.issueC ∨ (bound = 0xFFFFFFFF ∧ sl.cFull) then .lost else .undecided

/-- A slice removed from the strands of others. -/
def Block.unstrand (b : Block) (l : List Nat) (i : Nat) : Block :=
  { b with slices := b.slices.mapIdx (fun j sl => if l.contains j && j != i then { sl with strand := sl.strand.filter (fun k => k != i) } else sl) }

/-- A slice alone in its strand; every other member removes it (R195, R196). -/
def Block.alone (b : Block) (i : Nat) : Block := (b.unstrand (b.sl i).strand i).modSl i (fun sl => { sl with strand := [i] })

/-- The instance that a held slice has arrived at closes: the arrived slices form the new strand with c at 0 and are released, at once or at
the end of the rotation for .any, the lost members leave them, and they become one gang (R197 to R199). -/
def State.close (s : State) (bid i : Nat) (addr : W64) (site : Nat) (pass bound : W32) (any : Bool) : State :=
  let b := s.blk bid
  let strand := (b.sl i).strand
  let here := strand.filter (fun y => decide ((b.sl y).standing addr site pass bound = .arrived))
  let s := s.forSlices bid strand (fun y sl =>
    if here.contains y then
      { sl with strand := here, issueC := 0, cFull := false, firstRg := none,
                wait := sl.wait.map (fun w => { w with kind := if any then .rotation addr site pass else w.kind, met := !any }) }
    else { sl with strand := sl.strand.filter (fun k => !here.contains k) })
  s.gather bid here

/-- An instance of a block whose members all stand decided (R197). -/
def Block.closable (b : Block) : Option (Nat × W64 × Nat × W32 × W32 × Bool) :=
  findHeld 0 b.slices
where
  findHeld : Nat → List Slice → Option (Nat × W64 × Nat × W32 × W32 × Bool)
    | _, [] => none
    | i, sl :: l => match sl.wait with
      | some { kind := .regang addr site pass bound any, word := _, met := false } =>
        if sl.strand.all (fun y => decide ((b.sl y).standing addr site pass bound ≠ .undecided)) then some (i, addr, site, pass, bound, any)
        else findHeld (i + 1) l
      | _ => findHeld (i + 1) l

/-- Closes what can close, at most n instances. -/
def State.closeAll (s : State) (bid : Nat) : Nat → State
  | 0 => s
  | n + 1 => match (s.blk bid).closable with
    | some (i, addr, site, pass, bound, any) => (s.close bid i addr site pass bound any).closeAll bid n
    | none => s

/-- The instances of a block that have become decided close. -/
def State.regangCheck (s : State) (bid : Nat) : State := s.closeAll bid (s.blk bid).slices.length

end Sys2Proof.Machine
end

