-- ==== Sys2Proof/Machine/Issue.lean ====
section
/-! DEFINITION. The issue of one instruction of the visit in progress, shared by all 185 forms: the checks of R67 that follow decoding,
the points at which a deferred trap is taken (R169, R258), the distance count and the release of results (R23, R62), the effect, and
the end of the visit (R20, R22). -/

namespace Sys2Proof.Machine

/-! ## The instruction of a visit -/

/-- An instruction of a visit: its key and row, its fields and word, the visit, and its address. -/
structure Ctx where
  key  : Nat
  row  : OpRow
  f    : Fields
  word : W96
  v    : Visit
  pc   : W64

/-- A row that stands for none. -/
def OpRow.blank : OpRow := ⟨0, false, [], .one, .zero, .thread, Acc.absent, Acc.absent, Acc.absent⟩

def Ctx.make (key : Nat) (f : Fields) (v : Visit) (s : State) : Ctx :=
  { key := key, row := (opRow? key).getD OpRow.blank, f := f, word := f.encode (BitVec.ofNat 9 key), v := v,
    pc := (s.sl v.bid (v.slices.headD 0)).pc }

def Ctx.c (x : Ctx) : Common := x.f.common
def Ctx.ty (x : Ctx) : Ty := x.f.common.ty
def Ctx.md (x : Ctx) : BitVec 6 := x.f.common.md
def Ctx.bid (x : Ctx) : Nat := x.v.bid
/-- Bits [hi:lo] of MOD. -/
def Ctx.mod (x : Ctx) (hi lo : Nat) : Nat := bitsOf x.f.common.md.toNat hi lo
def Ctx.cls (x : Ctx) : GuardClass := guardClass x.row x.f
def Ctx.uniform (x : Ctx) : Bool := isUniform x.row x.f
/-- The flag that SETF names; 12 and above name none. -/
def Ctx.setf (x : Ctx) : Nat := x.f.common.setf.toNat

/-- The participants in a slice. -/
def Ctx.parts (x : Ctx) (s : State) (i : Nat) : List Nat := s.participants x.bid i x.key x.cls x.c
/-- Whether the instruction takes effect in a slice. -/
def Ctx.takes (x : Ctx) (s : State) (i : Nat) : Bool := !(x.parts s i).isEmpty

/-- A trap of the instruction at a slice and position. -/
def Ctx.trap (x : Ctx) (cause : Cause) (i t : Nat) (ea : Nat := 0) (info : Nat := 0) (info2 : Nat := 0) : Trap :=
  { cause := cause, kind := 0, slc := i, thr := t, ea := ea, info := info, info2 := info2, pc := x.pc, tpc := x.pc, word := x.word }

/-! ## Checks after decoding (R67) -/

/-- Whether a source reads a special register at or above 0x80 (R35, R220). -/
def readsPrivileged : Opnd → Bool
  | .sreg n => decide (0x80 ≤ n.toNat)
  | _ => false

/-- WRSR, HARVEST, TFENCE at .dev or .sys, and every instruction, RDSR among them, a source of which names a special register at or
above 0x80 (R35, R65, R182, R220). -/
def Ctx.privileged (x : Ctx) : Bool :=
  keyIn x.key [0x012, 0x115] || (x.key == 0x113 && decide (3 ≤ x.mod 2 0)) || readsPrivileged x.f.oa || readsPrivileged x.f.ob

/-- How many registers an operand field names from its NUM. -/
def accCount (a : Acc) : Nat := if a.wide then max 2 a.align else if a.plain then a.align else 1

/-- A field's REG_RANGE failure: the register or tile at fault, and the allocation or tile count (R27, R29, R337). -/
def rangeFault (b : Block) (sl : Slice) (a : Acc) (o : Opnd) : Option (Nat × Nat) :=
  match o with
  | .lane n _ _ => if 8 * sl.alloc < n.toNat + accCount a then some (max n.toNat (8 * sl.alloc), sl.alloc) else none
  | .tile n => if b.tcount ≤ n.toNat then some (n.toNat, b.tcount) else none
  | _ => none

/-- REG_RANGE of an instruction in a slice: the first field at fault in the order OD, OA, OB. -/
def Ctx.regRange (x : Ctx) (b : Block) (i : Nat) : Option Trap :=
  let sl := b.sl i
  let hit := fun (p : Nat × Nat) => x.trap .regRange i 0 0 p.1 p.2
  match rangeFault b sl (accOD x.row x.f) x.f.od with
  | some p => some (hit p)
  | none => match rangeFault b sl (accOA x.row x.f) x.f.oa with
    | some p => some (hit p)
    | none => (rangeFault b sl (accOB x.row x.f) x.f.ob).map hit

/-- The first result of a list of optional results. -/
def firstSome {α β : Type} (f : α → Option β) : List α → Option β
  | [] => none
  | a :: l => match f a with
    | some b => some b
    | none => firstSome f l

/-- A timer register read by a source operand (R36). -/
def Ctx.timerReg (x : Ctx) : Option Nat :=
  firstSome (fun o => match o with
    | .sreg n => if n = 0x10 ∨ n = 0x11 then some n.toNat else none
    | _ => none) [x.f.oa, x.f.ob]

/-- DET_TIMER in the lowest slice in which the instruction reads a timer (R36). -/
def Ctx.detTimer (x : Ctx) (s : State) : Option Trap :=
  match x.timerReg with
  | some n =>
    if s.det x.bid then
      (x.v.slices.find? (fun i => x.takes s i)).map (fun i => x.trap .detTimer i ((x.parts s i).headD 0) 0 n)
    else none
  | none => none

/-! ## Deferred traps (R169, R258) -/

/-- The order in which a slice's deferred traps are taken: issue order, thread position, unit. -/
def Deferred.rank (d : Deferred) : Nat := (d.seq * 4 + d.trap.thr) * 2 ^ 64 + d.trap.unit

/-- The deferred trap of a slice that is taken among those a point names. -/
def Slice.dueDeferred (sl : Slice) (p : Deferred → Bool) : Option Deferred := leastBy Deferred.rank (sl.deferred.filter p)

/-- Whether the instruction is a release of the slice at its issue (R169). -/
def Ctx.isRelease (x : Ctx) : Bool :=
  (keyIn x.key [0x101, 0x108, 0x109, 0x10A] && decide (x.mod 5 3 ≠ 0)) || (x.key == 0x112 && decide (x.mod 1 0 ≠ 1)) ||
    keyIn x.key [0x141, 0x143, 0x013]

/-- The deferred traps that a waiting condition takes when it is released: those of the flags, tags and phases it observes
(R169, R258): of the tags of its mask those that are ready. -/
def waitTakes (b : Block) (k : WaitKind) (d : Deferred) : Bool :=
  match k with
  | .flags m => decide (d.flag < 12) && m.getLsbD d.flag
  | .tagsAll m | .tagsAny m => match d.tag with
    | some n => m.getLsbD n && (b.tag n).ready
    | none => false
  | .phase cb ph => d.phases.any (fun p => decide (p = (cb, ph.toNat)))
  | _ => false

/-- The waiting condition that a WAITF, WAITT, WAITTA or CBWAIT imposes on a slice; WAITTA in a deterministic launch waits as WAITT
(R211, R212, R214, R223). -/
def Ctx.waitKind (x : Ctx) (s : State) (i : Nat) : Option WaitKind :=
  if x.key = 0x144 then some (.flags ((s.src x.bid i 0 x.ty x.f.oa).setWidth 12))
  else if x.key = 0x145 then some (.tagsAll (s.src64 x.bid i 0 x.f.oa))
  else if x.key = 0x146 then
    some (if s.det x.bid then .tagsAll (s.src64 x.bid i 0 x.f.oa) else .tagsAny (s.src64 x.bid i 0 x.f.oa))
  else if x.key = 0x14A then
    match x.f.oa with
    | .res (.cb n) => some (.phase n.toNat ((s.src x.bid i 0 x.ty x.f.ob).setWidth 16))
    | _ => none
  else none

/-- The deferred traps that the instruction takes in a slice before it is performed: those of the flags its wait mask names, those of a
wait that would not hold, those a TAGFF would observe, those of memory instructions at a release, and all of
them at an EXIT (R169, R191, R258; log entry 33). -/
def Ctx.takesDeferred (x : Ctx) (s : State) (i : Nat) (d : Deferred) : Bool :=
  let b := s.blk x.bid
  let sl := b.sl i
  (decide (d.flag < 12) && x.f.wm.getLsbD d.flag) ||
    (x.takes s i &&
      ((x.key == 0x007) || (x.isRelease && d.mem) ||
        (x.key == 0x147 && match d.tag with
          | some n => (s.src64 x.bid i 0 x.f.oa).getLsbD n && (b.tag n).ready
          | none => false) ||
        match x.waitKind s i with
        | some k => waitHolds b sl k && waitTakes b k d
        | none => false))

/-- A deferred trap taken at an address. -/
def Deferred.taken (d : Deferred) (tpc : W64) : Trap := { d.trap with kind := 1, tpc := tpc }

/-- The deferred trap taken at this instruction, in the lowest slice that takes one. -/
def Ctx.deferredTrap (x : Ctx) (s : State) : Option Trap :=
  firstSome (fun i => ((s.sl x.bid i).dueDeferred (x.takesDeferred s i)).map (fun d => d.taken x.pc)) x.v.slices

/-- A deferred trap that stopped its block leaves the slice's record (R169, R339). -/
def State.consume (s : State) (bid : Nat) (t : Trap) : State :=
  if t.kind = 1 then
    s.modSl bid t.slc (fun sl => match sl.deferred.find? (fun d => decide (d.taken t.tpc = t)) with
      | some d => { sl with deferred := sl.deferred.erase d }
      | none => sl)
  else s

/-! ## Issue -/

/-- Whether the instruction gives a slice a held result (R62). -/
def Ctx.holds (x : Ctx) (s : State) (i : Nat) : Bool :=
  decide (x.row.lat = .v) && !odIsSource x.key && Opnd.isReg x.f.od && x.takes s i

/-- The number of results a slice holds (R62). -/
def Slice.heldCount (sl : Slice) : Nat := (sl.pend.filter Pend.held).length

/-- The slice's oldest held result, in program order. -/
def Slice.oldestHeld (sl : Slice) : Option Pend := sl.pend.find? Pend.held

/-- One advance of the distance count, with the results it makes visible (R23). -/
def Slice.advance (sl : Slice) : Slice :=
  Slice.release { sl with dcnt := sl.dcnt + 1, since := sl.since.map (fun n => n + 1), pend := sl.pend.map Pend.nearer } Pend.visible

/-- The start of an instruction's issue in a slice: the issue counts, and the results released before it reads its operands (R62, R195). The
distance count advances at the end of the issuing turn (R23, R67; log entry 90). -/
def Slice.begin (sl : Slice) (wm : BitVec 12) : Slice :=
  let sl := sl.release (fun p => p.named wm)
  { sl with pc := sl.pc + 12, since := some 0, seq := sl.seq + 1,
            issueC := if sl.issueC = 0xFFFFFFFF then sl.issueC else sl.issueC + 1
            cFull := sl.cFull || decide (sl.issueC = 0xFFFFFFFF) }

/-- The seventeenth held result releases the oldest (R62). -/
def Slice.makeRoom (sl : Slice) (needed : Bool) : Slice :=
  if needed && decide (16 ≤ sl.heldCount) then
    match sl.oldestHeld with
    | some p => sl.release (fun q => q.seq == p.seq && q.op == p.op && Pend.held q)
    | none => sl
  else sl

/-- The state in which the instruction reads its operands. -/
def Ctx.begin (x : Ctx) (s : State) : State :=
  let s := s.forSlices x.bid x.v.slices (fun _ sl => sl.begin x.f.wm)
  s.forSlices x.bid x.v.slices (fun i sl => sl.makeRoom (x.holds s i))

/-- The cycles of the visit (R22): one for a uniform instruction, otherwise the largest active-thread count. -/
def Ctx.cost (x : Ctx) (s : State) : Nat :=
  if x.uniform then 1 else (x.v.slices.map (fun i => (posOf (s.sl x.bid i).act).length)).foldl max 1

/-- The traps that stop an instruction before its effect, in the order of R67 and R169. `s` is the state before the issue, `s1` the one
in which the operands are read. -/
def Ctx.check (x : Ctx) (s s1 : State) : Option Trap :=
  match x.deferredTrap s1 with
  | some t => some t
  | none =>
    if x.privileged && !(s.grid (s.blk x.bid).gid).priv then some (x.trap .priv (x.v.slices.headD 0) 0)
    else match firstSome (x.regRange (s.blk x.bid)) x.v.slices with
      | some t => some t
      | none => x.detTimer s1

/-- A trap of a visit: the visit takes one cycle, and no slice changes (R67). -/
def State.visitTrap (s : State) (v : Visit) (t : Trap) : State := (s.takeTrap v.bid t).charge v.core v.sec 1

/-- A trap taken at the instruction: nothing of it is performed. -/
def Ctx.trapped (x : Ctx) (s : State) (t : Trap) : State := s.visitTrap x.v t

/-- The end of an issuing visit: the distance count of each served slice advances, slices at different program counters part, held slices whose
condition holds are marked, the watchdog count begins again, the REGANG instances that this issue decides close, and the visit's cycles are
charged (R20, R22, R23, R188, R197, R341). -/
def Ctx.finish (x : Ctx) (cost : Nat) (s : State) : State :=
  let s := s.forSlices x.bid x.v.slices (fun _ sl => sl.advance)
  let s := s.modSec x.v.core x.v.sec (fun sec => sec.modSlot x.v.slot (fun slot => slot.part s x.bid))
  let s := s.modBlk x.bid (fun b => { b.latch with wdog := s.refTime })
  let s := s.regangCheck x.bid
  { s.charge x.v.core x.v.sec cost with visit := none }

/-- The lane registers that a field reads. -/
def readRegs (a : Acc) (o : Opnd) : List Nat :=
  match o with
  | .lane n _ _ => (List.range (accCount a)).map (fun k => n.toNat + k)
  | _ => []

/-- Loom, MXV and engine instructions, for whose deferred faults a release does not stop (R169). -/
def unitKey (key : Nat) : Bool := decide (0x180 ≤ key ∧ key < 0x200)

/-- Whether a participant reads a poisoned register element (R306). -/
def Ctx.readsPoison (x : Ctx) (sl : Slice) (t : Nat) : Bool :=
  let od := if odIsSource x.key || destructive x.key x.c then readRegs (accOD x.row x.f) x.f.od else []
  (od ++ readRegs (accOA x.row x.f) x.f.oa ++ readRegs (accOB x.row x.f) x.f.ob).any (fun r => sl.pois.contains (4 * r + t))

/-- The deferred traps of poisoned register elements read by the instruction: `s1` is the state in which the operands are read (R169, R306; log
entry 37). A PREF raises none (R183), and a release takes them but those of Loom, MXV and engine instructions. -/
def Ctx.deferPoison (x : Ctx) (s1 s : State) : State :=
  if x.key = 0x114 then s
  else (x.v.slices.filter (fun i => !(s1.sl x.bid i).pois.isEmpty)).foldl (fun s i =>
    ((x.parts s1 i).filter (x.readsPoison (s1.sl x.bid i))).foldl (fun s t =>
      s.deferTrap x.bid i { seq := (s1.sl x.bid i).seq, flag := x.setf, mem := !unitKey x.key, trap := { x.trap .eccUncorrectable i t with kind := 1 } }) s) s

/-- An empty turn (R22, R23): one cycle, and the distance count of each slice that waits for its distance alone advances. -/
def State.emptyTurn (s : State) (v : Visit) (advances : Nat → Bool) : State :=
  let s := s.forSlices v.bid v.slices (fun i sl => if advances i then sl.advance else sl)
  { s.charge v.core v.sec 1 with visit := none }

/-- The issue of an instruction. Its effect reads and changes the state after the releases of R62, or traps; a trap leaves the state
before the issue unchanged. -/
def issue (key : Nat) (f : Fields) (eff : Ctx → State → Except Trap State) (s : State) : Host.Outcome State Fault Refusal :=
  match s.visit with
  | none => .fault .noVisit
  | some v =>
    let x := Ctx.make key f v s
    let s1 := x.begin s
    match x.check s s1 with
    | some t => .next (x.trapped s t)
    | none => match eff x s1 with
      | .error t => .next (x.trapped s t)
      | .ok s2 => .next (x.finish (x.cost s) (x.deferPoison s1 s2))

/-- The issue of an instruction with checks of its own, made on the state in which the operands are read. -/
def issueTry (key : Nat) (f : Fields) (bad : Ctx → State → Option Trap) (eff : Ctx → State → State) :
    State → Host.Outcome State Fault Refusal :=
  issue key f (fun x s => match bad x s with
    | some t => .error t
    | none => .ok (eff x s))

/-- The issue of an instruction with no checks of its own. -/
def issueAll (key : Nat) (f : Fields) (eff : Ctx → State → State) : State → Host.Outcome State Fault Refusal :=
  issue key f (fun x s => .ok (eff x s))

/-! ## Register results -/

/-- The register writes of a slice made as the latency class says (R62): at once, or three advances on. -/
def Slice.result (sl : Slice) (lat : Lat) (ws : List RegWrite) : Slice :=
  match lat with
  | .three => if ws.isEmpty then sl else sl.addPend { seq := sl.seq, due := .count 3, op := 0, ready := true, writes := ws }
  | _ => sl.writeAll sl.seq ws

/-- The writes of an instruction in a slice to a destination operand: one for each participant, or one for the slice where the
destination is uniform. -/
def Ctx.writesTo (x : Ctx) (s : State) (o : Opnd) (i : Nat) (val : Nat → List W32) : List RegWrite :=
  match o with
  | .uni .. => match (x.parts s i).head? with
    | some t => destWrites o t (val t)
    | none => []
  | _ => (x.parts s i).flatMap (fun t => destWrites o t (val t))

/-- The results of a register instruction: the words that `val` gives for each slice and participant, all read before any is written,
and further writes `more`. -/
def Ctx.put (x : Ctx) (s : State) (val : Nat → Nat → List W32) (more : Nat → Nat → List RegWrite := fun _ _ => []) : State :=
  s.forSlices x.bid x.v.slices (fun i sl =>
    sl.result x.row.lat (x.writesTo s x.f.od i (val i) ++ (x.parts s i).flatMap (more i)))

/-- A register instruction whose results are the words that `g` gives for each slice and participant. -/
def regOp (key : Nat) (f : FormR) (g : Ctx → State → Nat → Nat → List W32) (s : State) : Host.Outcome State Fault Refusal :=
  issueAll key (.r f) (fun x s => x.put s (g x s)) s

/-- A 32-bit source of the instruction under a type. -/
def Ctx.src (x : Ctx) (s : State) (i t : Nat) (ty : Ty) (o : Opnd) : W32 := s.src x.bid i t ty o
/-- A 64-bit source of the instruction. -/
def Ctx.src64 (x : Ctx) (s : State) (i t : Nat) (o : Opnd) : W64 := s.src64 x.bid i t o
/-- OA and OB under the instruction's own type. -/
def Ctx.a (x : Ctx) (s : State) (i t : Nat) : W32 := s.src x.bid i t x.ty x.f.oa
def Ctx.b (x : Ctx) (s : State) (i t : Nat) : W32 := s.src x.bid i t x.ty x.f.ob
/-- The prior value of a destructive instruction's destination (R116): the whole register. -/
def Ctx.d (x : Ctx) (s : State) (i t : Nat) : W32 := s.srcReg x.bid i t x.f.od 0
/-- The prior value of a destination pair. -/
def Ctx.d64 (x : Ctx) (s : State) (i t : Nat) : W64 := s.src64 x.bid i t x.f.od

end Sys2Proof.Machine
end

