-- ==== Sys2Proof/Machine/Pending.lean ====
section
/-! DEFINITION. Class-V operations of a slice: the flag raised at issue, the result held, and the completion (R32, R62, R168). -/

namespace Sys2Proof.Machine

/-- A blank operation of an instruction, to which a kind and accesses are added. -/
def Mop.blank : Mop :=
  { id := 0, iss := 0, seq := 0, pc := 0, word := 0, flag := 15, kind := .fence, oc := 0, acq := false, rel := false, accs := [],
    stage := 0, bar := 0, promo := false, due := 0, arg := 0, grp := 0, bad := false }

/-- An access that touches nothing, to which results are attached. -/
def Access.blank : Access :=
  { thr := 0, ea := 0, bytes := 0, pa := 0, kid := 0, req := .nc, attr := .rc, data := 0, data2 := 0, dests := [], done := false, old := 0, skip := 0 }

/-- A class-V operation begins in a slice: its flag is raised, and a result with register writes is held (R61, R62). -/
def Ctx.startOp (x : Ctx) (s : State) (i : Nat) (m : Mop) (ws : List RegWrite) : State :=
  let s := s.modSl x.bid i (fun sl =>
    let m := { m with id := s.nextId, iss := s.iss, seq := sl.seq, pc := x.pc, word := x.word, flag := x.setf }
    let sl := { sl.raise x.setf with mops := sl.mops ++ [m] }
    if ws.isEmpty then sl else sl.addPend { seq := sl.seq, due := .flag x.setf, op := s.nextId, ready := false, writes := ws })
  { s with nextId := s.nextId + 1, iss := s.iss + 1 }

/-- A class-V operation completes: its result becomes known, or none of it after a fault, and its flag is lowered (R62, R169). -/
def State.endOp (s : State) (bid i : Nat) (m : Mop) (vals : Option (List (RegDest × W32))) : State :=
  let s := s.modSl bid i (fun sl =>
    let sl := { sl with mops := sl.mops.filter (fun y => y.id != m.id) }
    match vals with
    | some vs => sl.deliver m.id vs
    | none => sl.deliverNone m.id)
  s.lower bid i m.flag

/-- The writes and values of an instruction's results in a slice, as a held operation keeps them. -/
def Ctx.heldAccs (x : Ctx) (s : State) (i : Nat) (val : Nat → List W32) : List Access :=
  (x.writesTo s x.f.od i val).map (fun w => { Access.blank with dests := [(w.dest, 0)], old := w.val.toNat })

/-- IDIV and IREM in every served slice: the results are computed at issue and held until released (R117, R120). -/
def Ctx.divide (x : Ctx) (s : State) (val : Nat → Nat → List W32) : State :=
  x.v.slices.foldl (fun acc i =>
    x.startOp acc i { Mop.blank with kind := .divide, accs := x.heldAccs s i (val i) } (x.writesTo s x.f.od i (val i))) s

/-- The values that an operation delivers. A load's value stands at its destination's positions, from byte `arg` (R157). -/
def Mop.values (m : Mop) : List (RegDest × W32) :=
  let first := if m.kind = .load ∨ m.kind = .ldb then m.arg else 0
  m.accs.flatMap (fun a => a.dests.map (fun d => (d.1, BitVec.ofNat 32 ((a.old * 2 ^ (8 * first)) >>> (32 * d.2)))))

/-- IDIV_IREM_COMPLETION (R117): the operation of the slice's instruction order `seq` completes, its flag lowers, and its result stays
held until its release. -/
def execIdivIremCompletion (bid i seq : Nat) (s : State) : Host.Outcome State Fault Refusal :=
  match (s.sl bid i).mops.find? (fun m => m.seq == seq && decide (m.kind = .divide)) with
  | some m => .next (s.endOp bid i m (some m.values))
  | none => .next s

end Sys2Proof.Machine
end

