-- ==== Sys2Proof/Machine/Caches.lean ====
section
/-! DEFINITION. The stores of the memory hierarchy: memory under its keys, L3, L2, the directory's home functions and the L1 (R283 to
R289, R293, R302, R305, R306, R389, R395). -/

namespace Sys2Proof.Machine

/-! ## Homes (R284, R389) -/

/-- The line of an address. -/
def lineOf (pa : Nat) : Nat := pa / 128
/-- The home slice index of an address. -/
def homeIdx (pa : Nat) : Nat :=
  (List.range 10).foldl (fun h j => Nat.xor h (bitsOf pa (4 * j + 10) (4 * j + 7))) (bitsOf pa 47 47)
/-- The memory controller of an address. -/
def chanOf (pa : Nat) : Nat := Nat.xor (Nat.xor (bitsOf pa 15 12) (bitsOf pa 27 24)) (bitsOf pa 39 36)
/-- The directory home of an address (R389). -/
def dirHome (pa : Nat) : Nat := (List.range 8).foldl (fun h j => Nat.xor h (bitsOf pa (4 * j + 19) (4 * j + 16))) 0
/-- The L2 slice of a die that is a line's home, 16·d + h. -/
def l2Home (die line : Nat) : Nat := 16 * die + homeIdx (128 * line)

/-- First address of the host window and of the peer windows (R401, R404). -/
def hostBase : Nat := 0xE00000000000
def peerBase : Nat := 0xF00000000000
/-- Whether an address lies in a peer window (R404). -/
def isPeer (pa : Nat) : Bool := decide (peerBase ≤ pa)
/-- Whether an address lies outside this device, in the host window or a peer window (R401, R404; log entries 8 and 9). -/
def isRemote (pa : Nat) : Bool := decide (hostBase ≤ pa)
/-- The peer window of an address. -/
def windowOf (pa : Nat) : Nat := (pa - peerBase) / 2 ^ 40

/-- Bytes of LPDDR6 that are usable: 240 GB with check symbols, which take 1/16 of the 256 GB usable without them (R2, R4, R306; log entry
34). -/
def State.backedBytes (s : State) : Nat := if s.checks then 240000000000 else 256000000000

/-! ## Poison (R306; log entry 37) -/

/-- The 64-byte units that a byte mask covers whole. -/
def fullUnits (m : LineMask) : BitVec 2 :=
  BitVec.ofBool (m.extractLsb' 64 64 == BitVec.allOnes 64) ++ BitVec.ofBool (m.extractLsb' 0 64 == BitVec.allOnes 64)
/-- The 64-bit words of a line that satisfy a test of their eight mask bits. -/
def wordsWith (p : BitVec 8 → Bool) (m : LineMask) : BitVec 16 :=
  (List.range 16).foldl (fun x k => if p (m.extractLsb' (8 * k) 8) then x ||| (1#16 <<< k) else x) 0
/-- The words that a byte mask touches, and those that it covers whole. -/
def anyWords : LineMask → BitVec 16 := wordsWith (fun b => b != 0)
def fullWords : LineMask → BitVec 16 := wordsWith (fun b => b == 255)

def Pois.none : Pois := { unit := 0, word := 0 }
/-- The poisoned words of a line, those of its poisoned units among them. -/
def Pois.words (p : Pois) : BitVec 16 := p.word ||| (if p.unit.getLsbD 0 then 0x00FF else 0) ||| (if p.unit.getLsbD 1 then 0xFF00 else 0)
/-- What a write of some bytes leaves: a unit written whole and a word written whole lose their poison. -/
def Pois.write (p : Pois) (m : LineMask) : Pois := if p = Pois.none then p else { unit := p.unit &&& ~~~fullUnits m, word := p.word &&& ~~~fullWords m }
/-- Poisoned bytes written. -/
def Pois.mark (p : Pois) (m : LineMask) : Pois := if m = 0 then p else { p with word := p.word ||| anyWords m }
/-- The poison of the units and words that a byte mask touches. -/
def Pois.under (p : Pois) (m : LineMask) : Pois :=
  { unit := p.unit &&& (BitVec.ofBool (m.extractLsb' 64 64 != 0) ++ BitVec.ofBool (m.extractLsb' 0 64 != 0)), word := p.word &&& anyWords m }
/-- The bytes of a line that are poisoned. -/
def Pois.bytes (p : Pois) : LineMask :=
  if p = Pois.none then 0 else (bitsSet 16 p.words.toNat).foldl (fun m k => m ||| spanMask (8 * k) 8) 0
def Pois.or (p q : Pois) : Pois := { unit := p.unit ||| q.unit, word := p.word ||| q.word }
/-- The units of LPDDR6 that a line's poison goes to. -/
def Pois.units (p : Pois) : BitVec 2 := BitVec.ofBool (p.words.extractLsb' 8 8 != 0) ++ BitVec.ofBool (p.words.extractLsb' 0 8 != 0)

/-- The codes of the attributes (R42). -/
def attrCode : Attr → Nat
  | .rc => 0 | .sc => 1 | .wo => 2 | .pv => 3
def attrOfCode (c : Nat) : Attr := if c % 4 = 0 then .rc else if c % 4 = 1 then .sc else if c % 4 = 2 then .wo else .pv

/-! ## Memory (R283, R395; log entries 4 and 10) -/

/-- The line of a list of bytes, byte 0 first. -/
def lineFromBytes (l : List Byte) : LineData := BitVec.ofNat 1024 (natOfBytes l)
/-- n bytes of a line from an offset. -/
def lineSlice (d : LineData) (o n : Nat) : List Byte := (List.range n).map (fun i => lineByte d (o + i))

/-- Where an access outside this device is sent: the bus address HWBASE + pa[43:0] of the host window (R401), or the pa that an opened length maps onto at the
peer of a link (R404). -/
def State.busAddress (s : State) (pa : Nat) : Nat := (s.host.hwbase + pa % 2 ^ 44) % 2 ^ 64
def State.peerAddress (s : State) (pa : Nat) : Nat := (((s.windows[windowOf pa]?).map (fun w => w.base)).getD 0 + (pa - peerBase) % 2 ^ 40) % 2 ^ 64
def State.target (s : State) (pa : Nat) : Nat :=
  if isPeer pa then 2 ^ 64 * (1 + ((s.windows[windowOf pa]?).map (fun w => w.link)).getD 0) + s.peerAddress pa
  else if isRemote pa then s.busAddress pa else pa

/-- A byte of another device's or the host's memory, which nothing here constrains (log entries 8 and 9); to a peer it is asked for with the leaf's key
identifier (R404). -/
def State.remoteByte (s : State) (kid a : Nat) : Byte := Config.freePeerByte ((s.free * 64 + (if isPeer a then kid else 0)) * 2 ^ 72 + s.target a)
/-- A byte of host memory at a bus address (log entry 9). -/
def State.hostByte (s : State) (bus : Nat) : Byte := Config.freePeerByte (s.free * 64 * 2 ^ 72 + bus % 2 ^ 64)

/-- What a unit is encrypted with under a key identifier (R395): the material of the key that is loaded for it, or the identifier itself where none is (log
entry 10). The tweak is the unit's own address, so two identifiers with one material read each other's units. -/
def State.keyTag (s : State) (kid : Nat) : Nat :=
  match s.keys.lookup kid with
  | some m => 65 + natOfBytes m
  | none => kid + 1

/-- A unit that was encrypted under the key of one tag, decrypted under that of another (R395). -/
def State.otherKey (s : State) (k kid unit : Nat) : BitVec 512 :=
  Config.xtsDecrypt (s.keyTag kid) unit (Config.xtsEncrypt k unit (BitVec.ofNat 512 (natOfBytes (mgets 0 s.mem (64 * unit) 64))))

/-- A byte of memory as read under a key: a unit last written under another key decrypts to a value that nothing constrains, the same at each
read. -/
def State.memByte (s : State) (kid a : Nat) : Byte :=
  if isRemote a then s.remoteByte kid a else
  let k := mget 0 s.memKey (a / 64)
  if k = 0 ∨ k = s.keyTag kid then mget 0 s.mem a else (s.otherKey k kid (a / 64)).extractLsb' (8 * (a % 64)) 8

/-- A line of memory as read under a key. -/
def State.memLine (s : State) (line kid : Nat) : LineData := lineFromBytes ((List.range 128).map (fun i => s.memByte kid (128 * line + i)))

/-- A line written to memory under a key, with its poisoned units, which only check symbols can mark (log entry 37). -/
def State.setMemLine (s : State) (line kid : Nat) (d : LineData) (pois : Pois) : State :=
  let poison := if s.checks then pois.units else 0
  let units := [2 * line, 2 * line + 1]
  { s with mem := mputs 0 s.mem (128 * line) (lineSlice d 0 128),
           memKey := mput 0 (mput 0 s.memKey (2 * line) (s.keyTag kid)) (2 * line + 1) (s.keyTag kid),
           poison := s.poison.filter (fun u => !units.contains u) ++ units.filter (fun u => poison.getLsbD (u % 2)) }

/-- The poisoned units of a line of memory. -/
def State.memPoison (s : State) (line : Nat) : Pois :=
  { unit := BitVec.ofBool (s.poison.contains (2 * line + 1)) ++ BitVec.ofBool (s.poison.contains (2 * line)), word := 0 }

/-! ## L3 and L2 -/

def State.l3Find (s : State) (line kid : Nat) : Option L3Line := s.l3.find? (fun x => x.line == line && x.kid == kid)
def State.l2Find (s : State) (sl line kid : Nat) : Option L2Line := s.l2.find? (fun x => x.sl == sl && x.line == line && x.kid == kid)
def State.modL2 (s : State) (sl line kid : Nat) (f : L2Line → L2Line) : State :=
  { s with l2 := updFirst (fun x => x.sl == sl && x.line == line && x.kid == kid) f s.l2 }
def State.dropL2 (s : State) (sl line kid : Nat) : State :=
  { s with l2 := s.l2.filter (fun x => !(x.sl == sl && x.line == line && x.kid == kid)) }

/-- Whether a line is pinned by a tile fetch unit (R289). -/
def State.pinned (s : State) (line kid : Nat) : Bool := s.cores.any (fun c => c.pins.any (fun p => p.line == line && p.kid == kid))

/-- The line at the L3, filled from memory where it is not held (R293: the written bits of a filled line are clear). -/
def State.l3Line (s : State) (line kid : Nat) : L3Line :=
  (s.l3Find line kid).getD { line := line, kid := kid, data := s.memLine line kid, dirty := false, poison := s.memPoison line }

/-- The key of a line's written bits. -/
def woKey (line kid : Nat) : Nat := 64 * line + kid

/-- Whether a line is held in the L3 or in an L2 (R293). -/
def State.lineHeld (s : State) (line kid : Nat) : Bool :=
  (s.l3Find line kid).isSome || s.l2.any (fun x => x.line == line && x.kid == kid)

/-- The written bits of a line that has left the L3 and both L2s are lost (R293). -/
def State.forgetWo (s : State) (line kid : Nat) : State :=
  if s.lineHeld line kid then s else { s with wo := mdrop (fun k => k == woKey line kid) s.wo }

/-- A line of the L3 written to LPDDR6 where it is dirty, and dropped. -/
def State.evictL3 (s : State) (line kid : Nat) : State :=
  match s.l3Find line kid with
  | none => s
  | some x =>
    let s := if x.dirty then s.setMemLine line kid x.data x.poison else s
    ({ s with l3 := s.l3.filter (fun y => !(y.line == line && y.kid == kid)) } : State).forgetWo line kid

/-- Room in an L3 slice for a line that it does not hold: it holds 98,304, and the one that entered first goes (R5, R293; log entry 76). -/
def State.l3Room (s : State) (line : Nat) : State :=
  if s.l3.length < 98304 then s
  else
    let mine := s.l3.filter (fun y => homeIdx (128 * y.line) == homeIdx (128 * line))
    match mine.getLast? with
    | some y => if mine.length < 98304 then s else s.evictL3 y.line y.kid
    | none => s

/-- A line set in the L3, where it stands if the slice holds it. -/
def State.setL3 (s : State) (x : L3Line) : State :=
  let s := { s with free := s.free + 1 }
  if (s.l3Find x.line x.kid).isSome then { s with l3 := updFirst (fun y => y.line == x.line && y.kid == x.kid) (fun _ => x) s.l3 }
  else
    let s := s.l3Room x.line
    { s with l3 := x :: s.l3 }

/-- Dirty bytes of an L2 line written back to its L3 data home; the line stays, clean. -/
def State.writeBackL2 (s : State) (x : L2Line) : State :=
  let s := if x.dirty = 0 then s else
    let h := s.l3Line x.line x.kid
    s.setL3 { h with data := mergeLine h.data x.data x.dirty, dirty := true, poison := (h.poison.write x.dirty).or (x.poison.under x.dirty) }
  s.modL2 x.sl x.line x.kid (fun y => { y with dirty := 0 })

/-- The current device-ordered value of a line: the copy of the one L2 that may write it, or the L3's (R288, R391). -/
def State.devLine (s : State) (line kid : Nat) : LineData × Pois :=
  if isRemote (128 * line) then (s.memLine line kid, Pois.none) else
  match s.l2.find? (fun x => x.line == line && x.kid == kid && decide (x.dirty ≠ 0)) with
  | some x => (x.data, x.poison)
  | none => let h := s.l3Line line kid
    (h.data, h.poison)

/-- Acknowledged writes laid over a line value in order, a rewrite of a written byte of a WO line left out (R288, R293). -/
def overlayWrites : LineMask → LineData × Pois → List MWrite → LineData × Pois
  | _, d, [] => d
  | wo, d, w :: l =>
    let m := if w.wo then w.mask &&& ~~~wo else w.mask
    overlayWrites (if w.wo then wo ||| w.mask else wo) (mergeLine d.1 w.data m, (d.2.write m).mark (w.poison &&& m)) l

/-- A line value with the writes acknowledged at an L2 slice and not yet performed at .dev laid over it, in order (R288, R300). -/
def State.overlay (s : State) (sl line kid : Nat) (d : LineData × Pois) : LineData × Pois :=
  overlayWrites (mget 0 s.wo (woKey line kid)) d (s.l2w.filter (fun w => w.sl == sl && w.line == line && w.kid == kid))

/-- The value of a home read by an agent of a die (R300), with the poison of the copy its L2 holds (R306). -/
def State.dieLine (s : State) (die line kid : Nat) : LineData × Pois :=
  let d := s.devLine line kid
  let p := ((s.l2Find (l2Home die line) line kid).map (fun x => x.poison)).getD Pois.none
  s.overlay (l2Home die line) line kid (d.1, d.2.or p)

/-- Bytes read one by one through a function of lines; an address outside the 48 bits wraps no further than its line. -/
def readBytes (f : Nat → LineData × Pois) (pa n : Nat) : List Byte :=
  (List.range n).map (fun i => lineByte (f (lineOf (pa + i))).1 ((pa + i) % 128))

/-- Whether any byte read is poisoned (R306). -/
def readPoison (f : Nat → LineData × Pois) (pa n : Nat) : Bool :=
  (List.range n).any (fun i => (f (lineOf (pa + i))).2.words.getLsbD ((pa + i) % 128 / 8))

/-- n bytes at their L3 home, device-ordered (R305, R324). -/
def State.homeBytes (s : State) (kid pa n : Nat) : List Byte := readBytes (fun l => s.devLine l kid) pa n

/-- Every L2 copy of a line written back and dropped, as an access at the L3 home requires. -/
def State.collect (s : State) (line kid : Nat) : State :=
  (s.l2.filter (fun x => x.line == line && x.kid == kid)).foldl (fun s x => (s.writeBackL2 x).dropL2 x.sl x.line x.kid) s

/-- A line in the operand buffer of the operation that pinned it, under every virtual line that reaches it (R350). -/
def LoomOp.enter (o : LoomOp) (p : Pin) (d : LineData × Pois) : LoomOp :=
  if o.id = p.op then { o with lines := o.lines ++ p.vlines.map (fun v => (v, d)), entered := o.entered ++ [((p.line, p.kid), p.vlines.headD 0)] } else o

/-- A pinned line taken into the operand buffer of the operation that pinned it, and its pin released (R231, R350). -/
def State.takePin (s : State) (core : Nat) (p : Pin) : State :=
  { s.modCore core (fun c => { c with pins := c.pins.erase p }) with
    blocks := s.blocks.map (fun b => { b with loomQ := b.loomQ.map (fun o => o.enter p (s.dieLine (dieOf core) p.line p.kid)) })
    free := s.free + 1 }

/-- Every pin of a line released: a write at the line's L3 home waits while the Loom takes it (R231, R289; log entry 93). -/
def State.takePins (s : State) (line kid : Nat) : State :=
  (List.range s.cores.length).foldl (fun s c =>
    ((s.core c).pins.filter (fun p => p.line == line && p.kid == kid)).foldl (fun s p => s.takePin c p) s) s

/-- The attribute of a frame in the frame attribute table (R290). -/
def State.frameAttr (s : State) (f : Nat) : Attr :=
  attrOfCode (natOfBytes (s.homeBytes 0 (s.fatb + f / 4) 1) / 4 ^ (f % 4))

/-- The written bits of frames that are not WO dropped (R304). -/
def State.dropWo (s : State) : State :=
  if s.wo.isEmpty then s else { s with wo := s.wo.filter (fun p => decide (s.frameAttr (p.1 / 64 / 512) = .wo)) }
/-- The written bits of frames that have left WO dropped, after a write to a line of the frame attribute table. -/
def State.sweepWo (s : State) (line kid : Nat) : State :=
  if s.wo.isEmpty || kid != 0 || decide (128 * line + 128 ≤ s.fatb) || decide (s.fatb + s.fn / 4 < 128 * line) then s else s.dropWo

/-- A write of some bytes of a line performed at its L3 home; one outside this device is performed there. -/
def State.homeWriteLine (s : State) (line kid : Nat) (mask : LineMask) (d : LineData) (poison : LineMask := 0) : State :=
  if isRemote (128 * line) then { s with free := s.free + 1 } else
  let s := (s.takePins line kid).collect line kid
  let h := s.l3Line line kid
  (s.setL3 { h with data := mergeLine h.data d mask, dirty := true, poison := (h.poison.write mask).mark (poison &&& mask) }).sweepWo line kid

/-- A walk entry of the Foreman's walker forgotten where a write at the home covers it (log entry 19). -/
def State.dropWalk (s : State) (line : Nat) : State := { s with walkCache := s.walkCache.filter (fun e => lineOf e.1 != line) }

/-- The bytes of a list laid into lines: each line with its mask and data. -/
def splitLines (pa : Nat) (l : List Byte) : List (Nat × LineMask × LineData) :=
  match l with
  | [] => []
  | _ =>
    let first := lineOf pa
    let n := lineOf (pa + l.length - 1) + 1 - first
    (List.range n).map (fun k =>
      let line := first + k
      let lo := if k = 0 then pa % 128 else 0
      let skip := if k = 0 then 0 else 128 * line - pa
      let bs := (l.drop skip).take (128 - lo)
      (line, spanMask lo bs.length, BitVec.ofNat 1024 (natOfBytes bs) <<< (8 * lo)))

/-- Bytes written at their L3 home, in order. -/
def State.homeWrite (s : State) (kid pa : Nat) (l : List Byte) : State :=
  (splitLines pa l).foldl (fun s x => (s.homeWriteLine x.1 kid x.2.1 x.2.2).dropWalk x.1) s

/-! ## Declared ranges and the extents of a block (R325, R326, R329) -/

/-- The declared range of lowest number that contains a byte. -/
def governing (ranges : List RangeRec) (a : Nat) : Option Nat := ranges.findIdx? (fun r => decide (r.vb ≤ a) && decide (a < r.vb + r.len))

/-- Whether an extent maps a page under a range. -/
def Extent.maps (e : Extent) (page rix : Nat) : Bool := decide (e.vb ≤ page) && decide (page ≤ e.vb + e.npg) && e.rix == rix

/-- The extent of a page under a range. -/
def Block.extent (b : Block) (page rix : Nat) : Option Extent := b.extents.find? (fun e => e.maps page rix)

/-- The extent under which a write of a block is performed takes its dirty bit (R329). -/
def State.dirtyExtent (s : State) (bid va : Nat) : State :=
  match governing (s.launch bid).ranges va with
  | none => s
  | some rix => s.modBlk bid (fun b => { b with extents := updFirst (fun e => !e.abs && e.maps (va / 65536) rix) (fun e => { e with d := true }) b.extents })

/-! ## Requests to the directory -/

/-- Whether a slice has a request for a line outstanding (R386). -/
def State.requested (s : State) (sl line kid : Nat) : Bool := s.dirQ.any (fun r => r.sl == sl && r.line == line && r.kid == kid)

/-- A fill or leave-to-write request; while one for the line is outstanding, another merges into it or waits for its answer (R386, R391). -/
def State.request (s : State) (sl line kid : Nat) (write : Bool) : State :=
  if s.requested sl line kid then s
  else { s with dirQ := s.dirQ ++ [{ id := s.nextId, sl := sl, line := line, kid := kid, write := write, acks := [], rb := line, sz := 0,
                                     evict := false }], nextId := s.nextId + 1 }

/-! ## The L1 (R285 to R287) -/

def Core.l1Find (c : Core) (line : Nat) : Option L1Line := c.l1.find? (fun x => x.line == line)
def Core.setL1 (c : Core) (x : L1Line) : Core := { c with l1 := c.l1.filter (fun y => y.line != x.line) ++ [x] }
def Core.dropL1 (c : Core) (line : Nat) : Core := { c with l1 := c.l1.filter (fun y => y.line != line) }

/-- A line with nothing valid. -/
def L1Line.blank (line : Nat) : L1Line :=
  { line := line, o := false, valid := 0, dirty := 0, data := 0, promo := 0, poison := 0, owners := [] }

/-- The bytes of an L1 line that hold a value: those of valid sectors and the dirty ones. -/
def L1Line.known (x : L1Line) : LineMask :=
  (bitsSet 4 x.valid.toNat).foldl (fun m k => m ||| spanMask (32 * k) 32) x.dirty

/-- A source for writes that no slice is charged with. -/
def Source.blank : Source :=
  { core := 0, bid := 0, slice := 0, seq := 0, op := 0, flag := 15, tag := none, pc := 0, word := 0, thr := 0, unit := 0, vline := 0 }

/-- A write sent to its L2 home, counted in the slice's touched-slice mask (R45). -/
def State.send (s : State) (w : MWrite) : State :=
  let s := { s with netw := s.netw ++ [{ w with id := s.nextId }], nextId := s.nextId + 1 }
  s.modSl w.src.bid w.src.slice (fun sl => { sl with tsm := sl.tsm ||| (1#32 <<< w.sl) })

/-- The store that a byte owner's bytes come from, as the source of their write-back (R169). -/
def ByteOwner.source (o : ByteOwner) (core : Nat) : Source :=
  { Source.blank with core := core, bid := o.bid, slice := o.slice, vline := o.vline, seq := o.seq, flag := o.flag, pc := o.pc, word := o.word, thr := o.thr }

/-- Some dirty bytes of an owner written back under the attribute that their frame has now (R304): an SC frame's go to the L3 home, a WO frame's
are tested for its written bits. -/
def State.sendBack (s : State) (core : Nat) (x : L1Line) (o : ByteOwner) (om : LineMask) : State :=
  let attr := s.frameAttr (x.line / 512)
  s.send { id := 0, sl := l2Home (dieOf core) x.line, line := x.line, kid := o.kid, mask := om, data := x.data, poison := x.poison &&& om,
           wo := decide (attr = .wo), home := decide (attr = .sc), src := o.source core, thrs := [] }

/-- The dirty bytes of an L1 line written back, as writes of the slices that stored them; the line becomes clean (R286). -/
def State.writeBackL1 (s : State) (core : Nat) (x : L1Line) (mask : LineMask) : State :=
  let m := x.dirty &&& mask
  if m = 0 then s
  else
    let s := x.owners.foldl (fun s o => if o.mask &&& m = 0 then s else s.sendBack core x o (o.mask &&& m)) s
    let owners := (x.owners.map (fun o => { o with mask := o.mask &&& ~~~m })).filter (fun o => o.mask != 0)
    let y := { x with dirty := x.dirty &&& ~~~m, promo := x.promo &&& ~~~m, poison := x.poison &&& ~~~m, owners := owners }
    s.modCore core (fun c => c.setL1 y)

/-- The dirty bytes of a line of a core's L1 written back, and the line dropped. -/
def State.flushL1 (s : State) (core line : Nat) : State :=
  match (s.core core).l1Find line with
  | some x => (s.writeBackL1 core x (BitVec.allOnes 128)).modCore core (fun c => c.dropL1 line)
  | none => s

/-- A line set in a core's L1, which holds 2,048: the one that was set least recently is evicted (R5, R287; log entry 76). -/
def State.putL1 (s : State) (core : Nat) (x : L1Line) : State :=
  let l := (s.core core).l1
  let s := if 2048 ≤ l.length ∧ ((s.core core).l1Find x.line).isNone then s.flushL1 core ((l.head?.map (fun y => y.line)).getD 0) else s
  s.modCore core (fun c => c.setL1 x)

/-- Every dirty byte of the .si lines of a core's L1 written back, as a release of .die or wider does (R180). -/
def State.l1Release (s : State) (core : Nat) : State :=
  (s.core core).l1.foldl (fun s x => if x.o then s else s.writeBackL1 core x (BitVec.allOnes 128)) s

/-- Every dirty byte of a core's L1 written back (R302). -/
def State.l1FlushAll (s : State) (core : Nat) : State :=
  (s.core core).l1.foldl (fun s x => s.writeBackL1 core x (BitVec.allOnes 128)) s

/-- The dirty bytes that a slice stored written back, those of .own lines among them, as a TFENCE requires (R182). -/
def State.l1OwnFlush (s : State) (core bid i : Nat) : State :=
  (s.core core).l1.foldl (fun s x =>
    s.writeBackL1 core x ((x.owners.filter (fun o => o.bid == bid && o.slice == i)).foldl (fun m o => m ||| o.mask) 0)) s

/-- The non-dirty bytes of every .si line of a core's L1 dropped, as an acquire of .die or wider does (R163). -/
def State.l1Acquire (s : State) (core : Nat) : State :=
  s.modCore core (fun c =>
    let l := c.l1.map (fun x => if x.o then x else { x with valid := 0 })
    { c with l1 := l.filter (fun x => x.o || x.dirty != 0) })

/-- A block-scope release marks the dirty .si bytes that a later promotion writes back (R181). -/
def State.l1Mark (s : State) (core : Nat) : State :=
  s.modCore core (fun c => { c with l1 := c.l1.map (fun x => if x.o then x else { x with promo := x.dirty }) })

/-- PROMOTION_REQUEST (R181): a core writes back every dirty .si byte that its L1 held at its most recent block-scope release. -/
def execPromotionRequest (core : Nat) (s : State) : Host.Outcome State Fault Refusal :=
  .next ((s.core core).l1.foldl (fun s x => if x.o then s else s.writeBackL1 core x x.promo) s)

/-- L1_EVICTION (R287): a line's dirty bytes are written back and the line is dropped. -/
def execL1Eviction (core line : Nat) (s : State) : Host.Outcome State Fault Refusal := .next (s.flushL1 core line)

/-- L1_PARITY_ERROR (R306): a clean sector is refetched silently, so it is dropped here; a dirty byte is poisoned. -/
def execL1ParityError (core line byte : Nat) (s : State) : Host.Outcome State Fault Refusal :=
  match (s.core core).l1Find line with
  | none => .next s
  | some x =>
    if byte < 128 ∧ x.dirty.getLsbD byte then
      .next (s.modCore core (fun c => c.setL1 { x with poison := x.poison ||| spanMask byte 1 }))
    else if byte < 128 then
      .next (s.modCore core (fun c => c.setL1 { x with valid := x.valid &&& ~~~(1#4 <<< (byte / 32)) }))
    else .next s

end Sys2Proof.Machine
end

