-- ==== Sys2Proof/Machine/Ranges.lean ====
section
/-! DEFINITION. Declared ranges and the entries of extent tables as trap records hold them (R42, R325, R327, R336), and the failures of checks (R337). -/

namespace Sys2Proof.Machine

/-! ## Codes (R42, R43, R327) -/

def reqCode : Req → Nat
  | .own => 0 | .si => 1 | .wt => 2 | .nc => 3
def reqOfCode (c : Nat) : Req := if c % 4 = 0 then .own else if c % 4 = 1 then .si else if c % 4 = 2 then .wt else .nc

def boolBit (b : Bool) (n : Nat) : Nat := if b then 2 ^ n else 0

/-- An extent entry as its 16 bytes, bytes 0–7 in the low half (R327). -/
def Extent.bits (e : Extent) : BitVec 128 :=
  let hi := 2 ^ 63 + boolBit e.abs 62 + attrCode e.attr * 2 ^ 60 + boolBit e.rd 59 + boolBit e.w 58 + boolBit e.d 57 + e.kid * 2 ^ 50
    + e.ps * 2 ^ 48 + e.rix * 2 ^ 42 + (if e.abs then 0 else e.pf)
  BitVec.ofNat 128 (hi * 2 ^ 64 + e.npg * 2 ^ 36 + e.vb)

/-- A check that fails: its cause, the address concerned, INFO, INFO2 and the extent entry (R337). -/
structure Failure where
  cause : Cause
  ea    : Nat := 0
  info  : Nat := 0
  info2 : Nat := 0
  ext   : BitVec 128 := 0
  /-- The access does not fail but waits, for a shoot-down or the retirement of its key (R330, R396). -/
  held  : Bool := false
  deriving DecidableEq, Repr

/-- The walk status W (R337). -/
def walkStatus (level reason : Nat) : Nat := level + 16 * reason

/-! ## Declared ranges (R325) -/

/-- A run of bytes of one page under one governing range. -/
structure Seg where
  va  : Nat
  n   : Nat
  rix : Option Nat
  deriving DecidableEq, Repr

/-- Inserts into an ascending list without repeats. -/
def insertAsc (x : Nat) : List Nat → List Nat
  | [] => [x]
  | y :: ys => if x < y then x :: y :: ys else if x = y then y :: ys else y :: insertAsc x ys

/-- The addresses in [a, b) at which governance may change, a first. -/
def cutPoints (ranges : List RangeRec) (a b : Nat) : List Nat :=
  ranges.foldl (fun l r => [r.vb, r.vb + r.len].foldl (fun l p => if a < p ∧ p < b then insertAsc p l else l) l) [a]

/-- Runs between ascending cut points. -/
def segsFrom (ranges : List RangeRec) (b : Nat) : List Nat → List Seg
  | [] => []
  | [a] => [{ va := a, n := b - a, rix := governing ranges a }]
  | a :: c :: l => { va := a, n := c - a, rix := governing ranges a } :: segsFrom ranges b (c :: l)

/-- The runs of a span, page by page. -/
def segsOf (ranges : List RangeRec) (ea n : Nat) : List Seg :=
  if n = 0 then []
  else
    let p0 := ea / 65536
    let p1 := (ea + n - 1) / 65536
    (List.range (p1 + 1 - p0)).flatMap (fun k =>
      let a := if k = 0 then ea else 65536 * (p0 + k)
      let b := if k = p1 - p0 then ea + n else 65536 * (p0 + k + 1)
      segsFrom ranges b (cutPoints ranges a b))

/-! ## Extent entries (R327, R336) -/

/-- The entry of a block's extent table that maps an address under its governing range, as a trap record holds it (R325, R327, R336); zero where the table
holds none. -/
def State.extBits (s : State) (bid va : Nat) : BitVec 128 :=
  match (segsOf (s.launch bid).ranges va 1).head?.bind (fun g => g.rix) with
  | some rix => (((s.blk bid).extent (va / 65536) rix).map Extent.bits).getD 0
  | none => 0

/-- Whether the record of a cause holds an extent entry (R336). -/
def Cause.extent (c : Cause) : Bool := decide (0x10 ≤ c.code) && decide (c.code ≤ 0x16)

end Sys2Proof.Machine
end

