-- ==== Sys2Proof/Machine/SlotLines.lean ====
section
/-! DEFINITION. Faults found after an access has left its core (R169), and the slot lines of reduction buffers at their L3 home (R173, R366,
R367). -/

namespace Sys2Proof.Machine

/-! ## Faults recorded against a slice (R169) -/

/-- Whether an instruction word is a memory instruction (R169). -/
def memWord (w : W96) : Bool := decide (0x100 ≤ (w.extractLsb' 0 9).toNat) && decide ((w.extractLsb' 0 9).toNat ≤ 0x115)

/-- A fault found after an access left the core, recorded against the slice of a source (R169). -/
def State.deferAt (s : State) (src : Source) (cause : Cause) (thr ea : Nat) (info : Nat := 0) (info2 : Nat := 0) : State :=
  let phases := ((s.cmds.find? (fun c => c.id == src.op && c.bid == src.bid)).map (fun c => c.phases)).getD []
  let ext := if cause.extent then s.extBits src.bid ea else 0
  s.deferTrap src.bid src.slice
    { seq := src.seq, flag := src.flag, tag := src.tag, phases := phases, mem := memWord src.word,
      trap := { cause := cause, kind := 1, slc := src.slice, thr := thr, unit := src.unit, ea := ea, info := info, info2 := info2,
                pc := src.pc, tpc := 0, word := src.word, ext := ext } }

/-! ## Slots (R173) -/

/-- A declared slot's element: its integer, anchor, trap enable and sticky flag. -/
structure RedSlot where
  i   : Int
  a   : Int
  te  : Bool
  stk : Bool
  deriving DecidableEq, Repr

/-- A slot read from its 16 bytes; none for an undeclared slot (R173). -/
def RedSlot.ofBytes (l : List Byte) : Option RedSlot :=
  let x := natOfBytes l
  let a := signedOf 16 (bitsOf x 111 96)
  let f := bitsOf x 127 112
  if f / 128 % 2 = 1 ∧ f % 128 < 4 ∧ f / 256 = 0 ∧ -128 ≤ a ∧ a ≤ 128 then
    some { i := signedOf 96 (bitsOf x 95 0), a := a, te := bitOf f 0, stk := bitOf f 1 }
  else none

/-- A slot as its 16 bytes (R173). -/
def RedSlot.bytes (r : RedSlot) : List Byte :=
  bytesOf 16 (wrapTo 96 r.i + 2 ^ 96 * wrapTo 16 r.a + 2 ^ 112 * (128 + boolBit r.stk 1 + boolBit r.te 0))

/-! ## The L3 unit (R366) -/

/-- A partial folded into a slot's element, and whether the sticky flag is set by it. -/
def foldPartial (i : Int) (p : PartEl) : Int × Bool :=
  if i = redNan then (i, false)
  else if p.nan then (redNan, false)
  else if i = redMax ∨ i = -redMax then (i, false)
  else if p.x ≠ 0 then (p.x * redMax, true)
  else redAddInt i p.q

/-- RED_SATURATE charged to a slice where TE is 1 or its launch is deterministic (R175, R368). -/
def State.saturate (s : State) (te : Bool) (src : Source) : State :=
  if te || s.det src.bid then s.deferAt src .redSaturate src.thr src.vline else s

/-- The physical address of slot n of a line. -/
def slotPa (line n : Nat) : Nat := 128 * line + 16 * n

/-- One partial element folded into its slot at the L3 home. -/
def State.foldEl (s : State) (line kid : Nat) (e : Nat × PartEl) : State :=
  match RedSlot.ofBytes (s.homeBytes kid (slotPa line e.1) 16) with
  | none => s
  | some r =>
    let f := foldPartial r.i e.2
    let s := s.homeWrite kid (slotPa line e.1) ({ r with i := f.1, stk := r.stk || f.2 } : RedSlot).bytes
    if f.2 then s.saturate r.te e.2.charge else s

/-- The partials of a line folded into its slots; a payload poisoned on its way poisons them (R306, R385). -/
def State.foldLine (s : State) (p : PartLine) : State :=
  let s := p.els.foldl (fun s e => s.foldEl p.line p.kid e) s
  if p.bad then
    let m := p.els.foldl (fun (m : LineMask) e => m ||| spanMask (16 * e.1) 16) 0
    s.homeWriteLine p.line p.kid m (s.devLine p.line p.kid).1 m
  else s

/-- A line's partials recalled from both dies' units and folded, as the L3 unit does before any other access to a slot line (R367). -/
def State.recallLine (s : State) (line kid : Nat) : State :=
  let mine := fun (p : PartLine) => p.line == line && p.kid == kid
  let ps := s.partQ.filter mine ++ s.partials.filter mine
  if ps.isEmpty then s
  else ps.foldl State.foldLine { s with partQ := s.partQ.filter (fun p => !mine p), partials := s.partials.filter (fun p => !mine p) }

/-- The partials of the lines of a span folded, as an access at the L3 requires (R367). -/
def State.recallSpan (s : State) (pa n : Nat) : State :=
  ((s.partials ++ s.partQ).filter (fun p => decide (pa / 128 ≤ p.line) && decide (128 * p.line < pa + n))).foldl (fun s p => s.recallLine p.line p.kid) s

end Sys2Proof.Machine
end

