-- ==== Sys2Proof/Machine/Paging.lean ====
section
/-! DEFINITION. Translation and its checks: page walks (R323, R324), the frame attribute table (R290, R291),
extents (R325 to R328), the order of the access checks (R167), PV ownership (R292) and the table of request types and
attributes (R294). -/

namespace Sys2Proof.Machine

/-! ## The page walk (R323, R324) -/

/-- A leaf a walk reached: key, the frame of the page walked, the frames it covers, attribute, rights, flags, size code, and the address of
the entry it stands in. -/
structure Leaf where
  kid   : Nat
  pf    : Nat
  first : Nat
  count : Nat
  attr  : Attr
  rd    : Bool
  w     : Bool
  x     : Bool
  a     : Bool
  ps    : Nat
  entry : Nat
  deriving DecidableEq, Repr

/-- Whether a window of another device is down (R405). -/
def State.windowDown (s : State) (pa : Nat) : Bool :=
  isPeer pa && match s.windows[windowOf pa]? with
    | some w => w.down || !w.opened
    | none => true

/-- The link of a peer window, which PEER_LINK_DOWN names (R337). -/
def State.linkOf (s : State) (pa : Nat) : Nat := if isPeer pa then ((s.windows[windowOf pa]?).map (fun w => w.link)).getD 0 else 0

/-- Why a walk stops: the level and the reason of R337, or the cause that its entry could not be read for, with the link for PEER_LINK_DOWN; `held` says that its
leaf's key is under retirement (R395, R396). -/
structure WalkStop where
  level  : Nat
  reason : Nat
  cause  : Cause := .pageAbsent
  held   : Bool := false
  deriving DecidableEq, Repr

/-- A table entry or leaf as the walker reads it, and why it cannot: a poisoned unit, or a window that is down (R290, R306, R405; log entry 113). A held copy is used
while the walker holds one (log entry 19). -/
def State.readPte (s : State) (pa : Nat) : Nat × Option Cause :=
  match s.walkCache.lookup pa with
  | some e => (e.toNat, none)
  | none => (natOfBytes (s.homeBytes 0 pa 8),
      if s.windowDown pa then some .peerLinkDown else if readPoison (fun l => s.devLine l 0) pa 8 then some .eccUncorrectable else none)

/-- The stop of a walk at an entry that cannot be read. -/
def State.pteStop (s : State) (level pa : Nat) (c : Cause) : WalkStop := { level := level, reason := if c = .peerLinkDown then s.linkOf pa else 0, cause := c }

/-- The partials of the lines that a walk reads recalled, as the L3 unit does before it (R367). -/
def State.recallWalk (s : State) (va : Nat) : Nat → Nat → State
  | level, table =>
    if (s.partials ++ s.partQ).isEmpty then s
    else
      let idx := bitsOf va (24 + 9 * level) (16 + 9 * level)
      let s := s.recallSpan (table + 8 * idx) 8
      let e := (s.readPte (table + 8 * idx)).1
      if bitOf e 0 && bitOf e 1 then
        (match level with
          | 0 => s
          | k + 1 => s.recallWalk va k (bitsOf e 47 12 * 2 ^ 12))
      else s.recallSpan (table + 8 * (idx - idx % 32)) 8
  termination_by structural level _ => level

/-- Whether a leaf's reserved bits are zero. -/
def leafReservedOk (e : Nat) : Bool := bitsOf e 55 54 == 0 && bitsOf e 15 11 == 0

/-- The leaf at an entry, whose group's first entry stands at `addr` (R324). -/
def mkLeaf (e addr va : Nat) (kid ps : Nat) : Leaf :=
  let count := if ps = 0 then 1 else if ps = 1 then 32 else 16384
  let first := bitsOf e 47 16
  { kid := kid, pf := first + (va / 65536) % count, first := first, count := count, attr := attrOfCode (bitsOf e 5 4), rd := bitOf e 6,
    w := bitOf e 7, x := bitOf e 8, a := bitOf e 9, ps := ps, entry := addr }

/-- The leaf of an entry of level 0 or 1, through its group's first entry (R324, R395). -/
def State.walkLeaf (s : State) (va level table idx e : Nat) : Except WalkStop Leaf :=
  let stop : WalkStop := { level := level, reason := 2 }
  let bad := Except.error stop
  let ps := bitsOf e 3 2
  if !leafReservedOk e || ps == 3 || (level == 1 && ps != 2) || (level == 0 && ps == 2) then bad
  else
    let first := if ps = 0 then idx else idx - idx % 32
    let addr := table + 8 * first
    let r := s.readPte addr
    let e0 := if ps = 0 then e else r.1
    let kid := bitsOf e0 53 48
    if ps ≠ 0 && r.2.isSome then .error (s.pteStop level addr (r.2.getD .eccUncorrectable))
    else if !(bitOf e0 0) || bitOf e0 1 || !leafReservedOk e0 || bitsOf e0 3 2 != ps then bad
    else if (ps == 1 && bitsOf e0 20 16 != 0) || (ps == 2 && bitsOf e0 29 16 != 0) then bad
    else if !(s.keys.any (fun k => k.1 == kid)) then bad
    else if s.retiring == some kid then .error { stop with held := true }
    else .ok (mkLeaf e0 addr va kid ps)

/-- A walk from a level downward: the leaf, or where and why it stopped. -/
def State.walkFrom (s : State) (va : Nat) : Nat → Nat → Except WalkStop Leaf
  | level, table =>
    let idx := bitsOf va (24 + 9 * level) (16 + 9 * level)
    let addr := table + 8 * idx
    let r := s.readPte addr
    let e := r.1
    if r.2.isSome then .error (s.pteStop level addr (r.2.getD .eccUncorrectable))
    else if !bitOf e 0 then .error { level := level, reason := 1 }
    else if bitOf e 1 then
      (match level with
        | 0 => .error { level := 0, reason := 2 }
        | k + 1 => if bitsOf e 47 12 * 2 ^ 12 + 3 = e then s.walkFrom va k (bitsOf e 47 12 * 2 ^ 12) else .error { level := level, reason := 2 })
    else if 2 ≤ level then .error { level := level, reason := 2 }
    else s.walkLeaf va level table idx e
  termination_by structural level _ => level

/-- The valid leaf that a page stands under, whatever else it holds: the address of its group's first entry, and the page's frame (R329). -/
def State.leafFrame (s : State) (va : Nat) : Nat → Nat → Option (Nat × Nat)
  | level, table =>
    let idx := bitsOf va (24 + 9 * level) (16 + 9 * level)
    let r := s.readPte (table + 8 * idx)
    let e := r.1
    if r.2.isSome || !bitOf e 0 then none
    else if bitOf e 1 then
      (match level with
        | 0 => none
        | k + 1 => if bitsOf e 47 12 * 2 ^ 12 + 3 = e then s.leafFrame va k (bitsOf e 47 12 * 2 ^ 12) else none)
    else
      let ps := bitsOf e 3 2
      let addr := table + 8 * (if ps = 0 then idx else idx - idx % 32)
      let r0 := s.readPte addr
      let count := if ps = 0 then 1 else if ps = 1 then 32 else 16384
      if 2 ≤ level || r0.2.isSome || !bitOf r0.1 0 || bitOf r0.1 1 then none else some (addr, bitsOf r0.1 47 16 + (va / 65536) % count)
  termination_by structural level _ => level

/-- Whether a frame is backed: LPDDR6, the host window, or an open peer window (R291, R401, R404). -/
def State.backed (s : State) (f : Nat) : Bool :=
  let pa := 65536 * f
  if pa < hostBase then decide (pa + 65536 ≤ s.backedBytes)
  else if pa < peerBase then true
  else match s.windows[windowOf pa]? with
    | some w => w.opened && decide ((pa - peerBase) % 2 ^ 40 + 65536 ≤ w.len)
    | none => false

/-- The first frame of a leaf that breaks R291, as a reason of R337: 5 for a frame at or above FN or unbacked, 4 for a mismatch; 0 where the table's
entry cannot be read (R306). -/
def State.frameFault (s : State) (l : Leaf) : Option Nat :=
  firstKey ((List.range l.count).map (fun k => l.first + k))
where
  firstKey : List Nat → Option Nat
    | [] => none
    | f :: fs =>
      if s.fn ≤ f || !s.backed f then some 5
      else if readPoison (fun l => s.devLine l 0) (s.fatb + f / 4) 1 then some 0
      else if s.frameAttr f ≠ l.attr then some 4
      else firstKey fs

/-- The level a leaf stands at. -/
def Leaf.level (l : Leaf) : Nat := if l.ps = 2 then 1 else 0

/-- The root table of a partition. -/
def State.root (s : State) (part : Nat) : Nat := ((s.parts[part]?).map (·.root)).getD 0

/-- The walk of a page of a partition: its leaf, or the failure. A fetch's absent page carries reason 6 (log entry 27). -/
def State.walk (s : State) (part va : Nat) (fetch : Bool) : Except Failure Leaf :=
  let s := s.recallWalk va 3 (s.root part)
  match s.walkFrom va 3 (s.root part) with
  | .error w =>
    let info := if w.cause = .peerLinkDown then w.reason else walkStatus w.level (if fetch ∧ w.cause = .pageAbsent then 6 else w.reason)
    .error { cause := w.cause, ea := va, held := w.held, info := info }
  | .ok l => match s.frameFault l with
    | some r => .error { cause := if r = 0 then .eccUncorrectable else .aliasAttr, ea := va, info := walkStatus l.level r }
    | none => .ok l

/-- A bit of an entry set by an indivisible OR at its L3 home (R324, R329). -/
def State.orEntry (s : State) (addr : Nat) (bit : Nat) : State :=
  let s := s.recallSpan addr 8
  let e := natOfBytes (s.homeBytes 0 addr 8)
  if bitOf e bit then s else s.homeWrite 0 addr (bytesOf 8 (e + 2 ^ bit))

/-! ## Extents (R326) -/

/-- An extent with one of its pages taken out. -/
def Extent.without (e : Extent) (page rix : Nat) : List Extent :=
  if e.rix = rix ∧ e.vb ≤ page ∧ page ≤ e.vb + e.npg then
    (if e.vb < page then [{ e with npg := page - 1 - e.vb }] else []) ++
      (if page < e.vb + e.npg then
        [{ e with vb := page + 1, npg := e.vb + e.npg - page - 1, pf := if e.abs then 0 else e.pf + (page + 1 - e.vb) }] else [])
  else [e]

/-- The dirty state of an extent flushed into its leaf entries, with the number of pages whose dirty state is dropped because the leaf
is no longer valid or no longer has the frame that was walked (R329). -/
def State.flushExtent (s : State) (part : Nat) (e : Extent) : State × Nat :=
  if !e.d || e.abs then (s, 0)
  else (List.range (e.npg + 1)).foldl (fun (r : State × Nat) k =>
    let s := r.1.recallWalk (65536 * (e.vb + k)) 3 (r.1.root part)
    match s.leafFrame (65536 * (e.vb + k)) 3 (s.root part) with
    | some l => if l.2 = e.pf + k then (s.orEntry l.1 10, r.2) else (s, r.2 + 1)
    | none => (s, r.2 + 1)) (s, 0)

/-- An extent written for one page over what the table holds for it; a full table of 1,024 gives up its oldest entry, whose dirty
state is flushed (R326, R329). -/
def State.putExtent (s : State) (bid : Nat) (e : Extent) : State :=
  let b := s.blk bid
  let l := b.extents.flatMap (fun x => x.without e.vb e.rix) ++ [e]
  let n := l.length - 1024
  let s := (l.take n).foldl (fun s x => let r := s.flushExtent b.part x
    { r.1 with dlost := r.1.dlost + r.2 }) s
  s.modBlk bid (fun b => { b with extents := l.drop n })

/-- The extent of a page's leaf under a range. -/
def Leaf.extent (l : Leaf) (page rix : Nat) (r : RangeRec) : Extent :=
  { vb := page, npg := 0, abs := false, attr := l.attr, rd := r.rd && l.rd, w := r.w && l.w, d := false, kid := l.kid, ps := l.ps, rix := rix,
    pf := l.pf }

/-- The absent extent of a page under a range. -/
def absentExtent (page rix : Nat) (r : RangeRec) : Extent :=
  { vb := page, npg := 0, abs := true, attr := r.attr, rd := r.rd, w := r.w, d := false, kid := 0, ps := 0, rix := rix, pf := 0 }

/-- The accessed bit of a leaf set where it was 0 (R324). -/
def State.touchLeaf (s : State) (l : Leaf) : State := if l.a then s else s.orEntry l.entry 9

/-- The table entries of a walk kept by the walker (log entry 19). -/
def State.keepWalk (s : State) (va : Nat) : Nat → Nat → State
  | level, table =>
    let addr := table + 8 * bitsOf va (24 + 9 * level) (16 + 9 * level)
    let e := (s.readPte addr).1
    match level with
    | 0 => s
    | k + 1 =>
      if bitOf e 0 && bitOf e 1 then
        (if s.walkCache.any (fun x => x.1 == addr) then s
          else { s with walkCache := s.walkCache ++ [(addr, BitVec.ofNat 64 e)] }).keepWalk va k (bitsOf e 47 12 * 2 ^ 12)
      else s
  termination_by structural level _ => level

/-- The walk of a page for a block under a range, and the extent it fills (R324 to R326). -/
def State.fill (s : State) (b : Block) (page rix : Nat) (r : RangeRec) : State × Except Failure Extent :=
  let s := s.recallWalk (65536 * page) 3 (s.root b.part)
  match s.walk b.part (65536 * page) false with
  | .error f =>
    let e := absentExtent page rix r
    if f.held then (s, .error f)
    else if f.cause = .pageAbsent then
      (if (b.extent page rix).isSome then s else s.putExtent b.bid e, .error { f with ext := ((b.extent page rix).getD e).bits })
    else (s, .error f)
  | .ok l =>
    if l.attr ≠ r.attr then (s, .error { cause := .aliasAttr, info := walkStatus l.level 3 })
    else
      let s := (s.keepWalk (65536 * page) 3 (s.root b.part)).touchLeaf l
      let e := l.extent page rix r
      (s.putExtent b.bid e, .ok e)

/-- Whether an extent has a page among n from lo. -/
def Extent.meetsPages (e : Extent) (lo n : Nat) : Bool := decide (e.vb < lo + n) && decide (lo ≤ e.vb + e.npg)

/-- Whether a shoot-down of a partition's pages selects a partition (R330). -/
def shootsPart (c p : Nat) : Bool := bitOf c 4 || p == bitsOf c 3 0

/-- Whether a block's new accesses through an extent wait: a shoot-down under way covers pages of it, or its key is under retirement (R330, R396). -/
def State.barred (s : State) (b : Block) (e : Extent) : Bool :=
  ((s.shooting.map (fun q => shootsPart q.2.2 b.part && e.meetsPages q.1 q.2.1)).getD false) || (!e.abs && s.retiring == some e.kid)

/-- A page of a block under a range translated (R326): by its extent, or by a walk that fills one. -/
def State.translate (s : State) (bid page rix : Nat) (r : RangeRec) : State × Except Failure Extent :=
  let b := s.blk bid
  match b.extent page rix with
  | some e => if s.barred b e then (s, .error { cause := .pageAbsent, held := true }) else if e.abs then s.fill b page rix r else (s, .ok e)
  | none => s.fill b page rix r

/-! ## The access checks (R167) -/

/-- What an access does to its frames at step 6 (R173, R294). -/
inductive Use where
  | access (named : Option Req) (store : Bool)
  | atomic
  | slot
  /-- Range operations, which name no request type. -/
  | range
  deriving DecidableEq, Repr

/-- How an access is performed on an attribute: the request type, or none where it traps with ATTR_REQUEST (R294). -/
def Use.perform (u : Use) (a : Attr) : Option Req :=
  match u with
  | .atomic => if a = .wo then none else some .nc
  | .slot => if a = .rc then some .nc else none
  | .range => some .nc
  | .access named store =>
    match a, named with
    | .rc, none => some .si
    | .rc, some .own => none
    | .rc, some r => some r
    | .sc, some .own => none
    | .sc, _ => some .nc
    | .wo, none => some .wt
    | .wo, some .own => none
    | .wo, some .si => some (if store then .wt else .si)
    | .wo, some r => some r
    | .pv, none => some .own
    | .pv, some .si => some .own
    | .pv, some r => some r

/-- The request type code that a failing access names, or its default (R337). -/
def Use.code (u : Use) : Nat :=
  match u with
  | .access (some r) _ => reqCode r
  | _ => 3

/-- The task that owns a frame, where it is another block's (R292). -/
def State.foreignOwner (s : State) (bid frame : Nat) : Option Nat :=
  (s.pv.find? (fun p => p.1 == frame && p.2.1 != bid)).map (·.2.1)

/-- A piece of an access after translation. -/
structure Piece where
  va   : Nat
  n    : Nat
  pa   : Nat
  ext  : Extent
  req  : Req
  deriving DecidableEq, Repr

/-- The physical address of a virtual address under an extent. -/
def Extent.pa (e : Extent) (va : Nat) : Nat := 65536 * (e.pf + (va / 65536 - e.vb)) + va % 65536

/-- The place of a cause within step 4: what ends the walk, then ALIAS_ATTR, then ACCESS_RIGHTS from the leaf (R325). -/
def Cause.walkRank (c : Cause) : Nat := if c = .accessRights then 2 else if c = .aliasAttr then 1 else 0

/-- The failure of step 4 that comes first, the earlier page's at equal rank (R325). -/
def Failure.earlier (f g : Failure) : Failure := if g.cause.walkRank < f.cause.walkRank then g else f

/-- A failure with the extent entry of the address concerned. -/
def State.withExt (s : State) (bid : Nat) (f : Failure) : Failure := { f with ext := if f.cause.extent && f.ext == 0 then s.extBits bid f.ea else f.ext }

/-- Step 4 of R167 for the runs of an access: each page translated and the leaf's rights checked. The order of R325 holds over all the pages of
the access. Range operations pass over an absent page (R177). -/
def State.translateSegs (s : State) (bid : Nat) (ranges : List RangeRec) (needR needW skipAbsent : Bool) :
    List Seg → State × Except Failure (List Piece)
  | [] => (s, .ok [])
  | g :: gs =>
    let rix := g.rix.getD 0
    match ranges[rix]? with
    | none => (s, .error { cause := .rangeUndeclared, ea := g.va })
    | some r =>
      let one : State × Except Failure Extent := match s.translate bid (g.va / 65536) rix r with
        | (s1, .error f) => (s1, .error (s1.withExt bid { f with ea := g.va }))
        | (s1, .ok e) =>
          if (needR && !e.rd) || (needW && !e.w) then (s1, .error { cause := .accessRights, ea := g.va, info := 2, ext := e.bits })
          else (s1, .ok e)
      match one with
      | (s1, .error f) =>
        if skipAbsent && decide (f.cause = .pageAbsent) && !f.held then s1.translateSegs bid ranges needR needW skipAbsent gs
        else if f.cause.walkRank = 0 then (s1, .error f)
        else match s1.translateSegs bid ranges needR needW skipAbsent gs with
          | (s2, .error h) => (s2, .error (f.earlier h))
          | (s2, .ok _) => (s2, .error f)
      | (s1, .ok e) =>
        match s1.translateSegs bid ranges needR needW skipAbsent gs with
        | (s2, .error f) => (s2, .error f)
        | (s2, .ok ps) => (s2, .ok ({ va := g.va, n := g.n, pa := e.pa g.va, ext := e, req := .nc } :: ps))

/-- Steps 2 and 3 of R167 over the runs of an access. -/
def rangeFailure (ranges : List RangeRec) (needR needW : Bool) (segs : List Seg) : Option Failure :=
  match segs.find? (fun g => g.rix.isNone) with
  | some g => some { cause := .rangeUndeclared, ea := g.va }
  | none =>
    (segs.find? (fun g => match ranges[g.rix.getD 0]? with
      | some r => (needR && !r.rd) || (needW && !r.w)
      | none => false)).map (fun g => { cause := .accessRights, ea := g.va, info := 1 })

/-- Steps 2 and 3 of R167 for a block's access, with the extent entry that the record of ACCESS_RIGHTS holds (R336). -/
def State.rangeFailure (s : State) (bid : Nat) (needR needW : Bool) (segs : List Seg) : Option Failure :=
  (Machine.rangeFailure (s.launch bid).ranges needR needW segs).map (s.withExt bid)

/-- Step 5 of R167: PV_FOREIGN. -/
def State.pvFailure (s : State) (bid : Nat) (ps : List Piece) : Option Failure :=
  firstFail ps
where
  firstFail : List Piece → Option Failure
    | [] => none
    | p :: l =>
      if p.ext.attr = .pv then
        match s.foreignOwner bid (p.pa / 65536) with
        | some o => some { cause := .pvForeign, ea := p.va, ext := p.ext.bits,
                           info2 := (s.blk o).bnum + 2 ^ 32 * ((s.launch o).lra.toNat / 256 % 2 ^ 24) }
        | none => firstFail l
      else firstFail l

/-- Step 6 of R167, and the request types as performed. -/
def attrPieces (u : Use) : List Piece → Except Failure (List Piece)
  | [] => .ok []
  | p :: l => match u.perform p.ext.attr with
    | none => .error { cause := .attrRequest, ea := p.va, info := u.code, info2 := attrCode p.ext.attr, ext := p.ext.bits }
    | some r => match attrPieces u l with
      | .error f => .error f
      | .ok l => .ok ({ p with req := r } :: l)

/-- Steps 2 to 7 of R167 over a span of bytes. `det` gives the attributes on which the access traps with DET_ATOMIC. -/
def State.checkSpan (s : State) (bid ea n : Nat) (needR needW : Bool) (u : Use) (det : Attr → Bool) : State × Except Failure (List Piece) :=
  if 2 ^ 52 < ea + n then (s, .error { cause := .rangeUndeclared, ea := ea })
  else
    let ranges := (s.launch bid).ranges
    let segs := segsOf ranges ea n
    match s.rangeFailure bid needR needW segs with
    | some f => (s, .error f)
    | none => match s.translateSegs bid ranges needR needW (decide (u = .range)) segs with
      | (s1, .error f) => (s1, .error f)
      | (s1, .ok ps) => match s1.pvFailure bid ps with
        | some f => (s1, .error f)
        | none => match attrPieces u ps with
          | .error f => (s1, .error f)
          | .ok ps => match ps.find? (fun p => det p.ext.attr) with
            | some p => (s1, .error { cause := .detAtomic, ea := p.va })
            | none => (s1, .ok ps)

/-- Steps 1 to 7 of R167 for one access. -/
def State.checkAccess (s : State) (bid ea n align : Nat) (needR needW : Bool) (u : Use) (det : Attr → Bool) :
    State × Except Failure (List Piece) :=
  if ea % align ≠ 0 then (s, .error { cause := .misaligned, ea := ea, info := align })
  else match s.checkSpan bid ea n needR needW u det with
    | (s1, .error f) => (s1, .error { f with ea := ea })
    | r => r

/-- PV frames reached for the first time become the block's (R292). -/
def State.ownFrames (s : State) (bid : Nat) (ps : List Piece) : State :=
  ps.foldl (fun s p =>
    if p.ext.attr = .pv ∧ !(s.pv.any (fun o => o.1 == p.pa / 65536)) then { s with pv := s.pv ++ [(p.pa / 65536, bid, (s.blk bid).gid)] } else s) s

/-- PAGE_WALK (R324): the walker walks a page of a block for an extent miss or an absent extent, and fills the extent. -/
def execPageWalk (bid page : Nat) (s : State) : Host.Outcome State Fault Refusal :=
  let ranges := (s.launch bid).ranges
  match governing ranges (65536 * page) with
  | some rix => match ranges[rix]? with
    | some r => .next (s.translate bid page rix r).1
    | none => .next s
  | none => .next s

/-- Memory read with a partition's translation, outside any block's ranges (R307, R310): the physical pieces, or the failure. -/
def State.walkSpan (s : State) (part ea n : Nat) (needW : Bool) : Except Failure (List (Nat × Nat × Leaf)) :=
  if 2 ^ 52 < ea + n then .error { cause := .pageAbsent, ea := ea, info := 15 }
  else pieces (segsOf [] ea n)
where
  pieces : List Seg → Except Failure (List (Nat × Nat × Leaf))
    | [] => .ok []
    | g :: gs => match s.walk part g.va false with
      | .error f => .error f
      | .ok l =>
        if (if needW then !l.w else !l.rd) then .error { cause := .accessRights, ea := g.va, info := 2 }
        else match pieces gs with
          | .error f => .error f
          | .ok r => .ok ((65536 * l.pf + g.va % 65536, g.n, l) :: r)

/-- The failure of an access under a partition's translation that reaches a down window (R405). -/
def State.spanDown (s : State) (ps : List (Nat × Nat × Leaf)) : Option Failure :=
  (ps.find? (fun p => s.windowDown p.1)).map (fun p => { cause := .peerLinkDown, info := s.linkOf p.1 })

/-- The lines that an access under a partition's translation reads on its walks and at its home recalled (R367). -/
def State.recallVirt (s : State) (part ea n : Nat) : State :=
  let s := (segsOf [] ea n).foldl (fun s g => s.recallWalk g.va 3 (s.root part)) s
  match s.walkSpan part ea n false with
  | .error _ => s
  | .ok ps => ps.foldl (fun s p => s.recallSpan p.1 p.2.1) s

/-- Bytes read under a partition's translation at their L3 homes, the partials of their lines among them (R367); poisoned ones as they stand (log entry 116). -/
def State.readVirt (s : State) (part ea n : Nat) : Except Failure (List Byte) :=
  match s.walkSpan part ea n false with
  | .error f => .error f
  | .ok ps => match s.spanDown ps with
    | some f => .error f
    | none => .ok (ps.flatMap (fun p => (s.recallSpan p.1 p.2.1).homeBytes p.2.2.kid p.1 p.2.1))

/-- Bytes of a launch record or of a table it names (R311): steps 2 to 6 of R167 under the partition's translation, step 5 for the Foreman, which is no task's agent, and
step 6 for the .nc request that reads make elsewhere (log entry 97). -/
def State.readRecord (s : State) (part ea n : Nat) : Except Failure (List Byte) :=
  match s.walkSpan part ea n false with
  | .error f => .error f
  | .ok ps =>
    if ps.any (fun p => decide (p.2.2.attr = .pv) && s.pv.any (fun o => o.1 == p.1 / 65536)) then .error { cause := .pvForeign, ea := ea }
    else if ps.any (fun p => ((Use.access (some .nc) false).perform p.2.2.attr).isNone) then .error { cause := .attrRequest, ea := ea }
    else s.readVirt part ea n

/-- Bytes written under a partition's translation at their L3 homes, behind the partials of their lines (R367); a failing access writes nothing. -/
def State.writeVirt (s : State) (part ea : Nat) (l : List Byte) : Except Failure State :=
  match s.walkSpan part ea l.length true with
  | .error f => .error f
  | .ok ps => match s.spanDown ps with
    | some f => .error f
    | none => .ok (ps.foldl (fun (r : State × List Byte) p => ((r.1.recallSpan p.1 p.2.1).homeWrite p.2.2.kid p.1 (r.2.take p.2.1), r.2.drop p.2.1)) (s, l)).1

end Sys2Proof.Machine
end

