-- ==== Sys2Proof/Machine/Directory.lean ====
section
/-! DEFINITION. The L2's receipt of writes, the coherence directory, evictions and errors in the caches and memory (R288, R293, R306,
R386, R389 to R397). -/

namespace Sys2Proof.Machine

/-! ## Writes performed at .dev (R288, R293) -/

/-- The thread and ea of the lowest participant that wrote a byte of a mask; a source without participants names its unit and the
lowest byte. -/
def MWrite.culprit (w : MWrite) (bad : LineMask) : Nat × Nat :=
  match w.thrs.find? (fun t => t.2.2 &&& bad != 0) with
  | some t => (t.1, t.2.1)
  | none => (w.src.thr, 128 * w.src.vline + ((bitsSet 128 bad.toNat).headD 0))

/-- A write performed at .dev on a line that its L2 slice may write, under an extent whose D it sets: rewritten bytes of a WO line are not performed, and
the writer takes WO_REWRITE (R288, R293, R329). A frame that has left WO by then keeps no written bits (R304). -/
def State.performWrite (s : State) (w : MWrite) : State :=
  let key := woKey w.line w.kid
  let wo := w.wo && decide (s.frameAttr (w.line / 512) = .wo)
  let prior := if wo then mget 0 s.wo key else 0
  let bad := w.mask &&& prior
  let m := w.mask &&& ~~~bad
  let s := if wo then { s with wo := mput 0 s.wo key (prior ||| w.mask) } else s
  let s := (s.modL2 w.sl w.line w.kid (fun x =>
    { x with data := mergeLine x.data w.data m, dirty := x.dirty ||| m, poison := (x.poison.write m).mark (w.poison &&& m) })).sweepWo w.line w.kid
  let s := s.dirtyExtent w.src.bid (128 * w.src.vline + (bitsSet 128 m.toNat).headD 0)
  if bad = 0 then s else s.deferAt w.src .woRewrite (w.culprit bad).1 (w.culprit bad).2

/-- The acknowledged writes of an L2 slice to a line performed, in order, once it may write the line; the partials of a slot line are folded first
(R367). -/
def State.applyL2 (s : State) (sl line kid : Nat) : State :=
  let s := s.recallLine line kid
  let mine := fun (w : MWrite) => w.sl == sl && w.line == line && w.kid == kid
  let ws := s.l2w.filter mine
  ws.foldl State.performWrite { s with l2w := s.l2w.filter (fun w => !mine w) }

/-- A write that an L2 slice holds: it is performed at .dev at once where the slice may write the line, and otherwise leave to write is asked
for (R288). -/
def State.acceptL2 (s : State) (w : MWrite) : State :=
  let s := { s with l2w := s.l2w ++ [w] }
  match s.l2Find w.sl w.line w.kid with
  | some x => if x.wr then s.applyL2 w.sl w.line w.kid else s.request w.sl w.line w.kid true
  | none => s.request w.sl w.line w.kid true

/-- L2_WRITE_RECEIVE (R45, R288): an L2 slice takes the n-th write on its way and acknowledges it. A write to a pinned line waits (R289), and one line's writes arrive in
the order they were sent (R296). A write-back of an SC frame goes on to the L3 home, behind what the slice still has to perform (R304). -/
def State.l2Receive (s : State) (n : Nat) : Option State :=
  match s.netw[n]? with
  | none => none
  | some w =>
    if s.pinned w.line w.kid || (s.netw.take n).any (fun y => y.sl == w.sl && y.line == w.line && y.kid == w.kid) then none
    else if w.home then
      (if s.l2w.any (fun y => y.sl == w.sl && y.line == w.line && y.kid == w.kid) then none
        else some ((({ s with netw := s.netw.eraseIdx n } : State).homeWriteLine w.line w.kid w.mask w.data w.poison).dirtyExtent w.src.bid
          (128 * w.src.vline + (bitsSet 128 w.mask.toNat).headD 0)))
    else some (({ s with netw := s.netw.eraseIdx n } : State).acceptL2 w)

/-- L2_WRITE_RECEIVE (R288). -/
def execL2WriteReceive (n : Nat) (s : State) : Host.Outcome State Fault Refusal := .next ((s.l2Receive n).getD s)

/-! ## Regions (R389, R390) -/

/-- Whether a region of 2^sz lines from rb covers a line. -/
def covers (rb sz line : Nat) : Bool := decide (rb ≤ line) && decide (line < rb + 2 ^ sz)
/-- Whether two aligned regions meet. -/
def meets (rb sz rb2 sz2 : Nat) : Bool := covers rb sz rb2 || covers rb2 sz2 rb

def DirEntry.covers (e : DirEntry) (line kid : Nat) : Bool := e.kid == kid && Machine.covers e.rb e.sz line

/-- The directory home and the set of a line: the set is the low bits of the frame number (log entry 35). -/
def dirSet (line : Nat) : Nat × Nat := (dirHome (128 * line), line / 512 % 2048)

/-- The entries of a line's set. -/
def State.setEntries (s : State) (line : Nat) : List DirEntry := s.dir.filter (fun e => decide (dirSet e.rb = dirSet line))
/-- The ways of a line's set in use: its entries, and the way that each frame under recovery keeps for its rebuilt entry (R389, R397). -/
def State.waysUsed (s : State) (line : Nat) : Nat :=
  (s.setEntries line).length + (s.lost.filter (fun l => !l.whole && decide (dirSet l.rb = dirSet line))).length

/-- The size of the region a new entry covers: the largest aligned region of the frame that meets no entry in use. -/
def State.newRegion (s : State) (line kid : Nat) : Nat :=
  ((List.range 10).filter (fun sz =>
    let rb := line - line % 2 ^ sz
    !(s.dir.any (fun e => e.kid == kid && meets rb sz e.rb e.sz)))).getLast?.getD 0

/-- An entry replaced. -/
def State.modDir (s : State) (rb sz kid : Nat) (f : DirEntry → DirEntry) : State :=
  { s with dir := updFirst (fun e => e.rb == rb && e.sz == sz && e.kid == kid) f s.dir }
def State.dropDir (s : State) (rb sz kid : Nat) : State :=
  { s with dir := s.dir.filter (fun e => !(e.rb == rb && e.sz == sz && e.kid == kid)) }

/-- The bit of an L2 slice in SM and DM. -/
def sliceBit (x : Nat) : BitVec 32 := 1#32 <<< x

/-- Messages to or from slices that are unacknowledged over a region. -/
def State.msgsOver (s : State) (rb sz kid : Nat) : Bool :=
  (s.recQ ++ s.ackQ).any (fun m => m.kid == kid && meets m.rb m.sz rb sz)

/-- Whether the home serves a request that holds a region over a line, or invalidates a victim over it (R391, R394). -/
def DirReq.holds (r : DirReq) (line kid : Nat) : Bool :=
  ((r.begun || !r.acks.isEmpty) && r.kid == kid && covers r.rb r.sz line) ||
    (match r.vict with
      | some v => v.2.2 == kid && covers v.1 v.2.1 line
      | none => false)

/-- Whether another request holds the region of a line, or its frame is being recovered (R391, R394, R397). -/
def State.regionBusy (s : State) (id line kid : Nat) : Bool :=
  s.dirQ.any (fun r => r.id != id && r.holds line kid) ||
    s.lost.any (fun l => (l.whole && decide (dirSet line = (l.home, l.set))) || (l.kid == kid && l.rb == line - line % 512))

/-- Whether slice X owes an acknowledgement over the region of a line (R392). -/
def State.owes (s : State) (x line kid : Nat) : Bool :=
  (s.recQ ++ s.ackQ).any (fun m => m.sl == x && m.kid == kid && covers m.rb m.sz line)

/-- Room in an L2 slice, which holds 16,384 lines: the one that entered first and is not pinned is written back and dropped (R5, R289, R392; log entry
76). -/
def State.l2Room (s : State) (sl : Nat) : State :=
  let mine := s.l2.filter (fun x => x.sl == sl)
  if mine.length < 16384 then s
  else match mine.find? (fun x => !s.pinned x.line x.kid) with
    | some x => ((s.writeBackL2 x).dropL2 sl x.line x.kid).forgetWo x.line x.kid
    | none => s

/-- A request granted (R391): X joins SM, and DM for leave to write; the line stands in its L2, and with leave the acknowledged writes
are performed. A write that waited behind a fill asks for leave then (R386). -/
def State.grant (s : State) (r : DirReq) : State :=
  let s := { s with
    dir := updFirst (fun e => e.covers r.line r.kid) (fun e =>
      { e with sm := e.sm ||| sliceBit r.sl, dm := if r.write then e.dm ||| sliceBit r.sl else e.dm, qt := 0, used := s.nextId }) s.dir
    dirQ := s.dirQ.filter (fun q => q.id != r.id)
    nextId := s.nextId + 1 }
  let h := s.l3Line r.line r.kid
  let s := if (s.l3Find r.line r.kid).isSome then s else s.setL3 h
  let s := if (s.l2Find r.sl r.line r.kid).isSome then s
    else { s.l2Room r.sl with l2 := (s.l2Room r.sl).l2 ++ [{ sl := r.sl, line := r.line, kid := r.kid, data := h.data, dirty := 0, wr := false, poison := h.poison }] }
  if r.write then (s.modL2 r.sl r.line r.kid (fun x => { x with wr := true })).applyL2 r.sl r.line r.kid
  else if s.l2w.any (fun w => w.sl == r.sl && w.line == r.line && w.kid == r.kid) then s.request r.sl r.line r.kid true
  else s

/-- The request changed where it stands in the queue. -/
def State.setReq (s : State) (r : DirReq) : State := { s with dirQ := updFirst (fun q => q.id == r.id) (fun _ => r) s.dirQ }

/-- The way of a full set least recently used of those whose region no request holds, which is evicted: every slice of its SM is invalidated, and the request, which holds its own
region from then on, waits for their acknowledgements (R394). -/
def State.evictWay (s : State) (r : DirReq) (rb sz : Nat) (keep : Option DirEntry) : Option State :=
  let free := fun (e : DirEntry) => decide (some e ≠ keep) && !s.msgsOver e.rb e.sz e.kid &&
    !s.dirQ.any (fun q => q.id != r.id && !q.acks.isEmpty && q.kid == e.kid && meets q.rb q.sz e.rb e.sz)
  match leastBy (fun (e : DirEntry) => e.used) ((s.setEntries r.line).filter free) with
  | none => none
  | some v =>
    let ys := bitsSet 32 v.sm.toNat
    let r := { r with rb := rb, sz := sz, begun := true }
    if ys.isEmpty then some ((s.dropDir v.rb v.sz v.kid).setReq r)
    else
      some { s.setReq { r with acks := ys, evict := true, vict := some (v.rb, v.sz, v.kid) } with
        recQ := s.recQ ++ ys.map (fun y => { req := r.id, sl := y, rb := v.rb, sz := v.sz, kid := v.kid, inval := true, held := false }) }

/-- A conflicting request acts on slice Y = X xor 16 over a region, and waits (R391). -/
def State.actOn (s : State) (r : DirReq) (rb sz : Nat) : State :=
  let y := Nat.xor r.sl 16
  { s.setReq { r with acks := [y], rb := rb, sz := sz, evict := false, begun := true } with
    recQ := s.recQ ++ [{ req := r.id, sl := y, rb := rb, sz := sz, kid := r.kid, inval := r.write, held := false }] }

/-- An entry split into two halves that keep SM and DM, with QT = 0 (R391). -/
def State.split (s : State) (e : DirEntry) : State :=
  let h := e.sz - 1
  { s with dir := s.dir.flatMap (fun x => if x = e then [{ e with sz := h, qt := 0 }, { e with rb := e.rb + 2 ^ h, sz := h, qt := 0 }] else [x]) }

/-- Whether a request may not be taken or granted yet: its region is held (R391, R394, R397), its slice has not acknowledged a message over it (R392), or a pin keeps the line
from being written (R289). -/
def State.reqWaits (s : State) (r : DirReq) : Bool :=
  s.regionBusy r.id r.line r.kid || s.owes r.sl r.line r.kid || (r.write && s.pinned r.line r.kid)

/-- The conflict test of a request against its entry: slice Y = X xor 16 stands in SM, of a request that will write, or in DM (R391). -/
def DirEntry.conflict (e : DirEntry) (r : DirReq) : Bool := decide ((if r.write then e.sm else e.dm) &&& sliceBit (Nat.xor r.sl 16) ≠ 0)

/-- DIRECTORY_REQUEST (R391, R393, R394): the n-th request reaches its directory home, and is granted, acts on the other die's slice, or evicts a
way. It waits behind an earlier request to the region and behind a message that its own slice has not acknowledged. -/
def State.dirRequest (s : State) (n : Nat) : Option State :=
  match s.dirQ[n]? with
  | none => none
  | some r =>
    if !r.acks.isEmpty || s.reqWaits r then none
    else match s.dir.find? (fun e => e.covers r.line r.kid) with
      | none =>
        let sz := s.newRegion r.line r.kid
        let rb := r.line - r.line % 2 ^ sz
        if 8 ≤ s.waysUsed r.line then s.evictWay r rb sz none
        else
          some (({ s with dir := s.dir ++ [{ rb := rb, kid := r.kid, sz := sz, qt := 0, dm := 0, sm := 0, used := s.nextId }] } : State).grant r)
      | some e =>
        if !e.conflict r then some (s.grant r)
        else if e.sz = 0 then some (s.actOn r e.rb 0)
        else if 8 ≤ s.waysUsed r.line then (s.evictWay r e.rb e.sz (some e)).map (fun s => s.modDir e.rb e.sz e.kid (fun e => { e with qt := 0 }))
        else
          let h := e.sz - 1
          some ((s.split e).actOn r (if covers e.rb h r.line then e.rb else e.rb + 2 ^ h) h)

/-- DIRECTORY_REQUEST (R391). -/
def execDirectoryRequest (n : Nat) (s : State) : Host.Outcome State Fault Refusal := .next ((s.dirRequest n).getD s)

/-! ## Recalls, invalidations and acknowledgements (R391, R392, R397) -/

/-- Whether a message concerns an L2 line. -/
def State.concerns (s : State) (m : DirMsg) (x : L2Line) : Bool :=
  x.sl == m.sl &&
    match s.lost.find? (fun l => l.id == m.req) with
    | some l => if l.whole then decide (dirSet x.line = (l.home, l.set)) else x.kid == m.kid && covers m.rb m.sz x.line
    | none => x.kid == m.kid && covers m.rb m.sz x.line

/-- RECALL_INVALIDATION_RECEIVE (R391, R392): an L2 slice acts on the n-th message and acknowledges it. A recall writes dirty lines back and
keeps them clean; an invalidation drops every line. A pinned line delays the acknowledgement (R289). -/
def State.dirRecall (s : State) (n : Nat) : Option State :=
  match s.recQ[n]? with
  | none => none
  | some m =>
    let xs := s.l2.filter (s.concerns m)
    if xs.any (fun x => s.pinned x.line x.kid) then none
    else
      let dirty := (xs.filter (fun x => decide (x.dirty ≠ 0))).length
      let s1 := xs.foldl (fun s x =>
        let s := s.writeBackL2 x
        if m.inval then (s.dropL2 x.sl x.line x.kid).forgetWo x.line x.kid else s.modL2 x.sl x.line x.kid (fun y => { y with wr := false })) s
      some { s1 with
        recQ := s1.recQ.eraseIdx n
        ackQ := s1.ackQ ++ [{ m with held := !xs.isEmpty }]
        lost := s1.lost.map (fun l => if l.id = m.req then { l with dirty := l.dirty + dirty } else l) }

/-- RECALL_INVALIDATION_RECEIVE (R392). -/
def execRecallInvalidationReceive (n : Nat) (s : State) : Host.Outcome State Fault Refusal := .next ((s.dirRecall n).getD s)

/-- The acknowledgements of a lost entry's recovery are complete: the frame's entry is rebuilt, and a device record is made (R397). -/
def State.rebuild (s : State) (l : DirLost) : State :=
  let s := { s with lost := s.lost.filter (fun y => y.id != l.id) }
  let s := if l.whole then s
    else { s with dir := s.dir ++ [{ rb := l.rb, kid := l.kid, sz := 9, qt := 0, dm := 0, sm := 0, used := s.nextId }] }
  s.addRecord none { cause := .directoryLost, kind := 3, ea := if l.whole then l.set else 128 * l.rb, info := if l.whole then 0xFF else 16,
                     info2 := l.dirty }

/-- DIRECTORY_ACK_RECEIVE (R391, R394): the home takes the n-th acknowledgement and clears the slice; a request that waits for no other is
granted, or tried again once its way is free; so is one whose entry still names the other die's slice, an entry rebuilt meanwhile among them (R397). -/
def State.dirAck (s : State) (n : Nat) : Option State :=
  match s.ackQ[n]? with
  | none => none
  | some m =>
    let s := { s with ackQ := s.ackQ.eraseIdx n }
    match s.lost.find? (fun l => l.id == m.req) with
    | some l =>
      let l := { l with acks := l.acks.erase m.sl }
      let s := { s with lost := updFirst (fun y => y.id == l.id) (fun _ => l) s.lost }
      some (if l.acks.isEmpty then s.rebuild l else s)
    | none =>
      let y := sliceBit m.sl
      let s := s.modDir m.rb m.sz m.kid (fun e =>
        { e with dm := e.dm &&& ~~~y, sm := if m.inval || !m.held then e.sm &&& ~~~y else e.sm })
      match s.dirQ.find? (fun r => r.id == m.req) with
      | none => some s
      | some r =>
        let r1 := { r with acks := r.acks.erase m.sl }
        if !r1.acks.isEmpty then some (s.setReq r1)
        else if r.evict then some ((s.dropDir m.rb m.sz m.kid).setReq { r1 with evict := false, vict := none })
        else if s.reqWaits r || !s.dir.any (fun e => e.covers r.line r.kid && !e.conflict r) then some (s.setReq r1)
        else some (s.grant r1)

/-- DIRECTORY_ACK_RECEIVE (R391). -/
def execDirectoryAckReceive (n : Nat) (s : State) : Host.Outcome State Fault Refusal := .next ((s.dirAck n).getD s)

/-! ## Quiet ticks and errors (R393, R397) -/

/-- Whether two entries are sibling halves that may merge (R390, R393). -/
def State.mergeable (s : State) (a b : DirEntry) : Bool :=
  a.kid == b.kid && a.sz == b.sz && decide (a.sz < 9) && a.qt == 15 && b.qt == 15 && a.rb % 2 ^ (a.sz + 1) == 0 && b.rb == a.rb + 2 ^ a.sz &&
    !s.msgsOver a.rb (a.sz + 1) a.kid &&
    !s.dirQ.any (fun r => (r.begun || !r.acks.isEmpty) && r.kid == a.kid && meets r.rb r.sz a.rb (a.sz + 1)) &&
    (List.range 32).all (fun i => !((a.dm ||| b.dm).getLsbD i && (a.sm ||| b.sm).getLsbD (Nat.xor i 16)))

/-- DIRECTORY_QUIET_TICK (R393): sibling halves that stood at 15 merge, and the quiet counts of the others rise. -/
def execDirectoryQuietTick (s : State) : Host.Outcome State Fault Refusal :=
  let up := fun (e : DirEntry) => { e with qt := min 15 (e.qt + 1) }
  .next { s with dir := s.dir.filterMap (fun e =>
    if s.dir.any (fun a => s.mergeable a e) then none
    else match s.dir.find? (fun b => s.mergeable e b) with
      | some b => some { e with sz := e.sz + 1, qt := 0, dm := e.dm ||| b.dm, sm := e.sm ||| b.sm, used := max e.used b.used }
      | none => some (up e)) }

/-- A counter that saturates at its width. -/
def satAdd (w n k : Nat) : Nat := min (2 ^ w - 1) (n + k)

/-- DIRECTORY_ENTRY_ERROR (R390, R397): a one-bit error of the named entry is corrected and counted; another is recovered by a broadcast
recall with invalidation over its frame, or over every line of its home and set where RB or KID cannot be trusted. -/
def execDirectoryEntryError (entry bits : Nat) (trusted : Bool) (s : State) : Host.Outcome State Fault Refusal :=
  match s.dir[entry]? with
  | none => .next s
  | some e =>
    if bits = 0 then .next s
    else if bits = 1 then .next { s with host := { s.host with dcor := satAdd 64 s.host.dcor 1 } }
    else
      let rb := e.rb - e.rb % 512
      let l : DirLost := { id := s.nextId, rb := rb, kid := e.kid, acks := List.range 32, dirty := 0, whole := !trusted,
                           home := (dirSet e.rb).1, set := (dirSet e.rb).2 }
      .next { s with
        nextId := s.nextId + 1
        lost := s.lost ++ [l]
        dir := s.dir.filter (fun x => !(if trusted then x.kid == e.kid && covers rb 9 x.rb else decide (dirSet x.rb = dirSet e.rb)))
        recQ := s.recQ ++ (List.range 32).map (fun y => { req := l.id, sl := y, rb := rb, sz := 9, kid := e.kid, inval := true, held := false }) }

/-! ## Evictions and memory errors (R293, R306, R392) -/

/-- L2_EVICTION (R289, R392): a line is written back where it is dirty and dropped, without telling the directory. -/
def execL2Eviction (l2 line kid : Nat) (s : State) : Host.Outcome State Fault Refusal :=
  match s.l2Find l2 line kid with
  | none => .next s
  | some x => if s.pinned line kid then .next s else .next (((s.writeBackL2 x).dropL2 l2 line kid).forgetWo line kid)

/-- L3_EVICTION (R293). -/
def execL3Eviction (line kid : Nat) (s : State) : Host.Outcome State Fault Refusal := .next (s.evictL3 line kid)

/-- The bytes of a unit of LPDDR6 after an error that nothing detects, each open (log entry 37). -/
def State.garbleUnit (s : State) (unit : Nat) : State :=
  { s with mem := mputs 0 s.mem (64 * unit) ((List.range 64).map (fun k => s.remoteByte 0 (64 * unit + k))), free := s.free + 1 }

/-- MEMORY_ECC_ERROR (R306): an error of one symbol is corrected and counted; a wider one poisons its 64-byte unit. Without check symbols no error is
detected. -/
def execMemoryEccError (unit symbols : Nat) (s : State) : Host.Outcome State Fault Refusal :=
  if symbols = 0 then .next s
  else if !s.checks then .next (s.garbleUnit unit)
  else if symbols = 1 then .next { s with host := { s.host with cecc := satAdd 64 s.host.cecc 1 } }
  else .next (if s.poison.contains unit then s else { s with poison := s.poison ++ [unit] })

end Sys2Proof.Machine
end

