-- ==== Sys2Proof/Machine/Reduce.lean ====
section
/-! DEFINITION. Reduction slots and the reduction units (R96 to R98, R173 to R176, R365 to R369). -/

namespace Sys2Proof.Machine

/-! ## The L3 unit (R366) -/

/-- The partials of slots that a REDDCL declares anew discarded, and the others of those lines folded (R367; log entry 39). -/
def State.discardSlots (s : State) (pa n kid : Nat) : State :=
  let inside := fun (line : Nat) (e : Nat × PartEl) => decide (pa ≤ slotPa line e.1) && decide (slotPa line e.1 < pa + n)
  let strip := fun (p : PartLine) => if p.kid = kid then { p with els := p.els.filter (fun e => !inside p.line e) } else p
  let s := { s with partQ := s.partQ.map strip, partials := s.partials.map strip }
  let lines := (s.partQ ++ s.partials).filter (fun p => decide (p.kid = kid) && decide (pa / 128 ≤ p.line) && decide (p.line ≤ (pa + n - 1) / 128))
  lines.foldl (fun s p => s.recallLine p.line p.kid) s

/-! ## The L2 unit (R366) -/

/-- An addend folded into a partial element under an anchor. -/
def PartEl.fold (p : PartEl) (a : Int) (x : Nat) : PartEl :=
  let p := { p with count := p.count + 1 }
  if p.nan then p
  else match Fmt.f32.decode x with
    | .nan _ => { p with nan := true }
    | .inf neg => if p.x ≠ 0 then p else { p with x := if neg then -1 else 1 }
    | .fin neg m e =>
      if p.x ≠ 0 then p
      else
        let v := redAddend a ⟨if neg then -(m : Int) else m, e⟩
        if redMax < v then { p with x := 1 } else if v < -redMax then { p with x := -1 } else { p with q := p.q + v }

/-- A line's partials sent to the L3 home (R366). -/
def State.sendPartials (s : State) (p : PartLine) : State :=
  { s with partials := s.partials.filter (fun q => q.id != p.id), partQ := s.partQ ++ [p] }

/-- The partials of an L2 unit for a line. -/
def State.partOf (s : State) (sl line kid : Nat) : Option PartLine :=
  s.partials.find? (fun p => p.sl == sl && p.line == line && p.kid == kid)

/-- Room for a line at a unit that holds 256: the least recently updated line goes (R366, R369). -/
def State.partRoom (s : State) (sl : Nat) : State :=
  let mine := s.partials.filter (fun p => p.sl == sl)
  if 256 ≤ mine.length then
    match mine with
    | p :: _ => s.sendPartials p
    | [] => s
  else s

/-- An addend folded at its L2 unit into a declared slot. One whose conversion overflows takes the charge at once (R368; log entry 40). -/
def State.foldAddend (s : State) (d : Addend) (r : RedSlot) : State :=
  let line := lineOf d.pa
  let n := d.pa % 128 / 16
  let s := if (s.partOf d.sl line d.kid).isSome then s else
    let s := s.partRoom d.sl
    { s with partials := s.partials ++ [{ id := s.nextId, sl := d.sl, line := line, kid := d.kid, els := [], last := s.clock }], nextId := s.nextId + 1 }
  match s.partOf d.sl line d.kid with
  | none => s
  | some p =>
    let e := (p.els.lookup n).getD { q := 0, nan := false, x := 0, count := 0, charge := d.src }
    let e0 := e.fold r.a d.val.toNat
    let e1 := if e.x = 0 ∧ e0.x ≠ 0 then { e0 with charge := d.src } else e0
    let p1 := { p with els := p.els.filter (fun y => y.1 != n) ++ [(n, e1)], last := s.clock }
    let s := { s with partials := s.partials.filter (fun q => q.id != p.id) ++ [p1] }
    if 256 ≤ e1.count then s.sendPartials p1 else s

/-- REDUCTION_ADDEND_FOLD (R366): the n-th addend on its way reaches its L2 unit. An addend of an undeclared slot raises BAD_FORMAT and
changes nothing (R173), and one of a poisoned unit raises ECC_UNCORRECTABLE (R306). Earlier writes of the core to the line go first, and a copy of the line in its L1 is written back and dropped (R159, R176). -/
def State.foldNth (s : State) (n : Nat) : Option State :=
  match s.addQ[n]? with
  | none => none
  | some d =>
    if ((s.core d.src.core).l1Find (lineOf d.pa)).isSome then some (s.flushL1 d.src.core (lineOf d.pa))
    else if s.netw.any (fun w => w.src.core == d.src.core && w.line == lineOf d.pa && w.kid == d.kid) ||
        s.l2w.any (fun w => w.sl == d.sl && w.line == lineOf d.pa && w.kid == d.kid) then none else
    let s := { s with addQ := s.addQ.eraseIdx n }
    if readPoison (fun l => s.devLine l d.kid) (d.pa / 16 * 16) 16 then some (s.deferAt d.src .eccUncorrectable d.src.thr d.src.vline)
    else match RedSlot.ofBytes (s.homeBytes d.kid (d.pa / 16 * 16) 16) with
      | none => some (s.deferAt d.src .badFormat d.src.thr d.src.vline)
      | some r => some (s.foldAddend d r)

def execReductionAddendFold (n : Nat) (s : State) : Host.Outcome State Fault Refusal := .next ((s.foldNth n).getD s)

/-- PARTIAL_IDLE_TIMEOUT (R366): a unit sends a line's partials after 1,024 cycles without an addend to it. -/
def execPartialIdleTimeout (l2 line kid : Nat) (s : State) : Host.Outcome State Fault Refusal :=
  match s.partOf l2 line kid with
  | some p => .next (s.sendPartials p)
  | none => .next s

/-- The lines whose partials have stood for at least n cycles without an addend, the least recently updated first. -/
def State.idlePartials (s : State) (n : Nat) : Option State :=
  (s.partials.find? (fun p => decide (p.last + n ≤ s.clock))).map s.sendPartials

/-- PARTIAL_FOLD (R366): the L3 unit folds the n-th partial line it has been sent. -/
def State.foldPart (s : State) (n : Nat) : Option State :=
  match s.partQ[n]? with
  | none => none
  | some p => some (({ s with partQ := s.partQ.eraseIdx n } : State).foldLine p)

def execPartialFold (n : Nat) (s : State) : Host.Outcome State Fault Refusal := .next ((s.foldPart n).getD s)

/-- The partials of the L2 units that a touched-slice mask names sent and folded, as a release at .dev or wider requires before those units
acknowledge it (R45, R366). -/
def State.drainUnits (s : State) (tsm : W32) : State :=
  let mine := fun (p : PartLine) => tsm.getLsbD p.sl
  let ps := s.partQ.filter mine ++ s.partials.filter mine
  ps.foldl State.foldLine { s with partQ := s.partQ.filter (fun p => !mine p), partials := s.partials.filter (fun p => !mine p) }

end Sys2Proof.Machine
end

