-- ==== Sys2Proof/Machine/MemOps.lean ====
section
/-! DEFINITION. How the memory operations of threads are performed, step by step, after their issue (R158, R159, R163, R164, R166, R168
to R185, R222, R286, R294 to R300). One MEMORY_OP_COMPLETE step takes an operation as far as it can go. -/

namespace Sys2Proof.Machine

/-! ## What an operation waits for -/

/-- Whether an operation is performed in the bench (R165). -/
def MopKind.bench : MopKind → Bool
  | .ldb | .stb | .atomb => true
  | _ => false

/-- Whether an operation touches memory: every one but a division and those of the bench. -/
def MopKind.memory : MopKind → Bool
  | .divide => false
  | k => !k.bench

/-- Whether an access is to an SC frame, which is performed at the L3 home as an .ar at .sys (R295). -/
def Mop.sc (m : Mop) : Bool := m.accs.any (fun a => decide (a.attr = .sc)) && decide (m.kind ∈ [MopKind.load, .store, .atom, .acas, .red])

/-- Whether later accesses of the slice wait for the operation (R164, R178, R180, R295). -/
def Mop.fences (m : Mop) : Bool := m.acq || m.rel || decide (m.kind ∈ [MopKind.fence, .sign, .ifence])

/-- The lines that an access touches. -/
def Access.touches (a b : Access) : Bool :=
  decide (0 < a.bytes) && decide (0 < b.bytes) && decide (a.pa / 128 ≤ (b.pa + b.bytes - 1) / 128) && decide (b.pa / 128 ≤ (a.pa + a.bytes - 1) / 128)

/-- Whether an operation meets a line of an earlier operation of its slice (R159). -/
def Mop.meets (m y : Mop) : Bool := m.accs.any (fun a => y.accs.any (fun b => a.touches b))

/-- The operations of a slice issued before another. -/
def Slice.before (sl : Slice) (m : Mop) : List Mop := sl.mops.filter (fun y => decide (y.iss < m.iss) && decide (y.kind ≠ .divide))

/-- Whether an operation waits for an earlier one of its slice (R159, R164, R166, R178, R180). -/
def Slice.blocks (sl : Slice) (m : Mop) : Bool :=
  (sl.before m).any (fun y =>
    if m.kind.bench then decide (y.kind = .fence)
    else if m.kind = .fence then true
    else y.kind.memory && (y.fences || m.rel || decide (m.kind = .tfence) || m.meets y))

/-- Whether a QSIGN or BAR issued before a point in any slice of the block has not yet ordered its slice's earlier accesses: the accesses
issued after it wait, so that a slice released by the quorum sees them (R209, R298). -/
def State.signPending (s : State) (bid iss : Nat) : Bool :=
  (s.blk bid).slices.any (fun sl => sl.mops.any (fun y => decide (y.kind = .sign) && decide (y.iss < iss)))

/-- The spans that the engine commands and Loom operations of a block issued before a point read and write until they complete. -/
def State.spansBefore (s : State) (bid iss : Nat) : List Span :=
  (s.cmds.filter (fun c => c.bid == bid && decide (c.iss < iss) && decide (c.stage ≠ .finished))).flatMap (fun c => c.spans) ++
    ((s.blk bid).loomQ.filter (fun o => decide (o.iss < iss))).flatMap (fun o => o.spans) ++
    (s.mxvs.filter (fun c => c.bid == bid && decide (c.iss < iss))).flatMap (fun c => c.spans)

/-- Whether two runs of bytes share a unit of g bytes. -/
def overlap (g a n b k : Nat) : Bool := decide (0 < n) && decide (0 < k) && decide (a / g ≤ (b + k - 1) / g) && decide (b / g ≤ (a + n - 1) / g)

/-- The bench operations of a block's slices issued before a point. -/
def Block.benchOps (b : Block) (iss : Nat) : List Mop :=
  b.slices.flatMap (fun sl => sl.mops.filter (fun m => m.kind.bench && decide (m.iss < iss)))

/-- Whether a bench access to a run of bytes waits for an engine or Loom access issued before it (R166, R256). -/
def State.benchHeld (s : State) (bid iss lo n : Nat) (write : Bool) : Bool :=
  (s.spansBefore bid iss).any (fun p => !p.mem && (write || p.write) && overlap 256 p.lo p.n lo n)

/-- Whether an engine's bench access waits for an engine access or a bench instruction issued before it (R166, R256). -/
def State.engineHeld (s : State) (bid iss lo n : Nat) (write : Bool) : Bool :=
  s.benchHeld bid iss lo n write ||
    ((s.blk bid).benchOps iss).any (fun m => (write || decide (m.kind ≠ .ldb)) && m.accs.any (fun a => overlap 256 a.ea a.bytes lo n))

/-- The addresses under which a block's extents reach a byte of memory that an access reaches as `ea` (R326; log entry 110). -/
def Block.views (b : Block) (ea pa : Nat) : List Nat :=
  ea :: b.extents.filterMap (fun e =>
    if !e.abs && decide (e.pf ≤ pa / 65536) && decide (pa / 65536 ≤ e.pf + e.npg) then some (65536 * (e.vb + (pa / 65536 - e.pf)) + pa % 65536) else none)

/-- Whether an access meets a line of some spans of memory that are read, under whatever mapping of the block (R231). -/
def Block.readIn (b : Block) (l : List Span) (a : Access) : Bool :=
  let reads := l.filter (fun p => p.mem && !p.write)
  !reads.isEmpty && (b.views a.ea a.pa).any (fun v => reads.any (fun p => overlap 128 p.lo p.n v a.bytes))

/-- Whether a store or atomic waits because an engine command or Loom operation issued before it has yet to read the line (R231,
R255). -/
def State.readHeld (s : State) (bid iss : Nat) (a : Access) : Bool := (s.blk bid).readIn (s.spansBefore bid iss) a

/-! ## The operation in its slice -/

def State.modMop (s : State) (bid i id : Nat) (f : Mop → Mop) : State :=
  s.modSl bid i (fun sl => { sl with mops := updFirst (fun m => m.id == id) f sl.mops })

/-- The source that an operation's writes and addends name. -/
def Mop.source (m : Mop) (core bid i thr ea : Nat) : Source :=
  { core := core, bid := bid, slice := i, seq := m.seq, op := m.id, flag := m.flag, tag := none, pc := m.pc, word := m.word, thr := thr,
    unit := 0, vline := ea / 128 }

/-- An access of an operation marked done with the value it met. -/
def Mop.did (m : Mop) (k old : Nat) : Mop := { m with accs := updAt (fun a => { a with done := true, old := old }) k m.accs }

/-- The values that a completed operation delivers: none after a fault (R169). -/
def Mop.outcome (m : Mop) : Option (List (RegDest × W32)) := if m.bad then none else some m.values

/-- What an attempt at one access comes to. -/
inductive Got where
  /-- It waits, and nothing changed. -/
  | block
  /-- Something was asked for or written back; the access is tried again. -/
  | more (s : State)
  /-- It is performed with a value. -/
  | value (s : State) (v : Nat)
  /-- It met a fault. -/
  | fault (s : State) (c : Cause)

/-! ## Home reads (R300) -/

/-- Whether an atomic or an addend of the core to a line is still to be performed (R159, R386). -/
def State.ownAtomic (s : State) (core line kid : Nat) : Bool :=
  s.atomQ.any (fun r => (s.blk r.bid).core == core && r.line == line && r.kid == kid) ||
    s.addQ.any (fun d => d.src.core == core && lineOf d.pa == line && d.kid == kid)
/-- Whether a write of the core to a line is still on its way. -/
def State.ownWrite (s : State) (core line kid : Nat) : Bool := s.netw.any (fun w => w.src.core == core && w.line == line && w.kid == kid)
/-- Whether an access of the core to a line is still on its way, which a later one waits for (R159, R386). -/
def State.ownPending (s : State) (core line kid : Nat) : Bool := s.ownWrite core line kid || s.ownAtomic core line kid

/-- A fault that an access met, recorded as a deferred trap; the operation writes none of its result (R169). -/
def State.badAccess (s : State) (bid i : Nat) (m : Mop) (k : Nat) (a : Access) (c : Cause) : State :=
  (s.deferAt (m.source (s.blk bid).core bid i a.thr a.ea) c a.thr a.ea (if c = .peerLinkDown then s.linkOf a.pa else 0)).modMop bid i m.id (fun y => { y.did k 0 with bad := true })

/-- Bytes of another device's memory, each read open (log entries 8 and 9). -/
def State.remoteRead (s : State) (kid pa n : Nat) : Got :=
  if s.windowDown pa then .fault s .peerLinkDown
  else .value { s with free := s.free + 1 } (natOfBytes ((List.range n).map (fun k => s.remoteByte kid (pa + k))))

/-- A response to a read, with the poison of a payload lost on the fabric (R385, R306). -/
def State.respond (s : State) (d : LineData × Pois) (use : State → LineData × Pois → Got) : Got :=
  if s.lostRead then use { s with lostRead := false } (d.1, { unit := 0, word := BitVec.allOnes 16 }) else use s d

/-- A line at its L2 home on the core's die, asked for where the slice does not hold it; the partials of a slot line are folded first
(R367). -/
def State.homeLine (s : State) (core line kid : Nat) (use : State → LineData × Pois → Got) : Got :=
  let s := s.recallLine line kid
  let sl := l2Home (dieOf core) line
  if s.ownPending core line kid then .block
  else match s.l2Find sl line kid with
    | some x => s.respond (s.overlay sl line kid (x.data, x.poison)) use
    | none =>
      if s.requested sl line kid then .block else .more (s.request sl line kid false)

/-- The number that n bytes of a line from an offset spell. -/
def lineNat (d : LineData) (o n : Nat) : Nat := (d.toNat >>> (8 * o)) % 2 ^ (8 * n)

/-- Whether any byte of a run is poisoned in a line value. -/
def runPoisoned (p : Pois) (o n : Nat) : Bool := decide (p ≠ Pois.none) && (anyWords (spanMask o n) &&& p.words) != 0

/-! ## The L1 (R285, R286) -/

/-- The sectors that a run of bytes touches. -/
def sectorsOf (o n : Nat) : BitVec 4 :=
  (List.range 4).foldl (fun m k => if overlap 32 (32 * k) 32 o n then m ||| (1#4 <<< k) else m) 0

/-- The bytes of a set of sectors. -/
def sectorBytes (m : BitVec 4) : LineMask := (bitsSet 4 m.toNat).foldl (fun x k => x ||| spanMask (32 * k) 32) 0

/-- Sectors fetched into an L1 line with the poison of their bytes, dirty bytes keeping their value (R306). -/
def L1Line.fill (x : L1Line) (secs : BitVec 4) (d : LineData × Pois) : L1Line :=
  let m := sectorBytes secs &&& ~~~x.dirty
  { x with data := mergeLine x.data d.1 m, valid := x.valid ||| secs, poison := (x.poison &&& ~~~m) ||| (d.2.bytes &&& m) }

/-- The L1 line of an access, a blank one where none is held. -/
def State.l1Line (s : State) (core line : Nat) : L1Line := ((s.core core).l1Find line).getD (L1Line.blank line)

/-- A load performed as .own, .si or .wt (R286). A .wt load first writes back the copy's dirty bytes (R159). An acquire at .die or wider whose bytes are not all dirty is a home read (R300). -/
def State.l1Load (s : State) (core : Nat) (a : Access) (acqHome : Bool) : Got :=
  let line := lineOf a.pa
  let o := a.pa % 128
  let need := spanMask o a.bytes
  let x := s.l1Line core line
  if a.req = .wt ∧ x.dirty ≠ 0 then .more (s.writeBackL1 core x (BitVec.allOnes 128))
  else
    let x := { x with o := x.o || decide (a.req = .own) }
    if (!acqHome || (need &&& x.dirty == need)) && (need &&& x.known == need) then
      if x.poison &&& need ≠ 0 then .fault s .eccUncorrectable
      else .value (s.putL1 core x) (lineNat x.data o a.bytes)
    else s.homeLine core line a.kid (fun s d =>
      if runPoisoned d.2 o a.bytes then .fault s .eccUncorrectable
      else
        let y := x.fill (sectorsOf o a.bytes) d
        .value (s.putL1 core y) (lineNat y.data o a.bytes))

/-- A load performed as .nc: a line present in the L1 is written back and dropped, and the bytes are read at the home (R286). -/
def State.ncLoad (s : State) (core : Nat) (a : Access) : Got :=
  let line := lineOf a.pa
  if ((s.core core).l1Find line).isSome then .more (s.flushL1 core line)
  else s.homeLine core line a.kid (fun s d =>
    if runPoisoned d.2 (a.pa % 128) a.bytes then .fault s .eccUncorrectable else .value s (lineNat d.1 (a.pa % 128) a.bytes))

/-- Whether a write that the L2 home of a die has acknowledged is still to be performed at .dev: a home read by that die at the L3 waits for it
(R300). -/
def State.diePending (s : State) (core line kid : Nat) : Bool := s.l2w.any (fun w => w.sl == l2Home (dieOf core) line && w.line == line && w.kid == kid)

/-- A load of an SC frame, performed at the L3 home (R295). -/
def State.scLoad (s : State) (core : Nat) (a : Access) : Got :=
  let line := lineOf a.pa
  if ((s.core core).l1Find line).isSome then .more (s.flushL1 core line)
  else if s.ownPending core line a.kid || s.diePending core line a.kid then .block
  else
    let s := s.recallLine line a.kid
    s.respond (s.devLine line a.kid) (fun s d =>
      if runPoisoned d.2 (a.pa % 128) a.bytes then .fault s .eccUncorrectable else .value s (lineNat d.1 (a.pa % 128) a.bytes))

/-- One participant's load. -/
def State.loadAccess (s : State) (core : Nat) (m : Mop) (a : Access) : Got :=
  if isRemote a.pa then s.remoteRead a.kid a.pa a.bytes
  else if a.attr = .sc then s.scLoad core a
  else if a.req = .nc then s.ncLoad core a
  else s.l1Load core a (m.acq && decide (2 ≤ m.oc))

/-- A store into the L1 (R286): the line is allocated without a fetch, and the bytes become dirty bytes of the storing slice, under its key and virtual line. -/
def L1Line.store (x : L1Line) (who : ByteOwner) (own : Bool) (d : LineData) : L1Line :=
  let mask := who.mask
  let others := (x.owners.map (fun w => { w with mask := w.mask &&& ~~~mask })).filter (fun w => w.mask != 0)
  let same := fun (w : ByteOwner) => decide ({ w with mask := mask } = who)
  { x with data := mergeLine x.data d mask, dirty := x.dirty ||| mask, o := x.o || own, poison := x.poison &&& ~~~mask,
           owners := others.filter (fun w => !same w) ++ [{ who with mask := (others.filter same).foldl (fun a w => a ||| w.mask) mask }] }

/-! ## Stores -/

/-- The bytes of an access in its line, and those of a store that no later participant of the instruction stores. -/
def Access.mask (a : Access) : LineMask := spanMask (a.pa % 128) a.bytes
def Access.kept (a : Access) : LineMask := a.mask &&& ~~~a.skip
def Access.lineData (a : Access) : LineData := BitVec.ofNat 1024 (a.data % 2 ^ (8 * a.bytes)) <<< (8 * (a.pa % 128))

/-- A clean L1 line that a .wt store writes through: its valid bytes are updated, and sectors that hold poison are fetched anew (R286, R306). -/
def L1Line.through (y : L1Line) (kept : LineMask) (d : LineData) : L1Line :=
  let bad := (List.range 4).foldl (fun (m : BitVec 4) k => if y.poison &&& spanMask (32 * k) 32 = 0 then m else m ||| (1#4 <<< k)) 0
  { y with data := mergeLine y.data d (kept &&& sectorBytes y.valid), valid := y.valid &&& ~~~bad, poison := 0 }

/-- The part of a participant's store that the core's L1 and the L3 home perform; the writes of .wt and .nc are sent afterwards. -/
def State.storeAccess (s : State) (core bid i : Nat) (m : Mop) (a : Access) (k : Nat) : State :=
  let line := lineOf a.pa
  if s.windowDown a.pa then s.badAccess bid i m k a .peerLinkDown
  else
    let s := s.dirtyExtent bid a.ea
    if isRemote a.pa then { s with free := s.free + 1 }
    else
      let s := s.recallLine line a.kid
      if a.attr = .sc then (s.flushL1 core line).homeWriteLine line a.kid a.kept a.lineData
      else match a.req with
        | .own | .si =>
          s.putL1 core ((s.l1Line core line).store { bid := bid, slice := i, kid := a.kid, vline := a.ea / 128, mask := a.kept, seq := m.seq, flag := m.flag, pc := m.pc, word := m.word, thr := a.thr }
            (decide (a.req = .own)) a.lineData)
        | .wt =>
          match (s.core core).l1Find line with
          | some x =>
            let s := s.writeBackL1 core x (BitVec.allOnes 128)
            s.modCore core (fun c => match c.l1Find line with
              | some y => c.setL1 (L1Line.through y a.kept a.lineData)
              | none => c)
          | none => s
        | .nc => s.flushL1 core line

/-- Whether a participant's store travels to the L2 home. -/
def Access.travels (a : Access) : Bool := !isRemote a.pa && decide (a.attr ≠ .sc) && decide (a.req = .wt ∨ a.req = .nc)

/-- The writes of a slice's store sent, one for each line, the bytes of its participants merged first (R293). -/
def State.sendStores (s : State) (core bid i : Nat) (m : Mop) : State :=
  let l := m.accs.filter Access.travels
  (firstKeys (l.map (fun a => (lineOf a.pa, a.kid)))).foldl (fun s p =>
    let mine := l.filter (fun a => decide ((lineOf a.pa, a.kid) = p))
    let a0 := mine.headD Access.blank
    s.send { id := 0, sl := l2Home (dieOf core) p.1, line := p.1, kid := p.2, mask := mine.foldl (fun x a => x ||| a.kept) 0,
             data := mine.foldl (fun d a => mergeLine d a.lineData a.kept) 0, poison := 0, wo := mine.any (fun a => decide (a.attr = .wo)),
             src := m.source core bid i a0.thr a0.ea, thrs := mine.map (fun a => (a.thr, a.ea, a.kept)) }) s

/-- Whether a store that leaves the core waits: for an atomic or addend of the core to its line, and in an SC frame also for the L1's copy and for what the
core and its die's L2 still have on the way there (R159, R300, R386). -/
def State.storeWaits (s : State) (core : Nat) (a : Access) : Bool :=
  let line := lineOf a.pa
  !isRemote a.pa && (if a.attr = .sc then s.ownPending core line a.kid || s.diePending core line a.kid
    else a.travels && s.ownAtomic core line a.kid)
/-- The L1's copies of the lines of an SC store, written back first. -/
def State.storeFirst (s : State) (core : Nat) (m : Mop) : Option State :=
  (m.accs.find? (fun a => !isRemote a.pa && decide (a.attr = .sc) && ((s.core core).l1Find (lineOf a.pa)).isSome)).map (fun a => s.flushL1 core (lineOf a.pa))

/-- Every participant's store. -/
def State.performStores (s : State) (core bid i : Nat) (m : Mop) : State :=
  ((m.accs.mapIdx (fun k a => (k, a))).foldl (fun s p => s.storeAccess core bid i m p.2 p.1) s).sendStores core bid i m

/-! ## Atomics (R170, R171) -/

/-- The memory value an atomic leaves: its operation code and type, the value met, and the operand. Of two NaNs the one met in memory comes
first (R85; log entry 88). -/
def atomicValue (ty : Ty) (op m b : Nat) : Nat :=
  let w := if ty.is64 then 64 else 32
  let sgn := fun x => elemInt ty w x
  if op = 6 then b
  else if ty = .f32 then
    (if op = 0 then fAdd Fmt.f32 .rne false m b else fMinMax Fmt.f32 (decide (op = 2)) m b)
  else if op = 0 then (m + b) % 2 ^ w
  else if op = 1 then (if sgn b < sgn m then b else m)
  else if op = 2 then (if sgn m < sgn b then b else m)
  else if op = 3 then Nat.land m b
  else if op = 4 then Nat.lor m b
  else Nat.xor m b

/-- The type and the operation of an instruction word. -/
def wordTy (w : W96) : Ty := Ty.ofCode (w.extractLsb' 9 4)
def wordMod (w : W96) (hi lo : Nat) : Nat := bitsOf w.toNat (13 + hi) (13 + lo)

/-- The value that an ATOM, ACAS, RED or ATOMB leaves at its address. -/
def Mop.after (m : Mop) (a : Access) (old : Nat) : Nat :=
  if m.kind = .acas then (if old = a.data then a.data2 else old) else atomicValue (wordTy m.word) (wordMod m.word 2 0) old a.data

/-- The next access of an atomic: the L1's copy of the line is written back and dropped, and the operation goes to its home (R171). -/
def State.sendAtomic (s : State) (core bid i : Nat) (m : Mop) (k : Nat) (a : Access) : Option State :=
  let line := lineOf a.pa
  if isRemote a.pa then
    match s.remoteRead a.kid a.pa a.bytes with
    | .value s v => some ((s.dirtyExtent bid a.ea).modMop bid i m.id (fun y => y.did k v))
    | .fault s c => some (s.badAccess bid i m k a c)
    | _ => none
  else if s.readHeld bid m.iss a then none
  else if s.atomQ.any (fun r => r.op == m.id) then none
  else if ((s.core core).l1Find line).isSome then some (s.flushL1 core line)
  else if s.ownPending core line a.kid then none
  else
    let s := s.recallLine line a.kid
    some { s with atomQ := s.atomQ ++ [{ id := s.nextId, sl := l2Home (dieOf core) line, bid := bid, slice := i, op := m.id, part := k,
                                         line := line, kid := a.kid }], nextId := s.nextId + 1 }

/-- An atomic performed at its home on a line value: the memory value after it is written by `write`. -/
def State.doAtomic (s : State) (r : AtomReq) (m : Mop) (a : Access) (d : LineData × Pois)
    (write : State → LineMask → LineData → State) : State :=
  let s := { s with atomQ := s.atomQ.filter (fun q => q.id != r.id) }
  if runPoisoned d.2 (a.pa % 128) a.bytes then s.badAccess r.bid r.slice m r.part a .eccUncorrectable
  else
    let old := lineNat d.1 (a.pa % 128) a.bytes
    let s := (write s a.mask (BitVec.ofNat 1024 (m.after a old) <<< (8 * (a.pa % 128)))).dirtyExtent r.bid a.ea
    s.modMop r.bid r.slice m.id (fun y => y.did r.part old)

/-- The n-th atomic at or on its way to its home, once no copy of its line stands in the issuing core's L1 (R171): performed at the L2 slice once it may write the line, or at the L3 home for an SC
frame (R288, R295, R365). -/
def State.atomNth (s : State) (n : Nat) : Option State :=
  match s.atomQ[n]? with
  | none => none
  | some r =>
    match (s.sl r.bid r.slice).mops.find? (fun m => m.id == r.op) with
    | none => some { s with atomQ := s.atomQ.eraseIdx n }
    | some m => match m.accs[r.part]? with
      | none => some { s with atomQ := s.atomQ.eraseIdx n }
      | some a =>
        let s := s.recallLine r.line r.kid
        let core := (s.blk r.bid).core
        if s.pinned r.line r.kid then none
        else if ((s.core core).l1Find r.line).isSome then some (s.flushL1 core r.line)
        else if s.ownWrite core r.line r.kid then none
        else if a.attr = .sc ∧ s.diePending (s.blk r.bid).core r.line r.kid then none
        else if a.attr = .sc then some (s.doAtomic r m a (s.devLine r.line r.kid) (fun s k d => s.homeWriteLine r.line r.kid k d))
        else match s.l2Find r.sl r.line r.kid with
          | some x =>
            if x.wr then
              some (s.doAtomic r m a (x.data, x.poison) (fun s k d => s.modL2 r.sl r.line r.kid (fun x =>
                { x with data := mergeLine x.data d k, dirty := x.dirty ||| k, poison := x.poison.write k })))
            else if s.requested r.sl r.line r.kid then none
            else some (s.request r.sl r.line r.kid true)
          | none =>
            if s.requested r.sl r.line r.kid then none
            else some (s.request r.sl r.line r.kid true)

/-- ATOMIC_PERFORM (R365). -/
def execAtomicPerform (n : Nat) (s : State) : Host.Outcome State Fault Refusal := .next ((s.atomNth n).getD s)

/-! ## Reduction buffers (R174 to R176) -/

/-- The core's L1 lines that a run of bytes touches. -/
def State.l1Over (s : State) (core pa n : Nat) : List L1Line := (s.core core).l1.filter (fun x => overlap 128 (128 * x.line) 128 pa n)

/-- Whether the slice's own earlier addends to the lines of a run are still on their way (R176). -/
def State.addsPending (s : State) (bid i pa n : Nat) : Bool :=
  s.addQ.any (fun d => d.src.bid == bid && d.src.slice == i && overlap 128 d.pa 16 pa n)

/-- A slot access at the home: the L1's dirty bytes of its lines are written back, and their copies dropped where the access writes; the core's own
writes, those acknowledged at its die's L2, and the slice's own addends go first (R159, R300; log entry 94). -/
def State.atSlots (s : State) (core bid i pa n : Nat) (write : Bool) (go : State → Got) : Got :=
  match (s.l1Over core pa n).find? (fun x => write || x.dirty != 0) with
  | some x => .more (if write then s.flushL1 core x.line else s.writeBackL1 core x (BitVec.allOnes 128))
  | none =>
    if s.addsPending bid i pa n || s.netw.any (fun w => w.src.core == core && overlap 128 (128 * w.line) 128 pa n) ||
      s.l2w.any (fun w => decide (w.sl / 16 = dieOf core) && overlap 128 (128 * w.line) 128 pa n) then .block else go s

/-- REDRD of one slot (R98, R176). -/
def State.redRead (s : State) (core bid i : Nat) (m : Mop) (a : Access) : Got :=
  if isRemote a.pa then s.remoteRead a.kid a.pa 4
  else s.atSlots core bid i a.pa 16 (decide (m.arg = 1)) (fun s =>
    let s := s.recallLine (lineOf a.pa) a.kid
    if runPoisoned (s.devLine (lineOf a.pa) a.kid).2 (a.pa % 128) 16 then .fault s .eccUncorrectable
    else match RedSlot.ofBytes (s.homeBytes a.kid a.pa 16) with
      | none => .fault s .badFormat
      | some r =>
        let s1 := if m.arg = 1 then (s.homeWrite a.kid a.pa ({ r with i := 0, stk := false } : RedSlot).bytes).dirtyExtent bid a.ea else s
        .value s1 (Machine.redRead r.a r.i))

/-- The slot that a REDDCL descriptor declares: A in bits [8:0] and TE in bit 9 (R174). -/
def declSlot (b : Nat) : RedSlot := { i := 0, a := signedOf 9 (bitsOf b 8 0), te := bitOf b 9, stk := false }

/-- A piece of a REDDCL's range written (R174). -/
def State.declare (s : State) (core bid i : Nat) (a : Access) : Got :=
  if isRemote a.pa then (if s.windowDown a.pa then .fault s .peerLinkDown else .value { s.dirtyExtent bid a.ea with free := s.free + 1 } 0)
  else s.atSlots core bid i a.pa a.bytes true (fun s =>
    let s := s.discardSlots a.pa a.bytes a.kid
    let pat := (declSlot a.data).bytes
    .value ((s.homeWrite a.kid a.pa ((List.range a.bytes).map (fun k => (pat[(a.ea + k) % 16]?).getD 0))).dirtyExtent bid a.ea) 0)

/-- REDF: a participant's addend sent to its L2 unit, which counts as a write for release (R45, R175, R176). -/
def State.sendAddend (s : State) (core pa kid : Nat) (val : W32) (src : Source) : State :=
  let sl := l2Home (dieOf core) (lineOf pa)
  let d : Addend := { id := s.nextId, sl := sl, pa := pa, kid := kid, val := val, src := src }
  let s := { s with addQ := s.addQ ++ [d], nextId := s.nextId + 1 }
  s.modSl src.bid src.slice (fun x => { x with tsm := x.tsm ||| (1#32 <<< sl) })

def State.redAdd (s : State) (core bid i : Nat) (m : Mop) (k : Nat) (a : Access) : State :=
  if s.windowDown a.pa then s.badAccess bid i m k a .peerLinkDown
  else
    let s := s.dirtyExtent bid a.ea
    if isRemote a.pa then { s with free := s.free + 1 }
    else (s.flushL1 core (lineOf a.pa)).sendAddend core a.pa a.kid (BitVec.ofNat 32 a.data) { m.source core bid i a.thr a.ea with vline := a.ea }

/-! ## Range operations (R177) -/

/-- What a range operation does to one L1 line: RWB keeps it clean, RINV discards its dirty bytes inside the range, and both RINV and
RWBI drop it. -/
def State.rangeLine (s : State) (core : Nat) (kind : MopKind) (lo n : Nat) (x : L1Line) : State :=
  if kind = .rwb then s.writeBackL1 core x (BitVec.allOnes 128)
  else if kind = .rinv then
    let first := if 128 * x.line ≤ lo then lo - 128 * x.line else 0
    let last := min 128 (lo + n - 128 * x.line)
    let inside := spanMask first (last - first)
    let owners := (x.owners.map (fun w => { w with mask := w.mask &&& ~~~inside })).filter (fun w => w.mask != 0)
    let y : L1Line := { x with dirty := x.dirty &&& ~~~inside, owners := owners }
    (s.modCore core (fun c => c.setL1 y)).flushL1 core x.line
  else s.flushL1 core x.line

/-- The L1 lines of a range acted on. -/
def State.rangeL1 (s : State) (core : Nat) (kind : MopKind) (a : Access) : State :=
  (s.l1Over core a.pa a.bytes).foldl (fun s x => s.rangeLine core kind a.pa a.bytes x) s

/-- The dirty L2 data of a range written to L3 by the slices of a die. -/
def State.rangeL2 (s : State) (die : Nat) (a : Access) : State :=
  (s.l2.filter (fun x => decide (x.sl / 16 = die) && overlap 128 (128 * x.line) 128 a.pa a.bytes)).foldl State.writeBackL2 s

/-- The partials of slot lines in a range folded (R367). -/
def State.rangeSlots (s : State) (a : Access) : State :=
  ((s.partials ++ s.partQ).filter (fun p => overlap 128 (128 * p.line) 128 a.pa a.bytes)).foldl (fun s p => s.recallLine p.line p.kid) s

/-- Whether write-backs of a range by a core before a point are on their way, or held at its die's L2 unperformed. -/
def State.rangePending (s : State) (core bar : Nat) (l2 : Bool) (a : Access) : Bool :=
  s.netw.any (fun w => w.src.core == core && decide (w.id < bar) && overlap 128 (128 * w.line) 128 a.pa a.bytes) ||
    (l2 && s.l2w.any (fun w => decide (w.sl / 16 = dieOf core) && overlap 128 (128 * w.line) 128 a.pa a.bytes))

/-! ## Prefetch (R183) and harvest (R184) -/

/-- A prefetch: the line enters the level named, a poisoned or remote one being dropped. -/
def State.prefetch (s : State) (core : Nat) (m : Mop) (a : Access) : Got :=
  let line := lineOf a.pa
  if isRemote a.pa then .value s 0
  else if m.arg = 2 then .value (if (s.l3Find line a.kid).isSome then s else s.setL3 (s.l3Line line a.kid)) 0
  else s.homeLine core line a.kid (fun s d =>
    if m.arg = 1 ∨ d.2 ≠ Pois.none ∨ !(a.req = .si ∨ a.req = .own ∨ a.req = .wt) then .value s 0
    else
      let x := s.l1Line core line
      .value (s.putL1 core (({ x with o := x.o || decide (a.req = .own) } : L1Line).fill 15 d)) 0)

/-- The dirty state of a block's extents flushed into their leaf entries, the extents staying (R184, R329). -/
def State.flushBlock (s : State) (b : Block) : State :=
  let r := b.extents.foldl (fun (r : State × Nat) e => let q := r.1.flushExtent b.part e; (q.1, r.2 + q.2)) (s, 0)
  { r.1.modBlk b.bid (fun b => { b with extents := b.extents.map (fun e => { e with d := false }) }) with dlost := s.dlost + r.2 }

/-- HARVEST over the resident blocks of a set of partitions. -/
def State.harvest (s : State) (parts : Nat) : State :=
  (s.blocks.filter (fun b => bitOf parts b.part && decide (b.loc ≠ .saved))).foldl State.flushBlock s

/-! ## The bench (R165, R166) -/

/-- A bench byte run as a number. -/
def Block.benchNat (b : Block) (a n : Nat) : Nat := natOfBytes (mgets 0 b.bench a n)
/-- Bytes written to the bench; a 64-bit word written whole loses its poison. -/
def Block.benchWrite (b : Block) (a : Nat) (l : List Byte) : Block :=
  { b with bench := mputs 0 b.bench a l, bpois := b.bpois.filter (fun w => !(decide (a ≤ 8 * w) && decide (8 * w + 8 ≤ a + l.length))) }
def Block.benchPoisoned (b : Block) (a n : Nat) : Bool := b.bpois.any (fun w => overlap 8 (8 * w) 8 a n)

/-- One participant's bench access, performed at the bench point. -/
def State.benchAccess (s : State) (bid i : Nat) (m : Mop) (k : Nat) (a : Access) : State :=
  let b := s.blk bid
  let old := b.benchNat a.ea a.bytes
  if m.kind = .stb then s.modBlk bid (fun b => b.benchWrite a.ea (bytesOf a.bytes a.data))
  else if b.benchPoisoned a.ea a.bytes then s.badAccess bid i m k a .eccUncorrectable
  else if m.kind = .ldb then s.modMop bid i m.id (fun y => y.did k old)
  else (s.modBlk bid (fun b => b.benchWrite a.ea (bytesOf a.bytes (m.after a old)))).modMop bid i m.id (fun y => y.did k old)

/-- A bench operation performed whole at the bench point, once every bench operation of the block issued before it has been and no
engine access to its granules issued before it is outstanding. -/
def State.benchStep (s : State) (bid i : Nat) (m : Mop) : Option State :=
  if !((s.blk bid).benchOps m.iss).isEmpty || m.accs.any (fun a => s.benchHeld bid m.iss a.ea a.bytes (decide (m.kind ≠ .ldb))) then none
  else
    let s := (m.accs.mapIdx (fun k a => (k, a))).foldl (fun s p => s.benchAccess bid i m p.1 p.2) s
    let m := ((s.sl bid i).mops.find? (fun y => y.id == m.id)).getD m
    some (s.endOp bid i m m.outcome)

/-! ## One step of an operation -/

/-- The write-backs that a remote-scope promotion asks of every core (R181). -/
def State.promote (s : State) : State :=
  (List.range s.cores.length).foldl (fun s c => (s.core c).l1.foldl (fun s x => if x.o then s else s.writeBackL1 c x x.promo) s) s

/-- Whether the writes that a release at an order code awaits are performed at its scope: those of its core sent before a point acknowledged, and,
for a scope wider than .die, those that its die's L2 acknowledged before it performed at .dev (R45, R180, R288, R299; log entry 31). -/
def State.released (s : State) (core oc bar : Nat) : Bool :=
  decide (oc ≤ 1) || (!s.netw.any (fun w => w.src.core == core && decide (w.id < bar)) &&
    (decide (oc ≤ 2) || !s.l2w.any (fun w => decide (w.sl / 16 = dieOf core) && decide (w.id < bar))))
def State.releaseDone (s : State) (core : Nat) (m : Mop) : Bool := s.released core m.oc m.bar

/-- Whether an operation of the same instruction in a lower slice has yet to perform its accesses (R158, R171). -/
def State.groupHeld (s : State) (bid : Nat) (m : Mop) : Bool :=
  m.grp != 0 && (s.blk bid).slices.any (fun sl => sl.mops.any (fun y => y.grp == m.grp && decide (y.iss < m.iss) && decide (y.stage ≠ 5)))
/-- Whether some operation of the same instruction has yet to perform its accesses: a store completes when every slice's has been performed, so that
a later access of its slice sees the byte that stands (R158, R159). -/
def State.groupOpen (s : State) (bid : Nat) (m : Mop) : Bool :=
  m.grp != 0 && (s.blk bid).slices.any (fun sl => sl.mops.any (fun y => y.grp == m.grp && decide (y.stage ≠ 5)))

/-- The deferred trap of a memory instruction that a release takes when its wait for the slice's earlier accesses ends (R169; log entry
33). -/
def Slice.releaseTrap (sl : Slice) (m : Mop) : Option Trap :=
  if m.kind = .tfence then none else (sl.dueDeferred (fun d => d.mem && decide (d.seq < m.seq))).map (fun d => d.taken sl.pc)

/-- An attempt at the next access of an operation that is performed access by access. -/
def State.nextAccess (s : State) (bid i : Nat) (m : Mop) (go : State → Access → Got) : Option State :=
  match m.accs.findIdx? (fun a => !a.done) with
  | none => none
  | some k => match m.accs[k]? with
    | none => none
    | some a => match go s a with
      | .block => none
      | .more s => some s
      | .value s v => some (s.modMop bid i m.id (fun y => y.did k v))
      | .fault s c => some (s.badAccess bid i m k a c)

/-- The end of an operation: an acquire of .die or wider drops the L1's non-dirty .si bytes (R163, R180), a TFENCE the walker's entries
(R182), an IFENCE the instruction cache and the fetch translations (R222, R328). -/
def State.finishOp (s : State) (core bid i : Nat) (m : Mop) : State :=
  let s := if m.acq ∧ 2 ≤ m.oc then s.l1Acquire core else s
  let s := if m.kind = .tfence then { s with walkCache := [] } else s
  let s := if m.kind = .ifence then s.modCore core (fun c => { c with icache := [], itlb := [] }) else s
  s.endOp bid i m m.outcome

/-- The performance of an operation's accesses (stage 4), and the wait for what it has sent (stage 5). A store to a WO line also waits for the test of its
written bits, so that its flag shows WO_REWRITE (R293; log entry 112). -/
def State.performOp (s : State) (core bid i : Nat) (m : Mop) : Option State :=
  let done := m.accs.all (fun a => a.done)
  let set5 := fun (s : State) => s.modMop bid i m.id (fun y => { y with stage := 5, bar := s.nextId })
  match m.kind with
  | .load => if done then some (s.finishOp core bid i m) else s.nextAccess bid i m (fun s a => s.loadAccess core m a)
  | .redrd => if done then some (s.finishOp core bid i m) else s.nextAccess bid i m (fun s a => s.redRead core bid i m a)
  | .reddcl => if done then some (s.finishOp core bid i m) else s.nextAccess bid i m (fun s a => s.declare core bid i a)
  | .pref => if done then some (s.finishOp core bid i m) else s.nextAccess bid i m (fun s a => s.prefetch core m a)
  | .atom | .acas | .red =>
    if done then some (s.finishOp core bid i m)
    else match m.accs.findIdx? (fun a => !a.done) with
      | none => none
      | some k => match m.accs[k]? with
        | none => none
        | some a => s.sendAtomic core bid i m k a
  | .store =>
    if m.stage = 5 then
      (if s.groupOpen bid m || s.netw.any (fun w => w.src.op == m.id && w.src.bid == bid) || s.l2w.any (fun w => w.wo && w.src.op == m.id && w.src.bid == bid) then none
        else some (s.finishOp core bid i m))
    else if m.accs.any (fun a => s.readHeld bid m.iss a) then none
    else match s.storeFirst core m with
      | some s => some s
      | none => if m.accs.any (s.storeWaits core) then none else some (set5 (s.performStores core bid i m))
  | .redf =>
    if m.stage = 5 then
      (if s.addQ.any (fun d => d.src.op == m.id && d.src.bid == bid) then none else some (s.finishOp core bid i m))
    else some (set5 ((m.accs.mapIdx (fun k a => (k, a))).foldl (fun s p => s.redAdd core bid i m p.1 p.2) s))
  | .rwb | .rinv | .rwbi =>
    if m.stage = 5 then
      (if m.accs.any (fun a => s.rangePending core m.bar (decide (m.arg = 1)) a) then none
        else some ((if m.arg = 1 then m.accs.foldl (fun s a => s.rangeL2 (dieOf core) a) s else s).finishOp core bid i m))
    else if m.accs.any (fun a => s.readHeld bid m.iss a) then none
    else some (set5 (m.accs.foldl (fun s a => (s.rangeSlots a).rangeL1 core m.kind a) s))
  | .harvest => some ((s.harvest m.arg).finishOp core bid i m)
  | .fence | .tfence | .ifence | .sign => some (s.finishOp core bid i m)
  | .ldb | .stb | .atomb | .divide => none

/-- One step of a memory operation of a slice: none where it waits. Stages 0 and 1 are a remote-scope promotion (R181), 2 and 3 a
release (R180), 4 and 5 the accesses. -/
def State.mopStep (s : State) (bid i : Nat) (m : Mop) : Option State :=
  let core := (s.blk bid).core
  if m.kind = .divide || m.absent || (s.sl bid i).blocks m || s.signPending bid m.iss then none
  else if m.kind.bench then s.benchStep bid i m
  else if m.stage = 0 then some ((s.promote).modMop bid i m.id (fun y => { y with stage := 1, bar := s.promote.nextId }))
  else if m.stage = 1 then
    (if (s.netw ++ s.l2w).any (fun w => decide (w.id < m.bar)) then none
      else some (s.modMop bid i m.id (fun y => { y with stage := if y.rel then 2 else 4 })))
  else if m.stage = 2 then
    let s1 := if 2 ≤ m.oc then s.l1Release core else s.l1Mark core
    let s1 := if m.kind = .tfence then s1.l1OwnFlush core bid i else s1
    some (s1.modMop bid i m.id (fun y => { y with stage := 3, bar := s1.nextId }))
  else if m.stage = 3 then
    if s.releaseDone core m then
      let s1 := if 3 ≤ m.oc then s.drainUnits (s.sl bid i).tsm else s
      let s2 := if 2 ≤ m.oc then s1.modSl bid i (fun sl => { sl with tsm := 0 }) else s1
      let s3 := s2.modMop bid i m.id (fun y => { y with stage := 4 })
      match (s3.sl bid i).releaseTrap m with
      | some t => some (s3.takeTrap bid t)
      | none => some s3
    else none
  else if m.stage = 4 ∧ s.groupHeld bid m then none
  else s.performOp core bid i m

/-- A step of the operation of an identity. -/
def State.opStep (s : State) (bid i op : Nat) : Option State :=
  match (s.sl bid i).mops.find? (fun m => m.id == op) with
  | some m => s.mopStep bid i m
  | none => none

/-- MEMORY_OP_COMPLETE (R168): the operation goes one step further towards its completion point, and at it lowers its flag. -/
def execMemoryOpComplete (bid i op : Nat) (s : State) : Host.Outcome State Fault Refusal := .next ((s.opStep bid i op).getD s)

end Sys2Proof.Machine
end

