-- ==== Sys2Proof/Machine/Memory.lean ====
section
/-! DEFINITION. The 22 instructions of group 0x100 at their issue: addresses, widths, checks of every participant, and the operation that
begins (R156 to R185). Their performance is in MemOps. -/

namespace Sys2Proof.Machine

/-! ## Addresses and data (R156, R157) -/

/-- One access an instruction asks for. -/
structure Want where
  slice : Nat
  thr   : Nat
  ea    : Nat
  bytes : Nat
  align : Nat
  data  : Nat
  data2 : Nat
  dests : List (RegDest × Nat)
  deriving DecidableEq, Repr

/-- The positions of a slice that access memory: one for a uniform instruction (R158). -/
def Ctx.units (x : Ctx) (s : State) (i : Nat) : List Nat := if x.uniform then (x.parts s i).take 1 else x.parts s i

/-- The effective address in memory: base pair and offset modulo 2^64 (R156). -/
def Ctx.ea (x : Ctx) (s : State) (i t : Nat) : Nat := (x.src64 s i t x.f.oa + x.src64 s i t x.f.ob).toNat
/-- The address of an instruction without an offset. -/
def Ctx.base (x : Ctx) (s : State) (i t : Nat) : Nat := (x.src64 s i t x.f.oa).toNat
/-- The bench address modulo 2^32 (R156). -/
def Ctx.benchEa (x : Ctx) (s : State) (i t : Nat) : Nat := (s.srcReg x.bid i t x.f.oa 0 + (x.src64 s i t x.f.ob).setWidth 32).toNat

/-- The bench address of an instruction without an offset. -/
def Ctx.benchBase (x : Ctx) (s : State) (i t : Nat) : Nat := (s.srcReg x.bid i t x.f.oa 0).toNat

/-- The bytes of one register access that a data operand's view chooses, and the first of its bytes (R157). -/
def dataBytes (o : Opnd) : Nat × Nat :=
  match o with
  | .lane _ v sel | .uni _ v sel =>
    let m := (destMask v sel).toNat
    if m = 0xFFFFFFFF then (4, 0) else if m = 0xFFFF then (2, 0) else if m = 0xFFFF0000 then (2, 2)
    else if m = 0xFF then (1, 0) else if m = 0xFF00 then (1, 1) else if m = 0xFF0000 then (1, 2) else (1, 3)
  | _ => (4, 0)

/-- The registers of an access's data, and its width in bytes (R157, R162). -/
def Ctx.dataRegs (x : Ctx) : Nat :=
  let n := if keyIn x.key [0x102, 0x103, 0x106, 0x107] then (if x.mod 5 3 = 0 then 2 else 4) else 1
  if x.ty.is64 then 2 * n else n
def Ctx.width (x : Ctx) : Nat := if x.dataRegs = 1 then (dataBytes x.f.od).1 else 4 * x.dataRegs

/-- The registers that the result of an access of position t goes to: that position's, or every active one's for a uniform instruction
(R158). -/
def Ctx.loadWrites (x : Ctx) (s : State) (i t n : Nat) : List (RegWrite × Nat) :=
  let one := fun t => (destWrites x.f.od t (List.replicate n 0)).mapIdx (fun j w => (w, j))
  match x.f.od with
  | .uni .. => one t
  | _ => if x.uniform then (x.parts s i).flatMap one else one t

/-- The number that a store's data registers spell. -/
def Ctx.storeData (x : Ctx) (s : State) (i t : Nat) : Nat :=
  if x.dataRegs = 1 then (x.d s i t).toNat / 2 ^ (8 * (dataBytes x.f.od).2)
  else sumNat ((List.range x.dataRegs).map (fun j => (s.srcReg x.bid i t x.f.od j).toNat * 2 ^ (32 * j)))

/-- The accesses of every served slice, slices and positions ascending (R158, R167). -/
def Ctx.wants (x : Ctx) (s : State) (f : Nat → Nat → Want) : List Want := x.v.slices.flatMap (fun i => (x.units s i).map (f i))

/-! ## Checks (R167) -/

/-- What the checks of R167 ask of an instruction's accesses. -/
structure Probe where
  needR : Bool
  needW : Bool
  use   : Use
  det   : Attr → Bool

/-- The trap of a failing check. -/
def Ctx.failed (x : Ctx) (i t : Nat) (f : Failure) : Trap := { x.trap f.cause i t f.ea f.info f.info2 with ext := f.ext }

/-- The checks of R167 over a list of accesses, in order: the state with the walks made, and the pieces of each access or the trap of the
first that fails, none where that access waits (R330, R396). -/
def Ctx.probe (x : Ctx) (p : Probe) (s : State) : List Want → State × Except (Option Trap) (List (Want × List Piece))
  | [] => (s, .ok [])
  | w :: ws =>
    match s.checkAccess x.bid w.ea w.bytes w.align p.needR p.needW p.use p.det with
    | (s1, .error f) => (s1, .error (if f.held then none else some (x.failed w.slice w.thr f)))
    | (s1, .ok ps) => match x.probe p s1 ws with
      | (s2, .error t) => (s2, .error t)
      | (s2, .ok l) => (s2, .ok ((w, ps) :: l))

/-- The issue of an instruction whose checks may walk: `chk s1` reads its operands in the state `s1` and makes its walks in another; a
trap keeps the walks. An access that waits makes the turn empty. -/
def issueVia {α : Type} (key : Nat) (f : Fields) (chk : Ctx → State → State → State × Except (Option Trap) α) (eff : Ctx → State → α → State)
    (s : State) : Host.Outcome State Fault Refusal :=
  match s.visit with
  | none => .fault .noVisit
  | some v =>
    let x := Ctx.make key f v s
    let s1 := x.begin s
    match x.check s s1 with
    | some t => .next (x.trapped s t)
    | none => match chk x s1 s1 with
      | (s2, .ok a) => .next (x.finish (x.cost s) (x.deferPoison s1 (eff x s2 a)))
      | (_, .error (some t)) => .next (x.trapped (chk x s1 s).1 t)
      | (_, .error none) => .next (s.emptyTurn v (fun _ => false))

/-! ## Operations begun -/

/-- The access of a checked want of one piece. -/
def Want.access (w : Want) (ps : List Piece) : Access :=
  match ps with
  | [] => { Access.blank with thr := w.thr, ea := w.ea }
  | p :: _ => { thr := w.thr, ea := w.ea, bytes := w.bytes, pa := p.pa, kid := p.ext.kid, req := p.req, attr := p.ext.attr, data := w.data,
                data2 := w.data2, dests := w.dests, done := false, old := 0, skip := 0 }

/-- The accesses of a checked span, one for each piece. -/
def Want.span (w : Want) (ps : List Piece) : List Access :=
  ps.map (fun p => { Access.blank with thr := w.thr, ea := p.va, bytes := p.n, pa := p.pa, kid := p.ext.kid, attr := p.ext.attr, data := w.data })

/-- How an operation orders: its OC and directions, those of an access to an SC frame being .ar at .sys (R160, R172, R295). -/
def Mop.ordered (m : Mop) (oc : Nat) (acq rel : Bool) : Mop :=
  let sc := m.sc
  let on := decide (oc ≠ 0) && !m.accs.isEmpty
  let m := { m with oc := if sc then 4 else oc, acq := sc || (on && acq), rel := sc || (on && rel),
                    promo := on && acq && decide (oc = 5 ∨ oc = 6) }
  { m with stage := if m.promo then 0 else if m.rel then 2 else 4 }

/-- A bench access. -/
def Want.atBench (w : Want) : Access :=
  { Access.blank with thr := w.thr, ea := w.ea, bytes := w.bytes, data := w.data, dests := w.dests }

/-- The operation of each served slice begun, with the accesses that its participants were granted, and n registers of result each (R61,
R168); the operations of one instruction form a group (R158). -/
def Ctx.startOps (x : Ctx) (s : State) (accs : List (Nat × Access)) (n : Nat) (mk : List Access → Mop) : State :=
  x.v.slices.foldl (fun acc i =>
    let ws := if n = 0 then [] else (x.units s i).flatMap (fun t => (x.loadWrites s i t n).map (fun w => w.1))
    x.startOp acc i { mk ((accs.filter (fun p => p.1 == i)).map (fun p => p.2)) with grp := s.iss + 1 } ws) s

/-- Every frame of a PV page reached for the first time becomes the block's (R292). -/
def Ctx.own (x : Ctx) (s : State) (l : List (Want × List Piece)) : State := l.foldl (fun s p => s.ownFrames x.bid p.2) s

/-- The accesses of checked wants, one each. -/
def single (l : List (Want × List Piece)) : List (Nat × Access) := l.map (fun p => (p.1.slice, p.1.access p.2))
/-- The accesses of checked spans, one for each piece. -/
def spanning (l : List (Want × List Piece)) : List (Nat × Access) := l.flatMap (fun p => (p.1.span p.2).map (fun a => (p.1.slice, a)))

/-- The destinations of an access, each with its word. -/
def Ctx.loadDests (x : Ctx) (s : State) (i t n : Nat) : List (RegDest × Nat) := (x.loadWrites s i t n).map (fun w => (w.1.dest, w.2))

/-- An access of some bytes, aligned to their number. -/
def wantOf (i t ea bytes data : Nat) (dests : List (RegDest × Nat)) : Want :=
  { slice := i, thr := t, ea := ea, bytes := bytes, align := bytes, data := data, data2 := 0, dests := dests }

/-- A request type named, or none for the attribute's default (R161). -/
def Ctx.named (x : Ctx) : Option Req := if x.md.getLsbD 2 then some (reqOfCode (x.mod 1 0)) else none

/-- A value delivered to part of a register stands at that part's positions: its first byte (R157). -/
def Ctx.firstByte (x : Ctx) : Nat := if x.dataRegs = 1 then (dataBytes x.f.od).2 else 0

/-! ## Loads and stores (R161 to R163) -/

/-- The checks of LD and LDV. -/
def Ctx.loadCheck (x : Ctx) (s1 s : State) : State × Except (Option Trap) (List (Want × List Piece)) :=
  x.probe { needR := true, needW := false, use := .access x.named false, det := fun _ => false } s
    (x.wants s1 (fun i t => wantOf i t (x.ea s1 i t) x.width 0 (x.loadDests s1 i t x.dataRegs)))
/-- The loads begin, with the order code of an acquire. -/
def Ctx.loadBegin (order : Nat) (x : Ctx) (s : State) (l : List (Want × List Piece)) : State :=
  x.startOps (x.own s l) (single l) x.dataRegs (fun accs =>
    Mop.ordered { Mop.blank with kind := .load, accs := accs, arg := x.firstByte } order true false)

/-- LD (R162). -/
def execLd (f : FormR) : State → Host.Outcome State Fault Refusal :=
  issueVia 0x100 (.r f) Ctx.loadCheck (fun x => x.loadBegin (x.mod 5 3))
/-- LDV (R162). -/
def execLdv (f : FormR) : State → Host.Outcome State Fault Refusal := issueVia 0x102 (.r f) Ctx.loadCheck (Ctx.loadBegin 0)

/-- A .si release store of .die or wider is performed as .wt (R163). -/
def Access.released (oc : Nat) (a : Access) : Access := if 2 ≤ oc ∧ a.req = .si then { a with req := .wt } else a

/-- The checks of ST and STV. -/
def Ctx.storeCheck (x : Ctx) (s1 s : State) : State × Except (Option Trap) (List (Want × List Piece)) :=
  x.probe { needR := false, needW := true, use := .access x.named true, det := fun _ => false } s
    (x.wants s1 (fun i t => wantOf i t (x.ea s1 i t) x.width (x.storeData s1 i t) []))
/-- Of two participants that store one byte the later stands (R158): each access leaves out the bytes that a later one stores. -/
def laterWins : List (Nat × Access) → List (Nat × Access)
  | [] => []
  | p :: l =>
    (p.1, { p.2 with skip := l.foldl (fun m q => if lineOf q.2.pa = lineOf p.2.pa ∧ q.2.kid = p.2.kid then m ||| q.2.mask else m) 0 }) :: laterWins l

/-- The stores begin, with the order code of a release. -/
def Ctx.storeBegin (order : Nat) (x : Ctx) (s : State) (l : List (Want × List Piece)) : State :=
  x.startOps (x.own s l) (laterWins (single l)) 0 (fun accs =>
    Mop.ordered { Mop.blank with kind := .store, accs := accs.map (Access.released order) } order false true)

/-- ST (R162). -/
def execSt (f : FormR) : State → Host.Outcome State Fault Refusal :=
  issueVia 0x101 (.r f) Ctx.storeCheck (fun x => x.storeBegin (x.mod 5 3))
/-- STV (R162). -/
def execStv (f : FormR) : State → Host.Outcome State Fault Refusal := issueVia 0x103 (.r f) Ctx.storeCheck (Ctx.storeBegin 0)

/-! ## The bench (R165, R166) -/

/-- The checks of a bench access: alignment, then the share's bounds (R165, R167), then DET_ATOMIC (R185). -/
def Ctx.benchCheck (x : Ctx) (s : State) (det : Bool) (w : Want) : Option Trap :=
  if w.ea % w.align ≠ 0 then some (x.trap .misaligned w.slice w.thr w.ea w.align)
  else if (s.blk x.bid).bsize < w.ea + w.bytes then some (x.trap .indexBounds w.slice w.thr w.ea w.ea (s.blk x.bid).bsize)
  else if det then some (x.trap .detAtomic w.slice w.thr w.ea)
  else none

/-- The accesses of LDB and LDBV, and of STB and STBV. -/
def Ctx.benchLoads (x : Ctx) (s : State) : List Want :=
  x.wants s (fun i t => wantOf i t (x.benchEa s i t) x.width 0 (x.loadDests s i t x.dataRegs))
def Ctx.benchStores (x : Ctx) (s : State) : List Want := x.wants s (fun i t => wantOf i t (x.benchEa s i t) x.width (x.storeData s i t) [])

/-- The operations of a bench instruction begin in every served slice, with n registers of result. -/
def Ctx.benchBegin (x : Ctx) (s : State) (kind : MopKind) (l : List Want) (n : Nat) : State :=
  x.startOps s (l.map (fun w => (w.slice, w.atBench))) n (fun accs => { Mop.blank with kind := kind, accs := accs, arg := x.firstByte })

/-- A bench instruction. -/
def benchOp (key : Nat) (f : FormR) (kind : MopKind) (n : Ctx → Nat) (det : Ctx → State → Bool) (wants : Ctx → State → List Want) :
    State → Host.Outcome State Fault Refusal :=
  issueTry key (.r f) (fun x s => firstSome (x.benchCheck s (det x s)) (wants x s)) (fun x s => x.benchBegin s kind (wants x s) (n x))

/-- LDB (R165). -/
def execLdb (f : FormR) : State → Host.Outcome State Fault Refusal := benchOp 0x104 f .ldb Ctx.dataRegs (fun _ _ => false) Ctx.benchLoads
/-- STB (R165). -/
def execStb (f : FormR) : State → Host.Outcome State Fault Refusal := benchOp 0x105 f .stb (fun _ => 0) (fun _ _ => false) Ctx.benchStores
/-- LDBV (R165). -/
def execLdbv (f : FormR) : State → Host.Outcome State Fault Refusal := benchOp 0x106 f .ldb Ctx.dataRegs (fun _ _ => false) Ctx.benchLoads
/-- STBV (R165). -/
def execStbv (f : FormR) : State → Host.Outcome State Fault Refusal := benchOp 0x107 f .stb (fun _ => 0) (fun _ _ => false) Ctx.benchStores

/-! ## Atomics (R170 to R172, R185) -/

/-- The words of a value of the instruction's type. -/
def Ctx.tyRegs (x : Ctx) : Nat := if x.ty.is64 then 2 else 1
/-- The operand b of an atomic. -/
def Ctx.opndB (x : Ctx) (s : State) (i t : Nat) : Nat := if x.ty.is64 then (x.src64 s i t x.f.ob).toNat else (x.b s i t).toNat

/-- Whether a deterministic launch allows a reduction: an integer .add, .min, .max, .and, .or or .xor (R185), B32 counting as an integer
type (log entry 87). -/
def Ctx.detOp (x : Ctx) : Bool := decide (x.mod 2 0 ≠ 6) && decide (x.ty ≠ .f32)

/-- The checks of ATOM, ACAS and RED: `dest` says that they have a result, `legal` that a deterministic launch allows them, and `data` gives
their operands. -/
def Ctx.atomicCheck (dest : Bool) (legal : Ctx → Bool) (data : Ctx → State → Nat → Nat → Nat × Nat) (x : Ctx) (s1 s : State) :
    State × Except (Option Trap) (List (Want × List Piece)) :=
  x.probe { needR := true, needW := true, use := .atomic, det := fun a => s1.det x.bid && !legal x && decide (a ≠ .pv) } s
    (x.wants s1 (fun i t =>
      { wantOf i t (x.base s1 i t) (4 * x.tyRegs) (data x s1 i t).1 (if dest then x.loadDests s1 i t x.tyRegs else []) with
        data2 := (data x s1 i t).2 }))
/-- The atomics begin. -/
def Ctx.atomicBegin (kind : MopKind) (dest : Bool) (x : Ctx) (s : State) (l : List (Want × List Piece)) : State :=
  x.startOps (x.own s l) (single l) (if dest then x.tyRegs else 0) (fun accs =>
    Mop.ordered { Mop.blank with kind := kind, accs := accs } (x.mod 5 3) true true)
/-- The operands of ATOM and RED. -/
def Ctx.oneB (x : Ctx) (s : State) (i t : Nat) : Nat × Nat := (x.opndB s i t, 0)

/-- ATOM (R171). -/
def execAtom (f : FormR) : State → Host.Outcome State Fault Refusal :=
  issueVia 0x108 (.r f) (Ctx.atomicCheck true (fun _ => false) Ctx.oneB) (Ctx.atomicBegin .atom true)

/-- Register group OB of an ACAS: cmp, then swap (R171). -/
def Ctx.casPair (x : Ctx) (s : State) (i t : Nat) : Nat × Nat :=
  let w := fun j => (s.srcReg x.bid i t x.f.ob j).toNat
  if x.ty.is64 then (w 0 + 2 ^ 32 * w 1, w 2 + 2 ^ 32 * w 3) else (w 0, w 1)

/-- ACAS (R171). -/
def execAcas (f : FormR) : State → Host.Outcome State Fault Refusal := 
  issueVia 0x109 (.r f) (Ctx.atomicCheck true (fun _ => false) Ctx.casPair) (Ctx.atomicBegin .acas true)
/-- RED (R171). -/
def execRed (f : FormR) : State → Host.Outcome State Fault Refusal :=
  issueVia 0x10A (.r f) (Ctx.atomicCheck false Ctx.detOp Ctx.oneB) (Ctx.atomicBegin .red false)

/-- The registers of an ATOMB's result. -/
def Ctx.atombRegs (x : Ctx) : Nat := if x.f.od = .none then 0 else x.tyRegs
/-- Whether a deterministic launch forbids an ATOMB (R185). -/
def Ctx.atombDet (x : Ctx) (s : State) : Bool := s.det x.bid && !(decide (x.f.od = .none) && x.detOp)
/-- The accesses of an ATOMB. -/
def Ctx.benchAtoms (x : Ctx) (s : State) : List Want :=
  x.wants s (fun i t =>
    wantOf i t (x.benchBase s i t) (4 * x.tyRegs) (x.opndB s i t) (if x.f.od = .none then [] else x.loadDests s i t x.tyRegs))
/-- ATOMB (R171, R185). -/
def execAtomb (f : FormR) : State → Host.Outcome State Fault Refusal := benchOp 0x10E f .atomb Ctx.atombRegs Ctx.atombDet Ctx.benchAtoms

/-! ## Reduction buffers (R173 to R176) -/

/-- Operations on slots begin, with n registers of result. -/
def Ctx.slotBegin (kind : MopKind) (n : Nat) (x : Ctx) (s : State) (l : List (Want × List Piece)) : State :=
  x.startOps s (single l) n (fun accs => { Mop.blank with kind := kind, accs := accs, arg := x.mod 0 0, stage := 4 })
/-- The checks of REDF. -/
def Ctx.redfCheck (x : Ctx) (s1 s : State) : State × Except (Option Trap) (List (Want × List Piece)) :=
  x.probe { needR := false, needW := true, use := .slot, det := fun _ => false } s
    (x.wants s1 (fun i t => wantOf i t (x.base s1 i t) 16 (x.b s1 i t).toNat []))
/-- REDF (R175). -/
def execRedf (f : FormR) : State → Host.Outcome State Fault Refusal := issueVia 0x10B (.r f) Ctx.redfCheck (Ctx.slotBegin .redf 0)

/-- The checks of REDRD. -/
def Ctx.redrdCheck (x : Ctx) (s1 s : State) : State × Except (Option Trap) (List (Want × List Piece)) :=
  x.probe { needR := true, needW := decide (x.mod 0 0 = 1), use := .slot, det := fun _ => false } s
    (x.wants s1 (fun i t => wantOf i t (x.base s1 i t) 16 0 (x.loadDests s1 i t 1)))
/-- REDRD (R176). -/
def execRedrd (f : FormR) : State → Host.Outcome State Fault Refusal := issueVia 0x10D (.r f) Ctx.redrdCheck (Ctx.slotBegin .redrd 1)

/-- The element count of a REDDCL, a source that stands in OD (R52, R156). -/
def Ctx.declN (x : Ctx) (s : State) (i t : Nat) : W32 := s.src x.bid i t x.ty x.f.od

/-- Steps 1 and 2 of REDDCL's checks for one participant (R174). -/
def Ctx.declCheck (x : Ctx) (s : State) (i t : Nat) : Option Trap :=
  let n := (x.declN s i t).toNat
  let b := (x.b s i t).toNat
  let a := signedOf 9 (bitsOf b 8 0)
  if n = 0 ∨ 2 ^ 26 < n then some (x.trap .indexBounds i t 0 n (2 ^ 26))
  else if a < -128 ∨ 128 < a ∨ bitsOf b 31 10 ≠ 0 then some (x.trap .badFormat i t 0 b)
  else none

/-- The checks of REDDCL, participant by participant (R167, R174). -/
def Ctx.probeDecl (x : Ctx) (s1 s : State) : List (Nat × Nat) → State × Except (Option Trap) (List (Want × List Piece))
  | [] => (s, .ok [])
  | (i, t) :: us =>
    match x.declCheck s1 i t with
    | some tr => (s, .error (some tr))
    | none =>
      let w := { wantOf i t (x.base s1 i t) (16 * (x.declN s1 i t).toNat) (x.b s1 i t).toNat [] with align := 16 }
      match x.probe { needR := false, needW := true, use := .slot, det := fun _ => false } s [w] with
      | (s2, .error tr) => (s2, .error tr)
      | (s2, .ok l) => match x.probeDecl s1 s2 us with
        | (s3, .error tr) => (s3, .error tr)
        | (s3, .ok r) => (s3, .ok (l ++ r))

/-- The checks of REDDCL. -/
def Ctx.reddclCheck (x : Ctx) (s1 s : State) : State × Except (Option Trap) (List (Want × List Piece)) :=
  x.probeDecl s1 s (x.v.slices.flatMap (fun i => (x.units s1 i).map (fun t => (i, t))))
/-- Operations on spans begin. -/
def Ctx.spanBegin (kind : MopKind) (x : Ctx) (s : State) (l : List (Want × List Piece)) : State :=
  x.startOps (x.own s l) (spanning l) 0 (fun accs => { Mop.blank with kind := kind, accs := accs, arg := x.mod 0 0, stage := 4 })
/-- REDDCL (R174). -/
def execReddcl (f : FormR) : State → Host.Outcome State Fault Refusal := issueVia 0x10C (.r f) Ctx.reddclCheck (Ctx.spanBegin .reddcl)

/-! ## Range operations (R177) -/

/-- The checks of RWB, RINV and RWBI over [a, a + len). -/
def Ctx.rangeCheck (needW : Bool) (x : Ctx) (s1 s : State) : State × Except (Option Trap) (List (Want × List Piece)) :=
  x.probe { needR := false, needW := needW, use := .range, det := fun _ => false } s
    ((x.wants s1 (fun i t => { wantOf i t (x.base s1 i t) (x.b s1 i t).toNat 0 [] with align := 1 })).filter (fun w => w.bytes != 0))

/-- RWB (R177). -/
def execRwb (f : FormR) : State → Host.Outcome State Fault Refusal := issueVia 0x10F (.r f) (Ctx.rangeCheck false) (Ctx.spanBegin .rwb)
/-- RINV (R177). -/
def execRinv (f : FormR) : State → Host.Outcome State Fault Refusal := issueVia 0x110 (.r f) (Ctx.rangeCheck true) (Ctx.spanBegin .rinv)
/-- RWBI (R177). -/
def execRwbi (f : FormR) : State → Host.Outcome State Fault Refusal := issueVia 0x111 (.r f) (Ctx.rangeCheck false) (Ctx.spanBegin .rwbi)

/-! ## Fences (R178 to R182) -/

/-- An operation with no access begins in every served slice in which `on` holds; elsewhere one that is performed at once. -/
def Ctx.plainBegin (x : Ctx) (s : State) (on : Nat → Bool) (m : Mop) : State :=
  x.v.slices.foldl (fun acc i => x.startOp acc i (if on i then m else { Mop.blank with kind := .pref, stage := 4 }) []) s

/-- The operation of a FENCE. -/
def Ctx.fenceMop (x : Ctx) : Mop :=
  let oc := x.mod 5 3
  let dir := x.mod 1 0
  let promo := decide (dir ≠ 2) && decide (oc = 5 ∨ oc = 6)
  { Mop.blank with kind := .fence, oc := oc, acq := decide (dir ≠ 2), rel := decide (dir ≠ 1), promo := promo,
                   stage := if promo then 0 else if dir ≠ 1 then 2 else 4 }
/-- FENCE (R178): it orders whatever the guard. -/
def execFence (f : FormR) : State → Host.Outcome State Fault Refusal :=
  issueAll 0x112 (.r f) (fun x s => x.plainBegin s (fun _ => true) x.fenceMop)

/-- The operation of a TFENCE: its wait for the slice's stores is that of a release at .dev (log entry 41). -/
def Mop.tfence : Mop := { Mop.blank with kind := .tfence, oc := 3, stage := 2 }
/-- TFENCE (R182). -/
def execTfence (f : FormR) : State → Host.Outcome State Fault Refusal :=
  issueAll 0x113 (.r f) (fun x s => x.plainBegin s (x.takes s) Mop.tfence)

/-! ## Prefetch and harvest (R183, R184) -/

/-- The prefetches that would not trap; the others are dropped (R183). The address is checked as that of an access of PREF's type,
B32 (log entry 86). -/
def Ctx.prefetches (x : Ctx) (s : State) : List Want → State × List (Want × List Piece)
  | [] => (s, [])
  | w :: ws =>
    match s.checkAccess x.bid w.ea 4 4 true false (.access none false) (fun _ => false) with
    | (s1, .error _) => x.prefetches s1 ws
    | (s1, .ok ps) => let r := x.prefetches s1 ws
      (r.1, (w, ps) :: r.2)

/-- PREF never traps. -/
def Ctx.prefCheck (x : Ctx) (s1 s : State) : State × Except (Option Trap) (List (Want × List Piece)) :=
  let r := x.prefetches s (x.wants s1 (fun i t => wantOf i t (x.ea s1 i t) 4 0 []))
  (r.1, .ok r.2)
/-- The prefetches begin. -/
def Ctx.prefBegin (x : Ctx) (s : State) (l : List (Want × List Piece)) : State :=
  x.startOps s (single l) 0 (fun accs => { Mop.blank with kind := .pref, accs := accs, arg := x.mod 1 0, stage := 4 })
/-- PREF (R183). -/
def execPref (f : FormR) : State → Host.Outcome State Fault Refusal := issueVia 0x114 (.r f) Ctx.prefCheck Ctx.prefBegin

/-- INDEX_BOUNDS of a HARVEST selector (R184). -/
def Ctx.selectorTrap (x : Ctx) (s : State) (i : Nat) : Option Trap :=
  firstSome (fun t =>
    let n := (x.a s i t).toNat
    if n < 16 ∨ n = 0xFFFFFFFF then none else some (x.trap .indexBounds i t 0 n 16)) (x.units s i)

/-- The set of extents that a slice's participants select. -/
def Ctx.selectors (x : Ctx) (s : State) (i : Nat) : Nat :=
  (x.units s i).foldl (fun m t => Nat.lor m (if (x.a s i t).toNat < 16 then 2 ^ (x.a s i t).toNat else 0xFFFF)) 0
/-- HARVEST (R184). -/
def execHarvest (f : FormR) : State → Host.Outcome State Fault Refusal :=
  issueTry 0x115 (.r f) (fun x s => firstSome (x.selectorTrap s) x.v.slices)
    (fun x s => x.v.slices.foldl (fun acc i => x.startOp acc i { Mop.blank with kind := .harvest, arg := x.selectors s i, stage := 4 } []) s)

end Sys2Proof.Machine
end

