-- ==== Sys2Proof/Machine/Subs.lean ====
section
/-! DEFINITION. The Crier's streams and subscriptions as other chapters meet them: finding one, ending one, and what a save leaves (R273, R275,
R280, R378, R379). -/

namespace Sys2Proof.Machine

/-! ## Engine commands -/

def State.modCmd (s : State) (id : Nat) (f : EngCmd → EngCmd) : State := { s with cmds := updFirst (fun c => c.id == id) f s.cmds }
def State.cmd (s : State) (id : Nat) : Option EngCmd := s.cmds.find? (fun c => c.id == id)

/-- A command that has nothing left to do: it completes with ENGINE_COMMAND_COMPLETE. -/
def State.finishId (s : State) (id : Nat) : State := s.modCmd id (fun y => { y with stage := .finished, spans := [] })

/-! ## Units, streams and subscriptions -/

def Crier.blank : Crier := { streams := [], subs := [], used := 0, last := 0 }
def State.crier (s : State) (u : Nat) : Crier := (s.criers[u]?).getD Crier.blank
def State.modCrier (s : State) (u : Nat) (f : Crier → Crier) : State := { s with criers := updAt f u s.criers }

/-- The unit of a stream (R273). -/
def crierOf (sid : Nat) : Nat := sid % 4

/-- An open stream of a partition. -/
def State.stream (s : State) (part sid : Nat) : Option Stream :=
  (s.crier (crierOf sid)).streams.find? (fun t => t.part == part && t.sid == sid)
def State.modStream (s : State) (part sid : Nat) (f : Stream → Stream) : State :=
  s.modCrier (crierOf sid) (fun k => { k with streams := updFirst (fun t => t.part == part && t.sid == sid) f k.streams })

/-- A block's subscription of a number, where it holds a record (R280). -/
def State.subAt (s : State) (bid subi : Nat) : Option Sub := (s.criers.flatMap (fun k => k.subs)).find? (fun y => y.bid == bid && y.subi == subi && !y.gone)
/-- The subscription of an identity. -/
def State.subId (s : State) (id : Nat) : Option Sub := (s.criers.flatMap (fun k => k.subs)).find? (fun y => y.id == id)
def State.modSub (s : State) (id : Nat) (f : Sub → Sub) : State :=
  { s with criers := s.criers.map (fun k => { k with subs := updFirst (fun y => y.id == id) f k.subs }) }

/-- The granules of 256 bytes that a partial of a subscription takes, from its running result (R378). -/
def Sub.gran1 (y : Sub) : Nat := (4 * y.acc.length + 255) / 256

/-- D, from the running result's 2 + D words for each row. -/
def Sub.dim (y : Sub) : Nat := y.acc.length / y.qr - 2

/-- Whether every position has been posted and merged (R279). -/
def Sub.complete (y : Sub) : Bool := !y.acc.isEmpty && y.merged == y.nl

/-- A stream closes once NSB + 1 subscriptions have been made and every one has ended (R273). -/
def Stream.over (t : Stream) : Bool := decide (t.nsb < t.made) && t.ended == t.made

/-- No page on its way is delivered to a subscription any more; a fetch with nobody left to serve is over. -/
def Crier.unsend (k : Crier) (id : Nat) : Crier :=
  { k with streams := k.streams.map (fun t => match t.fetch with
      | some (p, l, ids) => { t with fetch := if (ids.filter (fun y => y != id)).isEmpty then none else some (p, l, ids.filter (fun y => y != id)) }
      | none => t) }

/-- A subscription ends (R280): its reservations are freed, its ATSUB completes, and its stream closes if it was the last. -/
def State.endSub (s : State) (id : Nat) : State :=
  match s.subId id with
  | none => s
  | some y =>
    if y.ended then s
    else
      let s := (s.modSub id (fun z => { z with ended := true, gran := 0 })).finishId y.cmd
      s.modCrier (crierOf y.sid) (fun k =>
        let k := k.unsend id
        let streams := if y.acc.isEmpty then k.streams
          else updFirst (fun (t : Stream) => t.part == y.part && t.sid == y.sid) (fun t => { t with ended := t.ended + 1 }) k.streams
        { k with used := k.used - y.gran, streams := streams.filter (fun t => !t.over) })

/-- A subscription's record freed (R280). -/
def State.freeSub (s : State) (id : Nat) : State :=
  { s with criers := s.criers.map (fun k => { k with subs := k.subs.filter (fun y => y.id != id) }) }

/-- A subscription ended by ATUNS frees its record, at once or, where an ATMRG of it has every position and is still to write, with that ATMRG (R280). -/
def State.reapSub (s : State) (id : Nat) (merging : Bool) : State :=
  if merging then s.modSub id (fun z => { z with gone := true }) else s.freeSub id

/-- The subscriptions of a block. -/
def State.subsOf (s : State) (bid : Nat) : List Sub := (s.criers.flatMap (fun k => k.subs)).filter (fun y => y.bid == bid)

/-- Every subscription of a block ends, as at the end of its last slice (R280). -/
def State.endSubs (s : State) (bid : Nat) : State := (s.subsOf bid).foldl (fun s y => s.endSub y.id) s

/-- At retirement the records of a block are freed (R280). -/
def State.freeSubs (s : State) (bid : Nat) : State := (s.subsOf bid).foldl (fun s y => (s.endSub y.id).freeSub y.id) s

/-- A block's save gives up the reservations of positions not yet delivered, and its subscriptions are to be accepted again (R280, R379). -/
def State.saveSubs (s : State) (bid : Nat) : State :=
  (s.subsOf bid).foldl (fun s y =>
    if y.accepted && !y.ended then
      let keep := y.gran1 * (1 + y.deliv.length - y.merged)
      (s.modSub y.id (fun z => { z with accepted := false, inPass := false, allRes := false, gran := keep })).modCrier (crierOf y.sid)
        (fun k => { k.unsend y.id with used := k.used - (y.gran - keep) })
    else s) s

end Sys2Proof.Machine
end

