-- ==== Sys2Proof/Machine/LoomOrder.lean ====
section
/-! DEFINITION. The Loom order of a block: descriptors and where they read and write, entry into the order, joint formation, and the flags
that operations lower (R208, R224 to R237). -/

namespace Sys2Proof.Machine

/-! ## Descriptors (R224, R225) -/

/-- Word i of a descriptor. -/
def dW (d : List W32) (i : Nat) : Nat := ((d[i]?).getD 0).toNat
/-- Words i and i + 1 of a descriptor, the low half first. -/
def dD (d : List W32) (i : Nat) : Nat := dW d i + 2 ^ 32 * dW d (i + 1)

/-- The opcode of an instruction word. -/
def wordOpc (w : W96) : Nat := (w.extractLsb' 0 9).toNat
/-- NUM of the OD field of a word. -/
def wordTile (w : W96) : Nat := (w.extractLsb' 37 8).toNat

/-- The descriptor of n registers that an instruction reads at issue. -/
def Ctx.descriptor (x : Ctx) (s : State) (i : Nat) : List W32 := (List.range (accOA x.row x.f).dlen).map (fun j => s.srcReg x.bid i 0 x.f.oa j)

/-! ## Loom operands (R229, R230, R233) -/

/-- The bytes of an element of a type; a Q4 operand counts by blocks. -/
def tyBytes (ty : Ty) : Nat := ty.width / 8

/-- The depth K of one operation on a type (R230), doubled for LMMS. -/
def loomK (ty : Ty) (sparse : Bool) : Nat :=
  let k := if ty = .q4 then 256 else if ty = .h16x2 ∨ ty = .bf16x2 then 64 else 128
  if sparse then 2 * k else k

/-- The bytes of a row of k elements (R229). -/
def rowBytes (ty : Ty) (k : Nat) : Nat := if ty = .q4 then 18 * (k / 32) else k * tyBytes ty

/-- One operand of a matrix operation: memory or bench, base, row stride, bytes of a row, whether it has scales, their offset and the stride
and number of scale bytes of a row. -/
structure MatSrc where
  mem    : Bool
  base   : Nat
  stride : Nat
  bytes  : Nat
  scaled : Bool
  off    : Nat
  sst    : Nat
  nsc    : Nat
  deriving DecidableEq, Repr

/-- Operand A of LMMA, LMMS and LMMG. -/
def loomA (w : W96) (d : List W32) : MatSrc :=
  let ty := wordTy w
  let k := loomK ty false
  let mem := decide (wordMod w 0 0 = 1)
  { mem := mem, base := if mem then dD d 0 else dW d 0, stride := bitsOf (dW d 4) 23 0, bytes := rowBytes ty k, scaled := bitOf (dW d 4) 24,
    off := dW d 6, sst := bitsOf (dW d 4) 23 0 / (32 * tyBytes ty), nsc := k / 32 }

/-- Operand B of LMMA, LMMS and LMMG. -/
def loomB (w : W96) (d : List W32) : MatSrc :=
  let ty := wordTy w
  let k := loomK ty (decide (wordOpc w = 0x186))
  let mem := decide (wordMod w 1 1 = 1)
  { mem := mem, base := if mem then dD d 2 else dW d 2, stride := bitsOf (dW d 5) 23 0, bytes := rowBytes ty k, scaled := bitOf (dW d 5) 24,
    off := dW d 7, sst := bitsOf (dW d 5) 23 0 / (32 * tyBytes ty), nsc := k / 32 }

/-- An address of an operand: modulo 2^64 in memory and 2^32 in the bench. -/
def MatSrc.wrap (m : MatSrc) (a : Nat) : Nat := if m.mem then a % 2 ^ 64 else a % 2 ^ 32
/-- The first byte of row r. -/
def MatSrc.row (m : MatSrc) (r : Nat) : Nat := m.wrap (m.base + r * m.stride)
/-- The first scale byte of row r. -/
def MatSrc.scales (m : MatSrc) (r : Nat) : Nat := m.wrap (m.base + m.off + r * m.sst)

/-- The runs of bytes that n rows of an operand take: address and bytes. -/
def MatSrc.runs (m : MatSrc) (rows : List Nat) : List (Nat × Nat) :=
  rows.map (fun r => (m.row r, m.bytes)) ++ (if m.scaled then rows.map (fun r => (m.scales r, m.nsc)) else [])

/-- Words of metadata in a row of LMMS, its base and stride (R233). -/
def metaWords (ty : Ty) : Nat := loomK ty true / 32
def metaRow (d : List W32) (m : Nat) : Nat := bitsOf (dW d 8) 20 0 + m * bitsOf (dW d 9) 23 0

/-- The rows of a corner of ROWS + 1 by COLS + 1 elements (R237). -/
def cornerRows (d : List W32) : Nat := bitsOf (dW d 3) 7 0 + 1
def cornerCols (d : List W32) : Nat := bitsOf (dW d 3) 15 8 + 1
def cornerStride (d : List W32) : Nat := bitsOf (dW d 2) 23 0

/-- The place of a corner's row m: memory modulo 2^64, or the bench. -/
def cornerRow (mem : Bool) (d : List W32) (m : Nat) : Nat :=
  if mem then (dD d 0 + m * cornerStride d) % 2 ^ 64 else (dW d 0 + m * cornerStride d) % 2 ^ 32

/-- One span of every byte of runs. -/
def spansOf (mem write : Bool) (l : List (Nat × Nat)) : List Span := l.map (fun p => { mem := mem, lo := p.1, n := p.2, write := write })

/-- The whole bench share or memory, for an operation whose rows the index stage names. -/
def wholeSpan (mem : Bool) : Span := { mem := mem, lo := 0, n := if mem then 2 ^ 64 else 2 ^ 32, write := false }

/-- The bytes that an operation reads and writes outside the tiles (R229 to R240). -/
def loomSpans (w : W96) (d : List W32) : List Span :=
  let rows := List.range 128
  let opc := wordOpc w
  let a := loomA w d
  let b := loomB w d
  let corner := fun (mem : Bool) => (List.range (cornerRows d)).map (fun m => (cornerRow mem d m, cornerCols d * tyBytes (wordTy w)))
  if opc = 0x185 ∨ opc = 0x186 ∨ opc = 0x187 then
    (if opc = 0x187 then [wholeSpan a.mem] else spansOf a.mem false (a.runs rows)) ++ spansOf b.mem false (b.runs rows) ++
      (if opc = 0x186 then spansOf false false (rows.map (fun m => (metaRow d m, 4 * metaWords (wordTy w)))) else [])
  else if opc = 0x183 then let mem := decide (wordMod w 0 0 = 1)
    spansOf mem false (corner mem)
  else if opc = 0x188 then
    let mem := decide (wordMod w 0 0 = 1)
    if mem then (if wordMod w 1 1 = 1 then spansOf true false (corner true) else []) else spansOf false true (corner false)
  else if opc = 0x184 ∧ wordMod w 0 0 = 1 then [{ mem := false, lo := dW d 0, n := 4 * dW d 1, write := false }]
  else []

/-! ## The records of a restored block (R248, R335; log entry 95) -/

/-- Whether an operation, call or command stands unfinished. -/
def State.stands (s : State) (b : Block) (id : Nat) : Bool :=
  b.loomQ.any (fun o => o.id == id) || s.mxvs.any (fun c => c.id == id) || s.cmds.any (fun c => c.id == id)
/-- The pending records of a restored block that are still to be performed. -/
def State.redoLeft (s : State) (b : Block) : List Nat := b.redo.filter (s.stands b)
/-- Whether an operation of a block may go on: a pending record waits for those saved before it. -/
def State.mayRedo (s : State) (bid id : Nat) : Bool :=
  let b := s.blk bid
  b.redo.isEmpty || !(s.redoLeft b).contains id || (s.redoLeft b).head? == some id

/-! ## Entry and flags (R226, R227) -/

/-- Whether a token still stands: some Loom operation or quorum phase holds it. -/
def Block.holdsToken (b : Block) (t : Token) : Bool := b.loomQ.any (fun o => o.members.contains t) || b.q.any (fun q => q.2.members.contains t)

/-- The flags of tokens that no operation or phase holds any more are lowered (R227). -/
def State.settleTokens (s : State) (bid : Nat) (l : List Token) : State :=
  l.foldl (fun s t => if (s.blk bid).holdsToken t then s else s.lower bid t.slice t.flag) s

/-- An operation enters its block's Loom order. -/
def State.enterLoom (s : State) (bid : Nat) (o : LoomOp) : State :=
  let o := { o with id := s.nextId, iss := s.iss, spans := loomSpans o.word o.desc }
  { s.modBlk bid (fun b => { b with loomQ := b.loomQ ++ [o] }) with nextId := s.nextId + 1, iss := s.iss + 1 }

/-- An operation of an instruction, before its entry; a drain rounds under the key of its launch and SRS (R81, R239). -/
def LoomOp.make (slice seq : Nat) (pc : W64) (word : W96) (desc : List W32) (members : List Token) (vals : List W32) (seed : W64) : LoomOp :=
  { id := 0, iss := 0, slice := slice, seq := seq, pc := pc, word := word, desc := desc, members := members, stage := .queued, vals := vals,
    lines := [], buf := [], row := 0, key := srKey seed (dW desc 3 / 2 ^ 16), spans := [] }

/-- A deferred trap of a Loom operation, taken where its flag or a release would show it (R169, R249). -/
def State.deferLoom (s : State) (bid : Nat) (o : LoomOp) (cause : Cause) (ea unit info info2 : Nat) : State :=
  let f := (o.members.find? (fun t => t.slice == o.slice)).map (fun t => t.flag)
  s.deferTrap bid o.slice
    { seq := o.seq, flag := f.getD 15, mem := false,
      trap := { cause := cause, kind := 1, slc := o.slice, unit := unit, ea := ea, info := info, info2 := info2, pc := o.pc, word := o.word,
                ext := if cause.extent then s.extBits bid ea else 0 } }

/-- The tiles held as the block's program sees them at issue: those held now, with what the queued LALLOC, LFREE and .free operations will
change (R228). -/
def Block.heldView (b : Block) : BitVec 8 :=
  b.loomQ.foldl (fun h o =>
    let bit : BitVec 8 := 1#8 <<< wordTile o.word
    let opc := wordOpc o.word
    if opc = 0x180 then h ||| bit
    else if opc = 0x181 then h &&& ~~~bit
    else if o.stage ≠ .draining ∧ ((opc = 0x188 ∧ wordMod o.word 2 2 = 1) ∨ (opc = 0x189 ∧ wordMod o.word 0 0 = 1)) then h &&& ~~~bit
    else h) b.held

/-- JOINT_LOOM_FORMATION (R227, R228): the operation that a completed phase forms; one whose tile is free is dropped with REG_RANGE. -/
def State.form (s : State) (bid q : Nat) : State :=
  let qu := (s.blk bid).quorum q
  let s := s.modBlk bid (fun b => b.setQuorum q { b.quorum q with sign := none, members := [] })
  match qu.sign with
  | none => s
  | some g =>
    let o := LoomOp.make g.slice g.seq g.pc g.word g.desc qu.members [] (s.launch bid).seed
    let tile := wordTile g.word
    if (s.blk bid).heldView.getLsbD tile then s.enterLoom bid o
    else (s.deferLoom bid o .regRange 0 0 tile (s.blk bid).tcount).settleTokens bid qu.members

/-! ## Quorum registers (R208 to R210) -/

/-- The phase of a quorum register completes: it is inverted, the armed slices are done, and a recorded Loom instruction forms (R208, R227). -/
def State.complete (s : State) (bid q : Nat) : State :=
  (s.modBlk bid (fun b =>
    let b := b.setQuorum q { b.quorum q with phase := !(b.quorum q).phase }
    ({ b with slices := b.slices.map (fun sl => if sl.qarm.getLsbD q then { sl with qdone := sl.qdone ||| (1#16 <<< q) } else sl) } : Block).latch)).form bid q

/-- The live threads of a block (R210). -/
def Block.liveCount (b : Block) : Nat := sumNat (b.slices.map (fun sl => if sl.ended then 0 else (posOf sl.live).length))

/-- The count that q is signed against: the declared one, or for an undeclared q15 the number of live threads. -/
def Block.quorumGoal (b : Block) (q : Nat) : Nat := if (b.quorum q).decl = 0 then b.liveCount else (b.quorum q).decl

/-- One sign. -/
def State.signOnce (s : State) (bid q : Nat) : State :=
  let b := s.blk bid
  let n := (b.quorum q).signed + 1
  if n = b.quorumGoal q then (s.modBlk bid (fun b => b.setQuorum q { b.quorum q with signed := 0 })).complete bid q
  else s.modBlk bid (fun b => b.setQuorum q { b.quorum q with signed := n })

/-- n signs. -/
def State.signs (s : State) (bid q : Nat) : Nat → State
  | 0 => s
  | n + 1 => (s.signOnce bid q).signs bid q n

/-- A slice's wait bits armed for a phase, where they are not already (R209). -/
def Slice.arm (sl : Slice) (q : Nat) : Slice :=
  if sl.qarm.getLsbD q then sl else { sl with qarm := sl.qarm ||| (1#16 <<< q), qdone := sl.qdone &&& ~~~(1#16 <<< q) }
/-- The wait bits cleared when the wait ends. -/
def Slice.disarm (sl : Slice) (q : Nat) : Slice := { sl with qarm := sl.qarm &&& ~~~(1#16 <<< q) }

/-- The phases that a declaration completes, at most n. -/
def State.declareLoop (s : State) (bid q : Nat) : Nat → State
  | 0 => s
  | n + 1 =>
    let qu := (s.blk bid).quorum q
    if qu.decl = 0 ∨ qu.signed < qu.decl then s
    else ((s.modBlk bid (fun b => b.setQuorum q { b.quorum q with signed := qu.signed - qu.decl })).complete bid q).declareLoop bid q n

/-- The automatic count of BAR evaluated again at an exit: a drop that brings S to it completes the phase (R210). -/
def State.recount (s : State) (bid : Nat) : State :=
  let b := s.blk bid
  let qu := b.quorum 15
  if qu.decl = 0 ∧ 0 < qu.signed ∧ b.liveCount ≤ qu.signed then
    (s.modBlk bid (fun b => b.setQuorum 15 { b.quorum 15 with signed := 0 })).complete bid 15
  else s

/-! ## The claim queue (R216, R217) -/

/-- The head of the claim queue served while the reserve holds its n: the units move, the new registers read zero, and the slice is
released. -/
def Block.serve (b : Block) : Nat → Block
  | 0 => b
  | fuel + 1 => match b.claimQ with
    | [] => b
    | (i, n) :: l =>
      if n ≤ b.reserve then
        (({ b with claimQ := l, reserve := b.reserve - n } : Block).modSl i (fun sl =>
          { sl with alloc := sl.alloc + n, v := mdrop (fun k => decide (32 * sl.alloc ≤ k)) sl.v,
                    pois := sl.pois.filter (fun k => decide (k < 32 * sl.alloc)),
                    wait := sl.wait.map (fun w => match w.kind with
                      | .claim _ => { w with met := true }
                      | _ => w) })).serve fuel
      else b
/-- CLAIM_QUEUE_SERVE (R217). -/
def Block.serveClaims (b : Block) : Block := b.serve b.claimQ.length

/-- The pending results of registers outside a slice's allocation are dropped, and one of which nothing is left is held no more (R62, R216). -/
def Slice.dropOutside (sl : Slice) : Slice :=
  { sl with v := mdrop (fun k => decide (32 * sl.alloc ≤ k)) sl.v,
            pois := sl.pois.filter (fun k => decide (k < 32 * sl.alloc)),
            pend := (sl.pend.map (fun p => { p with writes := p.writes.filter (fun w => match w.dest with
              | .lane r _ => decide (r < 8 * sl.alloc)
              | _ => true) })).filter (fun p => !p.writes.isEmpty) }

/-! ## The end of a slice (R191) -/

/-- SLICE_END (R191, R195): the slice's units go to the reserve, its held results are discarded, and it leaves its strand; at the end of the block's
last slice its subscriptions end (R280). -/
def State.endSlice (s : State) (bid i : Nat) : State :=
  let s := s.modBlk bid (fun b =>
    let sl := b.sl i
    let b := b.unstrand sl.strand i
    let b := b.modSl i (fun sl => { sl with ended := true, live := 0, act := 0, alloc := 0, mstk := [], pend := [], wait := none, v := [] })
    ({ b with reserve := b.reserve + sl.alloc } : Block).serveClaims)
  if (s.blk bid).slices.all (fun sl => sl.ended) then s.endSubs bid else s

end Sys2Proof.Machine
end

