-- ==== Sys2Proof/Machine/Sync.lean ====
section
/-! DEFINITION. Group 0x140: quorum registers and BAR, flags and tags, count barriers, and the register pool (R208 to R218, R223), and the
REG_DEADLOCK step (R28). -/

namespace Sys2Proof.Machine

/-! ## Shared pieces -/

/-- The resource number of an operand: quorum, tag or count barrier. -/
def resNo : Opnd → Nat
  | .res (.q n) => n.toNat
  | .res (.tg n) => n.toNat
  | .res (.cb n) => n.toNat
  | .res (.fl n) => n.val
  | _ => 0

/-- The slices of the visit in which the instruction takes effect, ascending. -/
def Ctx.inEffect (x : Ctx) (s : State) : List Nat := x.v.slices.filter (fun i => x.takes s i)

/-- COUNT_RESIDUE's INFO2 of a quorum register and of a count barrier (R337). -/
def Quorum.info (q : Quorum) : Nat := q.signed + boolBit q.phase 32
def CountBar.info (c : CountBar) : Nat := c.c + boolBit c.p 32

/-- A slice held in a waiting instruction, or passed where its condition holds at issue (R188). -/
def Ctx.hold (x : Ctx) (s : State) (i : Nat) (k : WaitKind) : State :=
  s.modSl x.bid i (fun sl => { sl with wait := some { kind := k, word := x.word, met := false } })

/-- The ordering of QSIGN and BAR: an operation that raises no flag, a release at .blk (R180, R209, R210). -/
def Ctx.signOp (x : Ctx) (s : State) (i : Nat) : State :=
  let s1 := s.modSl x.bid i (fun sl => { sl with mops := sl.mops ++
    [{ Mop.blank with id := s.nextId, iss := s.iss, seq := sl.seq, pc := x.pc, word := x.word, kind := .sign, oc := 1, rel := true, stage := 2 }] })
  { s1 with nextId := s.nextId + 1, iss := s.iss + 1 }

/-! ## Quorum registers and BAR (R208 to R210) -/

/-- INDEX_BOUNDS of a declared count above 1,024. -/
def Ctx.qdeclTrap (x : Ctx) (s : State) : Option Trap :=
  ((x.inEffect s).find? (fun i => decide (1024 < (x.b s i 0).toNat))).map (fun i => x.trap .indexBounds i 0 0 (x.b s i 0).toNat 1024)
/-- A count declared for q; the phases that it completes (log entry 57). -/
def State.declareQ (s : State) (bid q n : Nat) : State :=
  let s := s.modBlk bid (fun b =>
    let qu := b.quorum q
    b.setQuorum q { qu with decl := n, signed := if n = 0 then 0 else qu.signed })
  s.declareLoop bid q (((s.blk bid).quorum q).signed + 1)
/-- Each slice in effect declares, the last standing. -/
def Ctx.qdecl (x : Ctx) (s : State) : State :=
  (x.inEffect s).foldl (fun acc i => acc.declareQ x.bid (resNo x.f.oa) (x.b s i 0).toNat) s

/-- QDECL (R208). -/
def execQdecl (f : FormR) : State → Host.Outcome State Fault Refusal := issueTry 0x140 (.r f) Ctx.qdeclTrap Ctx.qdecl

/-- COUNT_RESIDUE of a sign on an undeclared quorum register (R209). -/
def Ctx.undeclared (x : Ctx) (s : State) (q : Nat) : Option Trap :=
  let qu := (s.blk x.bid).quorum q
  if qu.decl = 0 then (x.inEffect s).head?.map (fun i => x.trap .countResidue i ((x.parts s i).headD 0) 0 q qu.info) else none

/-- Every slice in effect arms itself and signs q once for each participant, as a release (R209). -/
def Ctx.sign (x : Ctx) (s : State) (q : Nat) : State :=
  (x.inEffect s).foldl (fun acc i =>
    x.signOp ((acc.modSl x.bid i (fun sl => sl.arm q)).signs x.bid q (x.parts s i).length) i) s

/-- QSIGN (R209). -/
def execQsign (f : FormR) : State → Host.Outcome State Fault Refusal :=
  issueTry 0x141 (.r f) (fun x s => x.undeclared s (resNo x.f.oa)) (fun x s => x.sign s (resNo x.f.oa))

/-- A slice waits for a quorum's phase, and its armed bit is cleared when the wait ends (R209). -/
def Ctx.awaitQuorum (x : Ctx) (s : State) (q i : Nat) : State :=
  if (s.sl x.bid i).qdone.getLsbD q then s.modSl x.bid i (fun sl => sl.disarm q) else x.hold s i (.quorum q)

/-- Every slice in effect waits for a phase of q. -/
def Ctx.qwait (x : Ctx) (s : State) (q : Nat) : State :=
  (x.inEffect s).foldl (fun acc i => x.awaitQuorum (acc.modSl x.bid i (fun sl => sl.arm q)) q i) s

/-- QWAIT (R209). -/
def execQwait (f : FormR) : State → Host.Outcome State Fault Refusal := issueAll 0x142 (.r f) (fun x s => x.qwait s (resNo x.f.oa))

/-- BAR: every slice in effect signs q15, and then waits. -/
def Ctx.bar (x : Ctx) (s : State) : State := (x.inEffect s).foldl (fun acc i => x.awaitQuorum acc 15 i) (x.sign s 15)

/-- BAR (R210). -/
def execBar (f : FormR) : State → Host.Outcome State Fault Refusal := issueAll 0x143 (.r f) Ctx.bar

/-! ## Flags and tags (R211, R212) -/

/-- A waiting instruction on flags, tags or a phase: a slice whose condition holds goes on, with the held results of the flags a WAITF names
released (R62, R188). -/
def Ctx.wait (x : Ctx) (s : State) : State :=
  (x.inEffect s).foldl (fun acc i =>
    match x.waitKind s i with
    | none => acc
    | some k =>
      if waitHolds (s.blk x.bid) (s.sl x.bid i) k then
        acc.modSl x.bid i (fun sl => match k with
          | .flags m => sl.release (fun p => p.named m)
          | _ => sl)
      else x.hold acc i k) s

/-- INDEX_BOUNDS of a flag mask with a bit above 11 (R186). -/
def Ctx.waitfTrap (x : Ctx) (s : State) : Option Trap :=
  ((x.inEffect s).find? (fun i => decide (2 ^ 12 ≤ (x.a s i 0).toNat))).map (fun i => x.trap .indexBounds i 0 0 (x.a s i 0).toNat 0xFFF)
/-- WAITF (R211). -/
def execWaitf (f : FormR) : State → Host.Outcome State Fault Refusal := issueTry 0x144 (.r f) Ctx.waitfTrap Ctx.wait
/-- WAITT (R212). -/
def execWaitt (f : FormR) : State → Host.Outcome State Fault Refusal := issueAll 0x145 (.r f) Ctx.wait
/-- WAITTA (R212). -/
def execWaitta (f : FormR) : State → Host.Outcome State Fault Refusal := issueAll 0x146 (.r f) Ctx.wait

/-- DET_TIMER of an instruction that reports a state whose timing varies, in a deterministic launch (R223). -/
def Ctx.timerTrap (x : Ctx) (s : State) (on : Bool) : Option Trap :=
  if on && s.det x.bid then (x.inEffect s).head?.map (fun i => x.trap .detTimer i ((x.parts s i).headD 0)) else none

/-- A register instruction of this group that may trap before its effect. -/
def tryOp (key : Nat) (f : FormR) (bad : Ctx → State → Option Trap) (val : Ctx → State → Nat → Nat → List W32) :
    State → Host.Outcome State Fault Refusal :=
  issueTry key (.r f) bad (fun x s => x.put s (val x s))

/-- TAGFF (R212). -/
def execTagff (f : FormR) : State → Host.Outcome State Fault Refusal :=
  tryOp 0x147 f (fun x s => x.timerTrap s true) (fun x s i t =>
    [BitVec.ofNat 32 (((bitsSet 64 (x.src64 s i t x.f.oa).toNat).filter (fun n => ((s.blk x.bid).tag n).ready)).headD 64)])

/-- The ready tags of a mask made idle. -/
def Block.tagsIdle (b : Block) (m : W64) : Block :=
  (bitsSet 64 m.toNat).foldl (fun b n => if (b.tag n).ready then b.setTag n ⟨(b.tag n).pending, false⟩ else b) b
/-- TAGCLR (R212). -/
def execTagclr (f : FormR) : State → Host.Outcome State Fault Refusal :=
  issueAll 0x148 (.r f) (fun x s =>
    (x.inEffect s).foldl (fun acc i => acc.modBlk x.bid (fun b => b.tagsIdle (x.src64 s i 0 x.f.oa))) s)

/-! ## Count barriers (R213, R214) -/

/-- A phase of a count barrier completes where its expectation is met. -/
def CountBar.check (c : CountBar) : CountBar := if c.p ∧ c.e ≤ c.c then { c with c := c.c - c.e, p := false, n := c.n + 1 } else c

/-- An expectation posted. -/
def CountBar.expect (c : CountBar) (n : Nat) : CountBar := CountBar.check { c with e := n, p := true }

/-- The slices in effect post in ascending order, and the first that finds an expectation posted traps. -/
def Ctx.cbexp (x : Ctx) (s : State) : Except Trap State :=
  let cb := resNo x.f.oa
  (x.inEffect s).foldl (fun acc i =>
    match acc with
    | .error t => .error t
    | .ok s1 =>
      let c := (s1.blk x.bid).cb cb
      if c.p then .error (x.trap .countResidue i 0 0 (0x80 + cb) c.info)
      else .ok (s1.modBlk x.bid (fun b => (b.setCb cb (c.expect (x.b s i 0).toNat)).latch))) (.ok s)

/-- CBEXP (R213). -/
def execCbexp (f : FormR) : State → Host.Outcome State Fault Refusal := issue 0x149 (.r f) Ctx.cbexp

/-- CBWAIT (R214). -/
def execCbwait (f : FormR) : State → Host.Outcome State Fault Refusal := issueAll 0x14A (.r f) Ctx.wait

/-- What CBRD reads: the phase number with the posted bit in bit 16, or with selector 1 the count. -/
def CountBar.word (c : CountBar) (sel : Nat) : W32 := BitVec.ofNat 32 (if sel = 1 then c.c else c.n.toNat + boolBit c.p 16)
/-- CBRD (R214). -/
def execCbrd (f : FormR) : State → Host.Outcome State Fault Refusal :=
  tryOp 0x14B f (fun x s => x.timerTrap s true) (fun x s _ _ => [((s.blk x.bid).cb (resNo x.f.oa)).word (x.mod 0 0)])

/-! ## The register pool (R216 to R218) -/

/-- The number of units that a slice claims or gives. -/
def Ctx.claimed (x : Ctx) (s : State) (i : Nat) : Nat := (x.a s i 0).toNat
/-- REG_RANGE of a claim past 32 units. -/
def Ctx.claimTrap (x : Ctx) (s : State) : Option Trap :=
  ((x.inEffect s).find? (fun i => decide (32 < (s.sl x.bid i).alloc + x.claimed s i))).map
    (fun i => x.trap .regRange i 0 0 (x.claimed s i) (s.sl x.bid i).alloc)
/-- A claim of n units joins the end of the block's queue, which is then served (R216, R217). -/
def Block.claim (b : Block) (i n : Nat) : Block := ({ b with claimQ := b.claimQ ++ [(i, n)] } : Block).serveClaims
/-- The wait of a slice ended where its condition was met at issue (R188). -/
def Slice.goOn (sl : Slice) : Slice :=
  match sl.wait with
  | some w => if w.met then { sl with wait := none } else sl
  | none => sl
/-- The slices in effect claim in ascending order; a claim of nothing does not wait. -/
def Ctx.claim (x : Ctx) (s : State) : State :=
  let l := (x.inEffect s).filter (fun i => x.claimed s i != 0)
  (l.foldl (fun acc i => (x.hold acc i (.claim (x.claimed s i))).modBlk x.bid (fun b => b.claim i (x.claimed s i))) s).forSlices
    x.bid l (fun _ sl => sl.goOn)

/-- CLAIM (R216). -/
def execClaim (f : FormR) : State → Host.Outcome State Fault Refusal := issueTry 0x14C (.r f) Ctx.claimTrap Ctx.claim

/-- REG_RANGE of a slice that would keep no unit. -/
def Ctx.giveTrap (x : Ctx) (s : State) : Option Trap :=
  ((x.inEffect s).find? (fun i => decide ((s.sl x.bid i).alloc ≤ x.claimed s i))).map
    (fun i => x.trap .regRange i 0 0 (x.claimed s i) (s.sl x.bid i).alloc)
/-- The top n units of a slice returned to the reserve, and the queue served. -/
def Block.give (b : Block) (i n : Nat) : Block :=
  let b := b.modSl i (fun sl => Slice.dropOutside { sl with alloc := sl.alloc - n })
  ({ b with reserve := b.reserve + n } : Block).serveClaims
/-- GIVE (R216). -/
def execGive (f : FormR) : State → Host.Outcome State Fault Refusal :=
  issueTry 0x14D (.r f) Ctx.giveTrap (fun x s => (x.inEffect s).foldl (fun acc i => acc.modBlk x.bid (fun b => b.give i (x.claimed s i))) s)

/-- Free units of a core's pool: 8,192 less those of its resident blocks (R27, R28). -/
def State.poolFree (s : State) (core : Nat) : Nat :=
  8192 - sumNat ((s.blocks.filter (fun b => decide (b.loc = .resident core))).map (fun b => b.units))

/-- INDEX_BOUNDS of a POOLQ selector of 4 or more, and DET_TIMER of 2 in a deterministic launch (R218, R223). -/
def Ctx.poolqTrap (x : Ctx) (s : State) : Option Trap :=
  firstSome (fun i =>
    let n := x.claimed s i
    if 4 ≤ n then some (x.trap .indexBounds i ((x.parts s i).headD 0) 0 n 3)
    else if n = 2 ∧ s.det x.bid then some (x.trap .detTimer i ((x.parts s i).headD 0)) else none) (x.inEffect s)
/-- What POOLQ reads: the slice's units, the block's reserve, the core's free units, or the claims that wait. -/
def State.poolCount (s : State) (bid i sel : Nat) : Nat :=
  let b := s.blk bid
  if sel = 0 then (b.sl i).alloc else if sel = 1 then b.reserve else if sel = 2 then s.poolFree b.core else b.claimQ.length
/-- POOLQ (R218). -/
def execPoolq (f : FormR) : State → Host.Outcome State Fault Refusal :=
  tryOp 0x14E f Ctx.poolqTrap (fun x s i _ => [BitVec.ofNat 32 (s.poolCount x.bid i (x.claimed s i))])

/-- Whether a slice waits in CLAIM. -/
def Slice.claiming (sl : Slice) : Option Nat :=
  match sl.wait with
  | some { kind := .claim n, word := _, met := false } => some n
  | _ => none

/-- A block trap, whose record names the instruction a slice is held in or stands at (R336). -/
def State.blockTrap (s : State) (bid : Nat) (t : Trap) : State := s.takeTrap bid { t with kind := 2 }

/-- REG_DEADLOCK_DETECT (R28): every slice that has not ended waits in CLAIM. -/
def State.regDeadlock (s : State) (bid : Nat) : Option State :=
  let b := s.blk bid
  let live := (List.range b.slices.length).filter (fun i => !(b.sl i).ended)
  if s.mayTrap bid = false || live.isEmpty || !live.all (fun i => ((b.sl i).claiming).isSome) then none
  else
    let i := live.headD 0
    let sl := b.sl i
    some (s.blockTrap bid { cause := .regDeadlock, slc := i, pc := sl.pc - 12, tpc := sl.pc - 12, word := ((sl.wait.map (fun w => w.word)).getD 0), info := sl.claiming.getD 0, info2 := b.reserve })

def execRegDeadlockDetect (bid : Nat) (s : State) : Host.Outcome State Fault Refusal := .next ((s.regDeadlock bid).getD s)

end Sys2Proof.Machine
end

