-- ==== Sys2Proof/Machine/Control.lean ====
section
/-! DEFINITION. Group 0x000: control flow, the mask stack, reconvergence, work queues, tail launch, traps, special registers and IFENCE
(R190 to R207, R219 to R223). -/

namespace Sys2Proof.Machine

/-! ## Branches, calls and returns (R47, R190) -/

/-- NOP (R190). -/
def execNop (f : FormR) : State → Host.Outcome State Fault Refusal := issueAll 0x001 (.r f) (fun _ s => s)

/-- The 32-bit immediate of a form L instruction as a signed byte offset. -/
def Ctx.immL (x : Ctx) : W32 :=
  match x.f with
  | .l f => f.imm
  | .r _ => 0

/-- MISALIGNED of a target that is not a multiple of 4. -/
def Ctx.targetTrap (x : Ctx) (s : State) (target : Nat → W64) : Option Trap :=
  ((x.inEffect s).find? (fun i => (target i).toNat % 4 != 0)).map (fun i => x.trap .misaligned i 0 (target i).toNat 4)

/-- In each slice in effect the link, where there is one, is written and the program counter set. -/
def Ctx.goTo (x : Ctx) (s : State) (target : Nat → W64) (link : Bool) : State :=
  s.forSlices x.bid (x.inEffect s) (fun i sl =>
    let sl := if link then sl.result x.row.lat (x.writesTo s x.f.od i (fun _ => words64 (x.pc + 12))) else sl
    { sl with pc := target i })

/-- A transfer. -/
def transfer (key : Nat) (f : Fields) (target : Ctx → State → Nat → W64) (link : Bool) : State → Host.Outcome State Fault Refusal :=
  issueTry key f (fun x s => x.targetTrap s (target x s)) (fun x s => x.goTo s (target x s) link)

/-- The target of BRA and CALL. -/
def Ctx.relative (x : Ctx) : W64 := x.pc + 12 + x.immL.signExtend 64

/-- BRA (R190). -/
def execBra (f : FormL) : State → Host.Outcome State Fault Refusal := transfer 0x002 (.l f) (fun x _ _ => x.relative) false
/-- BRX (R190). -/
def execBrx (f : FormR) : State → Host.Outcome State Fault Refusal := transfer 0x003 (.r f) (fun x s i => x.src64 s i 0 x.f.oa) false
/-- CALL (R190). -/
def execCall (f : FormL) : State → Host.Outcome State Fault Refusal := transfer 0x004 (.l f) (fun x _ _ => x.relative) true
/-- CALLX (R190). -/
def execCallx (f : FormR) : State → Host.Outcome State Fault Refusal := transfer 0x005 (.r f) (fun x s i => x.src64 s i 0 x.f.oa) true
/-- RET (R190): it acts as BRX. -/
def execRet (f : FormR) : State → Host.Outcome State Fault Refusal := transfer 0x006 (.r f) (fun x s i => x.src64 s i 0 x.f.oa) false

/-! ## The mask stack (R191 to R194) -/

/-- A mask-stack entry (R192): K, MASK and PC. -/
def stackEntry (k : Bool) (m : BitVec 4) (pc : W64) : BitVec 64 :=
  BitVec.ofBool k ++ m ++ 0#7 ++ pc.extractLsb' 2 50 ++ 0#2
def entryMask (e : BitVec 64) : BitVec 4 := e.extractLsb' 59 4
def entryPc (e : BitVec 64) : W64 := (e.extractLsb' 2 50 ++ 0#2).setWidth 64

/-- Entries popped until one gives a non-empty set of live threads (R194): that entry's set, address and the rest of the stack. -/
def popLive (live : BitVec 4) : List (BitVec 64) → Option (BitVec 4 × W64 × List (BitVec 64))
  | [] => none
  | e :: l => if entryMask e &&& live = 0 then popLive live l else some (entryMask e &&& live, entryPc e, l)

/-- JOIN in a slice: the next path, or the end of the slice (R194). -/
def State.unwind (s : State) (bid i : Nat) : State :=
  let sl := s.sl bid i
  match popLive sl.live sl.mstk with
  | some (act, pc, l) => s.modSl bid i (fun sl => { sl with act := act, pc := pc, mstk := l })
  | none => s.endSlice bid i

/-- The set of a list of positions. -/
def maskOf (l : List Nat) : BitVec 4 := l.foldl (fun m t => m ||| (1#4 <<< t)) 0

/-- Threads that end leave the live and the active set and every entry of the mask stack. -/
def Slice.lose (sl : Slice) (gone : BitVec 4) : Slice :=
  { sl with live := sl.live &&& ~~~gone, act := sl.act &&& ~~~gone, mstk := sl.mstk.map (fun e => e &&& ~~~((gone.setWidth 64) <<< 59)) }

/-- The participants end; a slice left with no active thread goes on as JOIN does (R191). -/
def Ctx.exit (x : Ctx) (s : State) : State :=
  (x.inEffect s).foldl (fun acc i =>
    let acc := acc.modSl x.bid i (fun sl => sl.lose (maskOf (x.parts s i)))
    (if (acc.sl x.bid i).act = 0 then acc.unwind x.bid i else acc).recount x.bid) s

/-- EXIT (R191). -/
def execExit (f : FormR) : State → Host.Outcome State Fault Refusal := issueAll 0x007 (.r f) Ctx.exit

/-- A signed half of PUSHJ's immediate, in words. -/
def Ctx.wordOff (x : Ctx) (lo : Nat) : W64 := (x.immL.extractLsb' lo 16).signExtend 64 * 4

/-- The positions of the active set whose predicate OA holds. -/
def Ctx.taken (x : Ctx) (s : State) (i : Nat) : BitVec 4 := maskOf ((posOf (s.sl x.bid i).act).filter (fun t => s.srcPred x.bid i t x.f.oa))

/-- PUSHJ in a slice (R193). -/
def Ctx.pushj (x : Ctx) (s : State) (i : Nat) (sl : Slice) : Slice :=
  let tk := x.taken s i
  let ft := sl.act &&& ~~~tk
  let stk := stackEntry false sl.act (x.pc + 12 + x.wordOff 16) :: sl.mstk
  if tk ≠ 0 ∧ ft ≠ 0 then { sl with mstk := stackEntry true tk (x.pc + 12 + x.wordOff 0) :: stk, act := ft }
  else if ft ≠ 0 then { sl with mstk := stk }
  else { sl with mstk := stk, pc := x.pc + 12 + x.wordOff 0 }

/-- The entries that PUSHJ pushes in a slice. -/
def Ctx.pushes (x : Ctx) (s : State) (i : Nat) : Nat := if x.taken s i ≠ 0 ∧ (s.sl x.bid i).act &&& ~~~(x.taken s i) ≠ 0 then 2 else 1
/-- INDEX_BOUNDS of a slice whose stack has no room. -/
def Ctx.pushjTrap (x : Ctx) (s : State) : Option Trap :=
  (x.v.slices.find? (fun i => decide (16 < (s.sl x.bid i).mstk.length + x.pushes s i))).map
    (fun i => x.trap .indexBounds i 0 0 (s.sl x.bid i).mstk.length 16)
/-- PUSHJ (R193). -/
def execPushj (f : FormL) : State → Host.Outcome State Fault Refusal :=
  issueTry 0x008 (.l f) Ctx.pushjTrap (fun x s => s.forSlices x.bid x.v.slices (fun i sl => x.pushj s i sl))

/-- INDEX_BOUNDS of a slice whose stack is empty. -/
def Ctx.joinTrap (x : Ctx) (s : State) : Option Trap :=
  (x.v.slices.find? (fun i => (s.sl x.bid i).mstk.isEmpty)).map (fun i => x.trap .indexBounds i 0)
/-- JOIN (R194). -/
def execJoin (f : FormR) : State → Host.Outcome State Fault Refusal :=
  issueTry 0x009 (.r f) Ctx.joinTrap (fun x s => x.v.slices.foldl (fun acc i => (acc.unwind x.bid i).recount x.bid) s)

/-! ## Reconvergence (R196 to R202) -/

/-- REGANG in a slice (R196, R197). c is the issue count at this issue, which the issue itself has advanced. A slice already lost in the instance goes
on alone, its count and its first REGANG as they stand (log entry 18). -/
def Ctx.regang (x : Ctx) (s : State) (i : Nat) : State :=
  let sl := s.sl x.bid i
  let site := x.mod 3 0
  let p := mget 0 sl.pass site
  let c := if sl.cFull then sl.issueC else sl.issueC - 1
  if p = 0xFFFFFFFF then s.modBlk x.bid (fun b => b.alone i)
  else
    let r : RgIssue := { addr := x.pc, site := site, pass := p, c := c }
    let first := sl.firstRg.getD r
    let s1 := s.modSl x.bid i (fun sl => { sl with pass := mput 0 sl.pass site (p + 1), firstRg := some first })
    if first = r ∧ c ≤ x.immL then
      x.hold s1 i (.regang x.pc site p x.immL (x.md.getLsbD 4))
    else s1.modBlk x.bid (fun b => b.alone i)

/-- REGANG (R196): every served slice issues it before any instance closes, and a slice whose instance closes at its own issue is not held. -/
def execRegang (f : FormL) : State → Host.Outcome State Fault Refusal :=
  issueAll 0x00A (.l f) (fun x s =>
    ((x.v.slices.foldl (fun acc i => x.regang acc i) s).regangCheck x.bid).forSlices x.bid x.v.slices (fun _ sl => sl.goOn))

/-- A gang parted by a class of its slices, in the order of the lowest slice each part contains (R20, R201). -/
def Gang.byClass (g : Gang) (f : Nat → Nat) : List Gang :=
  (firstKeys (g.slices.map f)).map (fun k => { g with slices := g.slices.filter (fun i => f i == k) })

/-- The class of a slice under PART: .pred by whether the predicate holds in an active thread, .cnt by its active-thread count; one in which PART takes no
effect stands apart. -/
def Ctx.partClass (x : Ctx) (s : State) (i : Nat) : Nat :=
  if !x.takes s i then 9
  else if x.mod 0 0 = 1 then (posOf (s.sl x.bid i).act).length
  else if x.taken s i = 0 then 8 else 7
/-- PART (R201). -/
def execPart (f : FormR) : State → Host.Outcome State Fault Refusal :=
  issueAll 0x00B (.r f) (fun x s =>
    s.modSec x.v.core x.v.sec (fun sec => sec.modSlot x.v.slot (fun slot =>
      slot.replace (fun g => if g.bid = x.bid ∧ g.slices.any (fun i => x.v.slices.contains i) then g.byClass (x.partClass s) else [g]))))

/-- YIELD (R202). -/
def execYield (f : FormR) : State → Host.Outcome State Fault Refusal :=
  issueAll 0x00E (.r f) (fun x s => s.forSlices x.bid (x.inEffect s) (fun i sl => { sl with ycnt := min (x.a s i 0).toNat 255 }))

/-! ## Work queues (R203 to R206) -/

/-- Whether a queue entry belongs to a block's launch, and in a deterministic one to its logical core. -/
def State.ownEntry (s : State) (bid : Nat) (e : WqEntry) : Bool :=
  let b := s.blk bid
  e.gid == b.gid && decide (e.lcore = if s.det bid then some b.lcore else none)

/-- Queue n of a core. -/
def Core.queue (c : Core) (n : Nat) : List WqEntry := (c.wq[n]?).getD []
def Core.setQueue (c : Core) (n : Nat) (l : List WqEntry) : Core := { c with wq := updAt (fun _ => l) n c.wq }

/-- A list with the first k elements satisfying p removed. -/
def dropSome (p : WqEntry → Bool) : Nat → List WqEntry → List WqEntry
  | 0, l => l
  | _, [] => []
  | k + 1, e :: l => if p e then dropSome p k l else e :: dropSome p (k + 1) l

/-- The victims of a core in the order of R205. -/
def victims (core n : Nat) : List Nat :=
  (List.range n).map (fun k =>
    let d := k / 2 + 1
    16 * (core / 16) + (if k % 2 = 0 then (core % 16 + d) % 16 else (core % 16 + 16 - d) % 16))

/-- The entries that a REFILL of k positions takes, in the order they fill, and the state without them: the head of the core's own queue, and
outside deterministic launches the tail of one victim's queue (R204, R205). -/
def State.take (s : State) (bid q k : Nat) : List W32 × State :=
  let core := (s.blk bid).core
  let own := s.ownEntry bid
  let mine := (((s.core core).queue q).filter own).take k
  let s := s.modCore core (fun c => c.setQueue q (dropSome own mine.length (c.queue q)))
  let left := k - mine.length
  if left = 0 ∨ s.det bid then (mine.map (fun e => e.item), s)
  else match (victims core ((s.core core).steal.toNat % 16)).find? (fun v => ((s.core v).queue q).any own) with
    | none => (mine.map (fun e => e.item), s)
    | some v =>
      let tail := ((((s.core v).queue q).filter own).reverse).take left
      ((mine ++ tail).map (fun e => e.item),
        s.modCore v (fun c => c.setQueue q (dropSome own tail.length (c.queue q).reverse).reverse))

/-- A position filled with an item (R41, R204). -/
def Slice.refill (sl : Slice) (t : Nat) (item : W32) : Slice :=
  let sl := { sl with live := sl.live ||| (1#4 <<< t), act := sl.act ||| (1#4 <<< t), item := mput 0xFFFFFFFF sl.item t item }
  sl.writeAll sl.seq ((List.range 7).map (fun n => { dest := .pred n t, mask := 1, val := 0 }))

/-- INDEX_BOUNDS of a slice whose mask stack is not empty. -/
def Ctx.refillTrap (x : Ctx) (s : State) : Option Trap :=
  (x.v.slices.find? (fun i => !(s.sl x.bid i).mstk.isEmpty)).map (fun i => x.trap .indexBounds i 0 0 (s.sl x.bid i).mstk.length)
/-- The positions of a slice that hold no live thread. -/
def Slice.freePos (sl : Slice) : List Nat := (List.range 4).filter (fun t => !sl.live.getLsbD t)
/-- REFILL in a slice: its free positions take items in ascending order, and the destination their number. -/
def Ctx.refillOne (x : Ctx) (s : State) (i : Nat) : State :=
  let free := (s.sl x.bid i).freePos
  let r := s.take x.bid (x.mod 1 0) free.length
  r.2.modSl x.bid i (fun sl =>
    ((free.zip r.1).foldl (fun sl p => sl.refill p.1 p.2) sl).result x.row.lat (destWrites x.f.od 0 [BitVec.ofNat 32 r.1.length]))
/-- REFILL (R204). -/
def execRefill (f : FormR) : State → Host.Outcome State Fault Refusal :=
  issueTry 0x00C (.r f) Ctx.refillTrap (fun x s => x.v.slices.foldl (fun acc i => x.refillOne acc i) s)

/-- The entries that a deterministic grid reserves for one logical core in each queue of its host (R206). -/
def Launch.wqShare (l : Launch) : Nat := 1024 / max 1 l.lc
/-- The entries of a core's queue reserved to logical cores of deterministic grids (R206). -/
def State.reservedEntries (s : State) (core : Nat) : Nat := sumNat ((s.core core).wqres.map (fun r => (s.grid r.1).lr.wqShare))

/-- Whether a push finds room (R204, R206). -/
def State.pushRoom (s : State) (bid q : Nat) : Bool :=
  let core := (s.blk bid).core
  let l := (s.core core).queue q
  if s.det bid then decide ((l.filter (s.ownEntry bid)).length < (s.launch bid).wqShare)
  else decide ((l.filter (fun e => decide (e.lcore = none))).length + s.reservedEntries core < 1024)

/-- Items appended while there is room, and their number. -/
def State.pushItems (s : State) (bid q : Nat) : List W32 → Nat × State
  | [] => (0, s)
  | a :: l =>
    if s.pushRoom bid q then
      let b := s.blk bid
      let s1 := s.modCore b.core (fun c => c.setQueue q (c.queue q ++ [{ gid := b.gid, lcore := if s.det bid then some b.lcore else none, item := a }]))
      let r := s1.pushItems bid q l
      (r.1 + 1, r.2)
    else (0, s)

/-- REFILL.push in a slice: the participants' items, and their number that found room in every active thread, whether or not it participates. -/
def Ctx.pushOne (x : Ctx) (s acc : State) (i : Nat) : State :=
  let r := acc.pushItems x.bid (x.mod 1 0) ((x.parts s i).map (fun t => x.a s i t))
  r.2.modSl x.bid i (fun sl => sl.result x.row.lat ((posOf sl.act).flatMap (fun t => destWrites x.f.od t [BitVec.ofNat 32 r.1])))
/-- REFILL.push (R204). -/
def execRefillPush (f : FormR) : State → Host.Outcome State Fault Refusal :=
  issueAll 0x20C (.r f) (fun x s => x.v.slices.foldl (fun acc i => x.pushOne s acc i) s)

/-! ## Tail launch (R40, R207) -/

/-- A TLAUNCH of a thread of a block made the grid's candidate, where R40 prefers it. -/
def Grid.offer (g : Grid) (bnum thr lra : Nat) : Grid :=
  match g.cand with
  | some c => if bnum < c.bnum ∨ (bnum = c.bnum ∧ thr ≤ c.thr) then { g with cand := some { bnum := bnum, thr := thr, lra := lra } } else g
  | none => { g with cand := some { bnum := bnum, thr := thr, lra := lra } }

/-- The checks of TLAUNCH: alignment, then steps 2 to 6 of R167 as an .nc read. -/
def Ctx.tlaunchCheck (x : Ctx) (s1 s : State) : State × Except (Option Trap) (List (Want × List Piece)) :=
  x.probe { needR := true, needW := false, use := .access (some .nc) false, det := fun _ => false } s
    ((x.inEffect s1).map (fun i => { wantOf i ((x.parts s1 i).headD 0) (x.base s1 i 0) 256 0 [] with align := 256 }))
/-- Each slice in effect offers its record as the grid's candidate. -/
def Ctx.tlaunch (x : Ctx) (s : State) (l : List (Want × List Piece)) : State :=
  l.foldl (fun s p => s.modGrid (s.blk x.bid).gid (fun g => g.offer (s.blk x.bid).bnum (threadNo p.1.slice p.1.thr) p.1.ea)) (x.own s l)
/-- TLAUNCH (R207). -/
def execTlaunch (f : FormR) : State → Host.Outcome State Fault Refusal := issueVia 0x00D (.r f) Ctx.tlaunchCheck Ctx.tlaunch

/-! ## Traps (R219) -/

/-- The trap of TRAP and BRK, precise at the instruction: it names the lowest slice in effect, its lowest thread and the low sixteen bits of the
code (R219; log entry 42). -/
def Ctx.softTrap (x : Ctx) (cause : Cause) (s : State) : Option Trap :=
  (x.inEffect s).head?.map (fun i => x.trap cause i ((s.guarded x.bid i x.c).headD 0) 0 ((x.a s i 0).toNat % 65536))

/-- TRAP (R219). -/
def execTrap (f : FormR) : State → Host.Outcome State Fault Refusal := issueTry 0x00F (.r f) (fun x s => x.softTrap .trap s) (fun _ s => s)
/-- BRK (R219). -/
def execBrk (f : FormR) : State → Host.Outcome State Fault Refusal := issueTry 0x010 (.r f) (fun x s => x.softTrap .brk s) (fun _ s => s)

/-! ## Special registers (R220, R221) -/

/-- The special register number of an operand. -/
def sregNo : Opnd → Nat
  | .sreg n => n.toNat
  | _ => 0

/-- The words of a special register as a thread reads it: two of a 64-bit register. -/
def State.sregWords (s : State) (bid i t n : Nat) : List W32 :=
  if wideSreg (BitVec.ofNat 8 n) then words64 (s.sreg bid i t n) else [(s.sreg bid i t n).setWidth 32]
/-- RDSR (R220). -/
def execRdsr (f : FormR) : State → Host.Outcome State Fault Refusal := regOp 0x011 f (fun x s i t => s.sregWords x.bid i t (sregNo x.f.oa))

/-- A write of a privileged register (R221). -/
def State.writeSreg (s : State) (core n : Nat) (w : W32) : State :=
  if n = 0x81 then s.modCore core (fun c => { c with mxvbat := w &&& 0xF })
  else if n = 0x82 then s.modCore core (fun c => { c with mxvres := w &&& 0x7 })
  else if n = 0x83 then s.modCore core (fun c => { c with mxvq := w &&& 0xFF })
  else if n = 0x84 then { s with wdogLim := w }
  else if n = 0x85 then s.modCore core (fun c => { c with steal := w &&& 0xF })
  else s

/-- WRSR (R220): participants write in fixed thread order, so the last stands. -/
def execWrsr (f : FormR) : State → Host.Outcome State Fault Refusal :=
  issueAll 0x012 (.r f) (fun x s =>
    (x.inEffect s).foldl (fun acc i => (x.parts s i).foldl (fun acc t => acc.writeSreg x.v.core (sregNo x.f.od) (x.a s i t)) acc) s)

/-- The operation of an IFENCE. -/
def Mop.ifence : Mop := { Mop.blank with kind := .ifence, oc := 3, acq := true, rel := true, stage := 2 }
/-- IFENCE (R222). -/
def execIfence (f : FormR) : State → Host.Outcome State Fault Refusal :=
  issueAll 0x013 (.r f) (fun x s => x.plainBegin s (x.takes s) Mop.ifence)

end Sys2Proof.Machine
end

