-- ==== Sys2Proof/Machine/EngineQueue.lean ====
section
/-! DEFINITION. The queues of the engines, as a gang meets them at issue (R362, R370). -/

namespace Sys2Proof.Machine

/-- Whether a key is a Dray command. -/
def isDray (key : Nat) : Bool := decide (0x1C0 ≤ key) && decide (key ≤ 0x1C5)

/-- The commands of an engine that have not completed; those of a saved block are pending records (R259). -/
def State.queued (s : State) (e : Eng) : List EngCmd := s.cmds.filter (fun c => decide (c.eng = e) && decide ((s.blk c.bid).loc ≠ .saved))

/-- Whether a key is a Surveyor command. -/
def isSurveyor (key : Nat) : Bool := decide (0x1C6 ≤ key) && decide (key ≤ 0x1CD)

/-- The table word of a Surveyor command in a slice: register kN, or operand a of SVFREE (R263, R264). -/
def Ctx.tableWord (x : Ctx) (s : State) (i : Nat) : Nat :=
  if x.key = 0x1CC then (s.src x.bid i 0 .b32 x.f.oa).toNat
  else if x.key = 0x1C6 then (s.srcReg x.bid i 0 x.f.oa 12).toNat
  else (s.srcReg x.bid i 0 x.f.oa 0).toNat
/-- The unit that a table word names. -/
def unitOf (tw : Nat) : Nat := bitsOf tw 5 4

/-- Whether the engine queues that the instruction's commands enter have room for every served slice in effect (R362, R370). -/
def Ctx.room (x : Ctx) (s : State) : Bool :=
  if isDray x.key then
    let q := s.queued (.dray x.v.core)
    let n := (x.inEffect s).length
    decide (q.length + n ≤ 32) && decide ((q.filter (fun c => c.bid == x.bid)).length + n ≤ 16)
  else if isSurveyor x.key then
    (List.range 4).all (fun u =>
      decide ((s.queued (.surveyor u)).length + ((x.inEffect s).filter (fun i => unitOf (x.tableWord s i) == u)).length ≤ 64))
  else true

end Sys2Proof.Machine
end

