-- ==== Sys2Proof/Machine/Barrel.lean ====
section
/-! DEFINITION. The section barrel (R19 to R23, R188, R199, R320 to R322): which slot is visited, the fetch and the checks of the word
that stands there (R47, R67, R328), readiness, empty turns, and the end of a rotation. `turn` answers what a visit does before the
meaning of its instruction. -/

namespace Sys2Proof.Machine

/-! ## Slots of a rotation -/

/-- Whether a slot is visited in the rotation in progress: it is occupied, and not filled during it (R321). -/
def Slot.due (x : Slot) : Bool := !x.gangs.isEmpty && !x.fresh

/-- The next slot that the rotation visits. -/
def Section.nextDue (x : Section) : Option Nat :=
  (List.range 16).find? (fun n => decide (x.next ≤ n) && match x.slots[n]? with
    | some y => y.due
    | none => false)

/-- Whether an occupied section of a core comes first: no other stands at an earlier cycle, and none of a lower number at the same (R320). -/
def Core.first (c : Core) (sec : Nat) : Bool :=
  decide (leastBy (fun k => ((c.secs[k]?).map (fun x => x.time)).getD 0)
    ((List.range c.secs.length).filter (fun k => ((c.secs[k]?).map (fun x => x.slots.any (fun y => !y.gangs.isEmpty))).getD false)) = some sec)

/-- SLOT_VISIT (R22): the visit of the section's next occupied slot begins, and the slot's turn passes on (R20). The sections of a core go in the
order of their cycles, the lower number first in one cycle (R320). -/
def State.visitSlot (s : State) (core sec : Nat) : Option State :=
  match s.visit, (s.core core).secs[sec]? with
  | none, some x =>
    if (s.core core).first sec = false then none
    else (match x.nextDue with
    | none => none
    | some n =>
      match x.slots[n]? with
      | none => none
      | some slot => match slot.gangs[slot.cur]? with
        | none => none
        | some g =>
          let slot1 := { slot with cur := if slot.cur + 1 < slot.gangs.length then slot.cur + 1 else 0 }
          some { s.modSec core sec (fun y => { y.modSlot n (fun _ => slot1) with next := n + 1 }) with
                 visit := some { core := core, sec := sec, slot := n, bid := g.bid, slices := g.slices } })
  | _, _ => none

def execSlotVisit (core sec : Nat) (s : State) : Host.Outcome State Fault Refusal := .next ((s.visitSlot core sec).getD s)

/-! ## Fetch (R47, R328) -/

/-- The fetch translation of a page: held by the core, or walked; its leaf must give RD and X. The record of a failure names the page's base (log entry 119). -/
def State.fetchPage (s : State) (core part page : Nat) : State × Except Failure ITrans :=
  match (s.core core).itlb.find? (fun t => t.part == part && t.page == page) with
  | some t => (s, .ok t)
  | none =>
    if 2 ^ 36 ≤ page then (s, .error { cause := .pageAbsent, ea := 65536 * page, info := walkStatus 15 6 })
    else
      let s := s.recallWalk (65536 * page) 3 (s.root part)
      match s.walk part (65536 * page) true with
      | .error f => (s, .error f)
      | .ok l =>
        if !l.rd || !l.x then (s, .error { cause := .accessRights, ea := 65536 * page, info := 2 })
        else
          let t : ITrans := { part := part, page := page, pf := l.pf, kid := l.kid }
          ((((s.keepWalk (65536 * page) 3 (s.root part)).touchLeaf l).modCore core (fun c => { c with itlb := c.itlb ++ [t] })), .ok t)

/-- A line of instructions, filled from its L2 home, the partials of the line recalled first (R283, R305, R367); none from a window that is down (R405; log entry 113). Of the 1,024 that the cache holds the one filled first goes (R5; log entry 76). -/
def State.fetchLine (s : State) (core line kid : Nat) : State × Except Failure LineData :=
  match (s.core core).icache.find? (fun x => x.line == line && x.kid == kid) with
  | some x => (s, .ok x.data)
  | none =>
    let s := s.recallLine line kid
    let d := s.dieLine (dieOf core) line kid
    if s.windowDown (128 * line) then (s, .error { cause := .peerLinkDown, ea := 128 * line, info := s.linkOf (128 * line) })
    else if d.2 ≠ Pois.none then (s, .error { cause := .eccUncorrectable, ea := 128 * line })
    else ({ s.modCore core (fun c => { c with icache := c.icache.drop (c.icache.length - 1023) ++ [{ line := line, kid := kid, data := d.1 }] }) with
            free := s.free + 1 }, .ok d.1)

/-- Whether a lost flit of a line's fill holds a byte of the line (R385). -/
def State.fetchLost (s : State) (core line kid o : Nat) : Bool :=
  (((s.core core).icache.find? (fun x => x.line == line && x.kid == kid)).map (fun x => x.lost.getLsbD (o / 32))).getD false

/-- Four bytes of an instruction: no dword crosses a line. -/
def State.fetchDword (s : State) (core part pc : Nat) : State × Except Failure Nat :=
  match s.fetchPage core part (pc / 65536) with
  | (s1, .error f) => (s1, .error f)
  | (s1, .ok t) =>
    let pa := 65536 * t.pf + pc % 65536
    match s1.fetchLine core (lineOf pa) t.kid with
    | (s2, .error f) => (s2, .error f)
    | (s2, .ok d) =>
      if s2.fetchLost core (lineOf pa) t.kid (pa % 128) then (s2, .error { cause := .eccUncorrectable, ea := pa }) else (s2, .ok (lineNat d (pa % 128) 4))

/-- The word at an address: its three dwords in ascending order. -/
def State.fetch (s : State) (core part pc : Nat) : State × Except Failure W96 :=
  match s.fetchDword core part pc with
  | (s1, .error f) => (s1, .error f)
  | (s1, .ok d0) => match s1.fetchDword core part (pc + 4) with
    | (s2, .error f) => (s2, .error f)
    | (s2, .ok d1) => match s2.fetchDword core part (pc + 8) with
      | (s3, .error f) => (s3, .error f)
      | (s3, .ok d2) => (s3, .ok (BitVec.ofNat 96 (d0 + 2 ^ 32 * d1 + 2 ^ 64 * d2)))

/-! ## Readiness (R22, R60 to R62, R222, R362, R370) -/

/-- The hints of a word. -/
structure Hints where
  dist : Nat
  setf : BitVec 4
  wm   : BitVec 12

/-- The hints as the word's bits give them: form L has no wait mask (R61). -/
def rawHints (w : W96) : Hints :=
  let formL := ((opRow? (opKey (w.extractLsb' 0 9).toNat (w.extractLsb' 13 6))).map (fun r => r.formL)).getD false
  { dist := (w.extractLsb' 23 4).toNat, setf := w.extractLsb' 27 4, wm := if formL then 0 else w.extractLsb' 80 12 }

/-- Whether the minimum distance of a word has elapsed in a slice (R23, R60). -/
def Slice.distOk (sl : Slice) (h : Hints) : Bool :=
  match sl.since with
  | none => true
  | some n => decide (max h.dist 1 ≤ n)

/-- Whether the seventeenth held result would wait for the oldest (R62). -/
def Slice.heldFull (sl : Slice) (wm : BitVec 12) (holds : Bool) : Bool :=
  let sl := sl.release (fun p => p.named wm)
  holds && decide (16 ≤ sl.heldCount) && !((sl.oldestHeld.map (fun p => p.ready)).getD true)

/-- Whether a slice waits for something other than its distance: a flag, a full flag, a held result or a full engine queue. -/
def Ctx.waits (x : Ctx) (s : State) (h : Hints) (room : Bool) (i : Nat) : Bool :=
  let sl := s.sl x.bid i
  !sl.flagsReady h.wm h.setf || sl.heldFull h.wm (x.holds s i) || !room

/-! ## Held slices (R188) -/

/-- A held slice whose condition has held is released at its own turn: a WAITF releases the held results it names, and a quorum wait clears
the armed bit (R62, R188, R209). -/
def Slice.unhold (sl : Slice) : Slice :=
  match sl.wait with
  | some w =>
    if w.met then
      let sl := { sl with wait := none }
      match w.kind with
      | .flags m => sl.release (fun p => p.named m)
      | .quorum q => sl.disarm q
      | _ => sl
    else sl
  | none => sl

/-- The deferred trap that a released wait takes in a slice, at the waiting instruction's own address (R169, R258, R417): the slice stays held, and is
released after it is resumed (R189; log entry 43). -/
def Slice.unholdTrap (b : Block) (sl : Slice) : Option Trap :=
  match sl.wait with
  | some w => if w.met then (sl.dueDeferred (waitTakes b w.kind)).map (fun d => d.taken (sl.pc - 12)) else none
  | none => none

/-! ## The turn -/

/-- What a visit comes to before the meaning of its instruction. -/
inductive Turn where
  /-- The visit is over, with nothing issued. -/
  | over (s : State)
  /-- Every served slice is ready, and the instruction issues. -/
  | issue (s : State) (i : Instr)

/-- A precise trap of the word at the visit's address (R67). -/
def State.wordTrap (s : State) (v : Visit) (cause : Cause) (pc : W64) (word : W96) (ea info : Nat) : State :=
  s.visitTrap v
    { cause := cause, kind := 0, slc := v.slices.headD 0, ea := ea, info := info, pc := pc, tpc := pc, word := word }

/-- The trap of a word that does not decode (R66, R67, R337). -/
def DecodeError.cause : DecodeError → Cause
  | .illegalOpcode => .illegalOpcode
  | .illegalType _ => .illegalType
  | .illegalEncoding _ => .illegalEncoding
def DecodeError.info : DecodeError → Nat
  | .illegalOpcode => 0
  | .illegalType ty => ty.toNat
  | .illegalEncoding n => n

/-- The visit of slices none of which is held: the word is fetched and decoded, and issues once every slice is ready. -/
def State.tryIssue (s : State) (v : Visit) (held : Nat → Bool) : Turn :=
  let pc := (s.sl v.bid (v.slices.headD 0)).pc
  match s.fetch v.core (s.blk v.bid).part pc.toNat with
  | (s1, .error f) =>
    if v.slices.any held || f.held then .over (s1.emptyTurn v (fun _ => false)) else .over (s1.wordTrap v f.cause pc 0 f.ea f.info)
  | (s1, .ok w) =>
    let h := rawHints w
    let x : Option Ctx := match decode w with
      | .ok i => i.fields.map (fun p => Ctx.make p.1 p.2 v s1)
      | .error _ => none
    let waits := fun i => match x with
      | some x => x.waits s1 h (x.room s1) i
      | none => !(s1.sl v.bid i).flagsReady h.wm 15
    let advances := fun i => !held i && !(s1.sl v.bid i).distOk h && !waits i
    if v.slices.any (fun i => held i || !(s1.sl v.bid i).distOk h || waits i) then .over (s1.emptyTurn v advances)
    else match decode w with
      | .ok i => .issue s1 i
      | .error e => .over (s1.wordTrap v (DecodeError.cause e) pc w 0 (DecodeError.info e))

/-- Whether a block no longer issues in a visit: it has stopped, but for an event of this same cycle, which does not hold back the other
sections' visits of the cycle (R332). -/
def State.halted (s : State) (bid : Nat) : Bool :=
  match (s.blk bid).stop with
  | none => false
  | some { state := _, trap := some _, cycle := n } => n != s.cycle bid
  | some { state := _, trap := none, cycle := _ } => true

/-- Whether a slice's next instruction may not yet be fetched, an IFENCE of the slice being outstanding (R222). -/
def Slice.unfetched (sl : Slice) : Bool := sl.mops.any (fun m => decide (m.kind = .ifence))

/-- What the visit in progress does (R20, R22, R188, R202, R222, R248, R332): nothing for a block that has stopped or has pending records to perform; it is passed over while a served slice
sits out; held slices whose condition has held are released, and the others make the turn empty, as does a slice that may not fetch. -/
def State.turn (s : State) (v : Visit) : Turn :=
  let b := s.blk v.bid
  if s.halted v.bid || !(s.redoLeft b).isEmpty then .over (s.emptyTurn v (fun _ => false))
  else if v.slices.any (fun i => decide (0 < (b.sl i).ycnt)) then
    let s := s.forSlices v.bid v.slices (fun _ sl => { sl with ycnt := sl.ycnt - 1 })
    .over { s.modSec v.core v.sec (fun x => { x with passed := true }) with visit := none }
  else match firstSome (fun i => (b.sl i).unholdTrap b) v.slices with
    | some t => .over (s.visitTrap v t)
    | none =>
      let s := s.forSlices v.bid v.slices (fun _ sl => sl.unhold)
      let held := fun i => ((s.sl v.bid i).wait).isSome
      if v.slices.all held || v.slices.any (fun i => (s.sl v.bid i).unfetched) then .over (s.emptyTurn v (fun _ => false)) else s.tryIssue v held

/-! ## The end of a rotation (R20, R199, R321) -/

/-- A strand released by REGANG.any in this rotation: its block, stage, address, site and pass count, and its slices. -/
structure Loose where
  bid   : Nat
  stage : Nat
  addr  : W64
  site  : Nat
  pass  : W32
  deriving DecidableEq, Repr

/-- Whether a slice waits for the end of the rotation, and for which packing. -/
def Slice.loose (sl : Slice) (bid : Nat) : Option Loose :=
  match sl.wait with
  | some { kind := .rotation addr site pass, word := _, met := false } => some { bid := bid, stage := sl.stage, addr := addr, site := site, pass := pass }
  | _ => none

/-- Strands packed in order into gangs of at most eight slices, a strand never being split (R199). -/
def packStrands : List Nat → List (List Nat) → List (List Nat)
  | cur, [] => if cur.isEmpty then [] else [cur]
  | cur, st :: l => if cur.length + st.length ≤ 8 then packStrands (cur ++ st) l else cur :: packStrands st l

/-- The slices of a section: block and slice. -/
def Section.slices (x : Section) : List (Nat × Nat) := x.slots.flatMap (fun y => y.gangs.flatMap (fun g => g.slices.map (fun i => (g.bid, i))))

/-- REGANG_ANY_PACKING (R199): the strands of each packing, by lowest slice, gathered into gangs and released. -/
def State.packAny (s : State) (core sec : Nat) : State :=
  let all := (((s.core core).secs[sec]?).map Section.slices).getD []
  let keys := firstKeys (all.filterMap (fun p => (s.sl p.1 p.2).loose p.1))
  keys.foldl (fun s k =>
    let mine := (List.range (s.blk k.bid).slices.length).filter (fun i => all.contains (k.bid, i) && decide ((s.sl k.bid i).loose k.bid = some k))
    let strands := firstKeys (mine.map (fun i => (s.sl k.bid i).strand.filter (fun j => mine.contains j)))
    let s := (packStrands [] strands).foldl (fun s g => s.gather k.bid (mine.filter g.contains)) s
    s.forSlices k.bid mine (fun _ sl => { sl with wait := sl.wait.map (fun w => { w with met := true }) })) s

/-- HEDDLE_MOVE (R20): the last sub-gang of the lowest-numbered slot that holds two or more moves into the lowest-numbered free slot. -/
def Section.heddle (x : Section) : Section :=
  match x.slots.findIdx? (fun y => y.gangs.isEmpty), x.slots.findIdx? (fun y => decide (2 ≤ y.gangs.length)) with
  | some free, some src =>
    match x.slots[src]? with
    | none => x
    | some y => match y.gangs.getLast? with
      | none => x
      | some g =>
        let y1 := { y with gangs := y.gangs.dropLast, cur := if y.cur + 1 < y.gangs.length then y.cur else 0 }
        (x.modSlot src (fun _ => y1)).modSlot free (fun _ => { gangs := [g], cur := 0, fresh := false })
  | _, _ => x

/-- ROTATION_END (R321): the REGANG.any packing, then at most one heddle move; a rotation in which every occupied slot was passed over takes one
cycle (R202, R322). -/
def State.endRotation (s : State) (core sec : Nat) : Option State :=
  match s.visit, (s.core core).secs[sec]? with
  | none, some x =>
    if x.nextDue.isSome || !x.slots.any (fun y => !y.gangs.isEmpty) then none
    else
      let s := (s.packAny core sec).modSec core sec Section.heddle
      let s := if !x.spent && x.passed then s.charge core sec 1 else s
      some (s.modSec core sec (fun y =>
        { y with next := 0, spent := false, passed := false, slots := y.slots.map (fun z => { z with fresh := false }) }))
  | _, _ => none

def execRotationEnd (core sec : Nat) (s : State) : Host.Outcome State Fault Refusal := .next ((s.endRotation core sec).getD s)

end Sys2Proof.Machine
end

