-- ==== Sys2Proof/Machine/EngineMem.lean ====
section
/-! DEFINITION. How the engines and the Loom reach the bench and memory: interlocks, translation page by page, the write-back of the issuing
core's L1, reads at their homes and writes performed there (R166, R231, R240, R246, R255, R256, R430; log entry 13). -/

namespace Sys2Proof.Machine

/-- A run of bytes that an engine reaches: in memory or the bench, and what it does there. -/
structure Run where
  mem : Bool
  ea  : Nat
  n   : Nat
  use : Use
  deriving DecidableEq, Repr

def Use.writes : Use → Bool
  | .access _ w => w
  | .slot | .atomic => true
  | .range => false
def Run.writes (r : Run) : Bool := r.use.writes

/-- A run read as .nc, one written as .wt, and a run of reduction slots (R225, R253). -/
def Run.read (mem : Bool) (ea n : Nat) : Run := { mem := mem, ea := ea, n := n, use := .access (some .nc) false }
def Run.store (mem : Bool) (ea n : Nat) : Run := { mem := mem, ea := ea, n := n, use := .access (some .wt) true }
def Run.slots (ea n : Nat) : Run := { mem := true, ea := ea, n := n, use := .slot }

/-- What an attempt at part of an engine's work comes to. -/
inductive Did (α : Type) where
  /-- It waits, and nothing changed. -/
  | wait
  /-- Something was written back first; the part is tried again. -/
  | again (s : State)
  /-- A check fails. -/
  | fail (s : State) (f : Failure)
  /-- It is done. -/
  | ok (s : State) (v : α)

/-! ## The drain of a stopped block (R248, R259, R332; log entry 47) -/

/-- Whether an operation is accepted and not yet copied out or completed (R348). -/
def LoomOp.live (o : LoomOp) : Bool := decide (o.stage = .accepted ∨ o.stage = .granted)
def LoomOp.isDrain (o : LoomOp) : Bool := decide (wordOpc o.word = 0x188 ∨ wordOpc o.word = 0x189)
def LoomOp.isLopf (o : LoomOp) : Bool := decide (wordOpc o.word = 0x184)
/-- LMMG and LDRX, which read the index stage. -/
def LoomOp.readsStage (o : LoomOp) : Bool := decide (wordOpc o.word = 0x187 ∨ wordOpc o.word = 0x189)

/-- The work of an engine or the Loom that a block has under way: where it stands in issue order, what it reads and writes, its place in Loom order or
its engine, whether it completes before every save, and whether the drain of it has ended at an absent page. -/
structure Work where
  iss    : Nat
  spans  : List Span
  loom   : Bool := false
  lopf   : Bool := false
  reader : Bool := false
  eng    : Option Eng := none
  must   : Bool
  absent : Bool
  deriving DecidableEq, Repr

/-- Loom operations: those accepted and every LOPF complete before a save (R248). -/
def LoomOp.asWork (o : LoomOp) : Work :=
  { iss := o.iss, spans := o.spans, loom := true, lopf := o.isLopf, reader := o.readsStage, must := o.live || o.isLopf, absent := o.absent }
/-- MXV calls: a Mill segment completes before a save. So do the priors and the results of a Loom segment between pieces, which stands beside its call
as work that does not go on to further pieces (R248). -/
def MxvCall.asWork (c : MxvCall) : List Work :=
  let w : Work := { iss := c.iss, spans := c.spans, must := (c.seg.map (fun g => g.mill)).getD false, absent := c.absent }
  w :: (if (c.seg.map (fun g => !g.mill && decide (g.kpos ≠ 0))).getD false then [{ w with must := true, absent := true }] else [])
/-- Engine commands: ATPOST, ATDONE and ATMRG complete before a save (R259). -/
def EngCmd.asWork (c : EngCmd) : Work :=
  { iss := c.iss, spans := c.spans, eng := some c.eng, absent := c.absent,
    must := decide (wordOpc c.word = 0x1D1 ∨ wordOpc c.word = 0x1D2 ∨ wordOpc c.word = 0x1D3) }

/-- Whether two spans conflict: a bench granule that one of them writes, or a line of memory that the later writes and the earlier reads. -/
def Span.after (x p : Span) : Bool :=
  if x.mem then p.mem && x.write && !p.write && overlap 128 p.lo p.n x.lo x.n
  else !p.mem && (x.write || p.write) && overlap 256 p.lo p.n x.lo x.n

/-- Whether work waits for work issued before it: in Loom order, in the order of an engine, or for a granule or line (R166, R226, R231, R235, R256). -/
def Work.after (x p : Work) : Bool :=
  decide (p.iss < x.iss) &&
    ((x.loom && p.loom && (!x.lopf || p.lopf || p.reader)) || (x.eng.isSome && x.eng == p.eng) || x.spans.any (fun a => p.spans.any a.after))

/-- Whether a memory instruction waits for work issued before it (R166, R231). -/
def Mop.waitsFor (m : Mop) (b : Block) (p : Work) : Bool :=
  decide (p.iss < m.iss) && decide (m.stage ≠ 5) && m.accs.any (fun a => !a.done &&
    (if m.kind.bench then p.spans.any (Span.after { mem := false, lo := a.ea, n := a.bytes, write := decide (m.kind ≠ .ldb) })
      else decide (m.kind ≠ .load) && b.readIn p.spans a))

/-- The work of a block. -/
def State.works (s : State) (b : Block) : List Work :=
  b.loomQ.map LoomOp.asWork ++ (s.mxvs.filter (fun c => c.bid == b.bid)).flatMap MxvCall.asWork ++
    (s.cmds.filter (fun c => c.bid == b.bid && decide (c.stage ≠ .finished))).map EngCmd.asWork

/-- Work with that for which some of it waits, n times over. -/
def closeWorks (all : List Work) : Nat → List Work → List Work
  | 0, l => l
  | n + 1, l => closeWorks all n (all.filter (fun p => l.contains p || l.any (fun x => x.after p)))

/-- The work that a stopped block completes before it is saved: what R248 and R259 say, and what its memory instructions already issued, which
complete, wait for (R332). -/
def State.needed (s : State) (b : Block) : List Work :=
  let all := s.works b
  let ms := b.slices.flatMap (fun sl => sl.mops)
  closeWorks all all.length (all.filter (fun p => p.must || ms.any (fun m => m.waitsFor b p)))

/-- Whether a block's work of an issue number goes on: the block is resident and runs, or needs it before its save. -/
def State.goesOn (s : State) (bid iss : Nat) : Bool :=
  let b := s.blk bid
  decide (b.loc ≠ .saved) && (b.stop.isNone || (s.needed b).any (fun p => p.iss == iss && !p.absent))

/-! ## Checks at issue (R225, R253) -/

/-- The runs of a span under one governing range each, whatever its pages. -/
def rangeSegs (ranges : List RangeRec) (ea n : Nat) : List Seg := segsFrom ranges (ea + n) (cutPoints ranges ea (ea + n))

/-- Steps 2 and 3 of R167 for the bytes of a run of memory, or the bench bound of R30: the trap they raise. -/
def Ctx.runTrap (x : Ctx) (s : State) (i : Nat) (r : Run) : Option Trap :=
  if r.n = 0 then none
  else if r.mem then
    let ranges := (s.launch x.bid).ranges
    if 2 ^ 52 < r.ea + r.n then some (x.trap .rangeUndeclared i 0 r.ea)
    else (s.rangeFailure x.bid (!r.writes) r.writes (rangeSegs ranges r.ea r.n)).map (fun f => { x.trap f.cause i 0 f.ea f.info with ext := f.ext })
  else if (s.blk x.bid).bsize < r.ea + r.n then some (x.trap .indexBounds i 0 r.ea r.ea (s.blk x.bid).bsize)
  else none

/-- The first run that traps. -/
def Ctx.runTraps (x : Ctx) (s : State) (i : Nat) (l : List Run) : Option Trap := firstSome (x.runTrap s i) l

/-- Whether some byte of a run lies in a declared range of an attribute other than PV (R250). -/
def State.beyondPv (s : State) (bid : Nat) (r : Run) : Bool :=
  let ranges := (s.launch bid).ranges
  (rangeSegs ranges r.ea r.n).any (fun g => match ranges[g.rix.getD 0]? with
    | some d => decide (d.attr ≠ .pv)
    | none => false)

/-! ## Reaching a part's runs -/

/-- Every page that some runs of memory touch, translated and checked; a run of the bench has no pieces and stays within the
share (R30, R430). -/
def State.reach (s : State) (bid : Nat) : List Run → State × Except Failure (List (List Piece))
  | [] => (s, .ok [])
  | r :: rs =>
    let b := s.blk bid
    match (if r.mem then s.checkSpan bid r.ea r.n (!r.writes) r.writes r.use (fun _ => false)
        else if 0 < r.n ∧ b.bsize < r.ea + r.n then (s, .error { cause := .indexBounds, ea := r.ea, info := r.ea, info2 := b.bsize })
        else (s, .ok [])) with
    | (s1, .error f) => (s1, .error f)
    | (s1, .ok ps) => match s1.reach bid rs with
      | (s2, .error f) => (s2, .error f)
      | (s2, .ok l) => (s2, .ok (ps :: l))

/-- Work whose block's memory instructions, already translated, wait for it: it goes on through the extents that a shoot-down or the retirement of a key holds new
accesses from (R330, R396; log entry 114). -/
def State.excused (s : State) (bid iss : Nat) : Bool :=
  let b := s.blk bid
  let all := s.works b
  (s.shooting.isSome || s.retiring.isSome) &&
    (closeWorks all all.length (all.filter (fun p => (b.slices.flatMap (fun sl => sl.mops)).any (fun m => m.waitsFor b p)))).any (fun p => p.iss == iss)

/-- The runs of a part of a piece of work reached. -/
def State.reachFor (s : State) (bid iss : Nat) (rs : List Run) : State × Except Failure (List (List Piece)) :=
  if s.excused bid iss then
    (let r := ({ s with shooting := none, retiring := none } : State).reach bid rs
     ({ r.1 with shooting := s.shooting, retiring := s.retiring }, r.2))
  else s.reach bid rs

/-- The lines of a piece: line and key. -/
def Piece.lines (p : Piece) : List (Nat × Nat) :=
  if p.n = 0 ∨ isRemote p.pa then []
  else (List.range (lineOf (p.pa + p.n - 1) + 1 - lineOf p.pa)).map (fun k => (lineOf p.pa + k, p.ext.kid))

/-- What must come before an access to a line: the write-back of the L1's dirty bytes, and for a write the drop of its copy (R231, R255, R305); the fold of a
slot line's partials, unless addends are sent to it (R366, R367); or, as none, the arrival of writes on their way. A write also waits for pins
(R289), and one to a WO line for those that its L2 home holds, so that their written bits are set (R293). -/
def State.lineFirst (s : State) (core : Nat) (use : Use) (wo : Bool) (l : Nat × Nat) : Option (Option State) :=
  match ((s.core core).l1Find l.1).filter (fun x => use.writes || x.dirty != 0) with
  | some x => some (some (if use.writes then s.flushL1 core l.1 else s.writeBackL1 core x (BitVec.allOnes 128)))
  | none =>
    if s.ownPending core l.1 l.2 then some none
    else if use = .slot then none
    else if (s.partials ++ s.partQ).any (fun p => p.line == l.1 && p.kid == l.2) then some (some (s.recallLine l.1 l.2))
    else if use.writes && (s.pinned l.1 l.2 || (wo && s.diePending core l.1 l.2)) then some none
    else none

/-- The runs of one part of an engine's work made ready: granules granted, pages translated, lines written back. A response lost on the fabric is poisoned (R385,
R306). -/
def State.prepare (s : State) (core bid iss : Nat) (rs : List Run) : Did (List (List Piece)) :=
  if rs.any (fun r => !r.mem && s.engineHeld bid iss r.ea r.n r.writes) then .wait
  else match s.reachFor bid iss rs with
    | (s1, .error f) => if f.held then .wait else .fail s1 f
    | (s0, .ok ps) =>
      let s1 := { s0 with free := s0.free + 1 }
      match firstSome (fun (p : Run × List Piece) =>
          firstSome (fun (q : Piece) => firstSome (s1.lineFirst core p.1.use (decide (q.ext.attr = .wo))) q.lines) p.2) (rs.zip ps) with
      | some none => .wait
      | some (some s2) => .again s2
      | none => match (rs.zip ps).find? (fun p => s1.lostRead && p.1.mem && !p.1.writes && !p.2.isEmpty) with
        | some p => .fail { s1 with lostRead := false } { cause := .eccUncorrectable, ea := p.1.ea }
        | none => .ok s1 ps

/-! ## Reading and writing -/

/-- The bytes of a piece, read at its home on a die (R300); a poisoned unit and a lost peer are faults (R306, R405). -/
def State.pieceBytes (s : State) (die : Nat) (p : Piece) : Except Failure (List Byte) :=
  if isRemote p.pa then
    (if s.windowDown p.pa then .error { cause := .peerLinkDown, ea := p.va, info := s.linkOf p.pa }
      else .ok ((List.range p.n).map (fun k => s.remoteByte p.ext.kid (p.pa + k))))
  else if readPoison (fun l => s.dieLine die l p.ext.kid) p.pa p.n then
    .error { cause := .eccUncorrectable, ea := p.va + ((List.range p.n).find? (fun k => readPoison (fun l => s.dieLine die l p.ext.kid) (p.pa + k) 1)).getD 0 }
  else .ok (readBytes (fun l => s.dieLine die l p.ext.kid) p.pa p.n)

def State.piecesBytes (s : State) (die : Nat) : List Piece → Except Failure (List Byte)
  | [] => .ok []
  | p :: l => match s.pieceBytes die p with
    | .error f => .error f
    | .ok b => match s.piecesBytes die l with
      | .error f => .error f
      | .ok c => .ok (b ++ c)

/-- The bytes of a run. -/
def State.runBytes (s : State) (die bid : Nat) (r : Run) (ps : List Piece) : Except Failure (List Byte) :=
  if r.mem then s.piecesBytes die ps
  else if (s.blk bid).benchPoisoned r.ea r.n then .error { cause := .eccUncorrectable, ea := r.ea }
  else .ok (mgets 0 (s.blk bid).bench r.ea r.n)

/-- The bytes of several runs, each apart. -/
def State.runsBytes (s : State) (die bid : Nat) : List (Run × List Piece) → Except Failure (List (List Byte))
  | [] => .ok []
  | (r, ps) :: l => match s.runBytes die bid r ps with
    | .error f => .error f
    | .ok b => match s.runsBytes die bid l with
      | .error f => .error f
      | .ok c => .ok (b :: c)

/-- A write of some bytes of a line performed at its home; the rewritten bytes of a WO line are not performed, and are answered
(R293). -/
def State.storeHome (s : State) (line kid : Nat) (wo : Bool) (mask : LineMask) (d : LineData) : State × LineMask :=
  let key := woKey line kid
  let wo := wo && decide (s.frameAttr (line / 512) = .wo)
  let prior := if wo then mget 0 s.wo key else 0
  let bad := mask &&& prior
  let s := if wo then { s with wo := mput 0 s.wo key (prior ||| mask) } else s
  (((s.homeWriteLine line kid (mask &&& ~~~bad) d).dropWalk line), bad)

/-- Whether a run of memory meets a fault that only its home knows: a rewritten byte of a WO line, or a lost peer (R258, R293, R405). -/
def State.pieceFault (s : State) (p : Piece) (mask : Nat × LineMask × LineData) : Option Failure :=
  let bad := mask.2.1 &&& mget 0 s.wo (woKey mask.1 p.ext.kid)
  if bad = 0 then none else some { cause := .woRewrite, ea := p.va + (128 * mask.1 + (bitsSet 128 bad.toNat).headD 0 - p.pa) }
def State.writeFault (s : State) (ps : List Piece) : Option Failure :=
  firstSome (fun (p : Piece) =>
    if isRemote p.pa then (if s.windowDown p.pa then some { cause := .peerLinkDown, ea := p.va, info := s.linkOf p.pa } else none)
    else if p.ext.attr = .wo then firstSome (s.pieceFault p) (splitLines p.pa (List.replicate p.n 0)) else none) ps

/-- A line of an engine's write: it counts in the slice's touched-slice mask (R45, R255). It is held by the L2 home of the issuing core's die, so performed
at .die (R305); one to a WO line, tested by `writeFault`, is performed at the L3 home (log entry 13). -/
def State.engineLine (s : State) (src : Source) (unit : Nat → Nat) (p : Piece) (l : Nat × LineMask × LineData) : State :=
  let home := l2Home (dieOf src.core) l.1
  let vline := p.va / 128 + (l.1 - lineOf p.pa)
  let s := s.modSl src.bid src.slice (fun sl => { sl with tsm := sl.tsm ||| (1#32 <<< home) })
  if p.ext.attr = .wo then
    let r := s.storeHome l.1 p.ext.kid true l.2.1 l.2.2
    let ea := p.va + (128 * l.1 + (bitsSet 128 r.2.toNat).headD 0 - p.pa)
    if r.2 = 0 then r.1 else r.1.deferAt { src with unit := unit ea } .woRewrite src.thr ea
  else
    (({ s with nextId := s.nextId + 1 } : State).acceptL2
      { id := s.nextId, sl := home, line := l.1, kid := p.ext.kid, mask := l.2.1, data := l.2.2, poison := 0, wo := false,
        src := { src with vline := vline }, thrs := [] }).dropWalk l.1

/-- A piece written; bytes of another device are written there (log entries 8 and 9). -/
def State.writePiece (s : State) (src : Source) (unit : Nat → Nat) (p : Piece) (l : List Byte) : State :=
  if s.windowDown p.pa then s.deferAt { src with unit := unit p.va } .peerLinkDown src.thr p.va (s.linkOf p.pa)
  else if isRemote p.pa then { s.dirtyExtent src.bid p.va with free := s.free + 1 }
  else (splitLines p.pa l).foldl (fun s x => s.engineLine src unit p x) (s.dirtyExtent src.bid p.va)

/-- A run written; `unit` gives the unit that a fault at an address names. -/
def State.writeRun (s : State) (src : Source) (r : Run) (ps : List Piece) (l : List Byte) (unit : Nat → Nat := fun _ => src.unit) : State :=
  if r.mem then (ps.foldl (fun (q : State × List Byte) p => (q.1.writePiece src unit p (q.2.take p.n), q.2.drop p.n)) (s, l)).1
  else s.modBlk src.bid (fun b => b.benchWrite r.ea l)

/-- Addends sent to the slots of a run, one for each 16 bytes (R175); a slot of another device is added to there. -/
def State.addRun (s : State) (src : Source) (ps : List Piece) (vals : List W32) : State :=
  (ps.foldl (fun (q : State × List W32) p =>
    let n := p.n / 16
    let s := (q.2.take n).zipIdx.foldl (fun (s : State) v =>
      let ea := p.va + 16 * v.2
      if s.windowDown p.pa then s.deferAt src .peerLinkDown src.thr ea (s.linkOf p.pa)
      else if isRemote p.pa then { s.dirtyExtent src.bid ea with free := s.free + 1 }
      else (s.dirtyExtent src.bid ea).sendAddend src.core (p.pa + 16 * v.2) p.ext.kid v.1 { src with vline := ea }) q.1
    (s, q.2.drop n)) (s, vals)).1

/-- An absent page that an engine or the Loom meets suspends the block (R241, R248, R430). -/
def State.suspend (s : State) (bid slice unit : Nat) (pc : W64) (word : W96) (f : Failure) : State :=
  s.takeTrap bid { cause := .pageAbsent, kind := 0, slc := slice, unit := unit, ea := f.ea, info := f.info, info2 := f.info2, pc := pc,
                   tpc := pc, word := word, ext := f.ext }

end Sys2Proof.Machine
end

