-- ==== Sys2Proof/Machine/Integer.lean ====
section
/-! DEFINITION. The integer, address, bit, move and compare instructions of group 0x040 (R118 to R130). -/

namespace Sys2Proof.Machine

/-- An element-wise operation on two sources: exact integers of the type's signedness, the result reduced modulo 2^w (R68). -/
def intOp2 (ty : Ty) (g : Nat → Int → Int → Int) (a b : W32) : W32 :=
  packElems ty.width (List.zipWith (fun p q => wrapTo ty.width (g ty.width (elemInt ty ty.width p) (elemInt ty ty.width q)))
    (elems ty.width a) (elems ty.width b))

/-- An element-wise operation on one source. -/
def intOp1 (ty : Ty) (g : Nat → Int → Int) (a : W32) : W32 :=
  packElems ty.width ((elems ty.width a).map (fun p => wrapTo ty.width (g ty.width (elemInt ty ty.width p))))

/-- An element-wise operation on bit patterns. -/
def bitOp2 (w : Nat) (g : Nat → Nat → Nat) (a b : W32) : W32 := packElems w (List.zipWith g (elems w a) (elems w b))

/-- An instruction of an element-wise integer operation on OA and OB. -/
def intInstr2 (key : Nat) (g : Ctx → Nat → Int → Int → Int) (f : FormR) : State → Host.Outcome State Fault Refusal :=
  regOp key f (fun x s i t => [intOp2 x.ty (g x) (x.a s i t) (x.b s i t)])

/-- An instruction of one element-wise integer operation on OA. -/
def intInstr1 (key : Nat) (g : Ctx → Nat → Int → Int) (f : FormR) : State → Host.Outcome State Fault Refusal :=
  regOp key f (fun x s i t => [intOp1 x.ty (g x) (x.a s i t)])

/-- An instruction of a word operation on OA and OB. -/
def wordInstr2 (key : Nat) (g : Ctx → W32 → W32 → W32) (f : FormR) : State → Host.Outcome State Fault Refusal :=
  regOp key f (fun x s i t => [g x (x.a s i t) (x.b s i t)])

/-- An instruction of a word operation on OA. -/
def wordInstr1 (key : Nat) (g : W32 → W32) (f : FormR) : State → Host.Outcome State Fault Refusal :=
  regOp key f (fun x s i t => [g (x.a s i t)])

/-! ## Arithmetic (R118 to R121) -/

/-- The largest element of an integer type. -/
def typeMax (ty : Ty) (w : Nat) : Int := if ty.signed then 2 ^ (w - 1) - 1 else 2 ^ w - 1
/-- The smallest element of an integer type. -/
def typeMin (ty : Ty) (w : Nat) : Int := if ty.signed then -(2 ^ (w - 1)) else 0

/-- IADD (R118): wrap(a + b). -/
def execIadd (f : FormR) : State → Host.Outcome State Fault Refusal := intInstr2 0x040 (fun _ _ a b => a + b) f
/-- ISUB (R118): wrap(a − b). -/
def execIsub (f : FormR) : State → Host.Outcome State Fault Refusal := intInstr2 0x041 (fun _ _ a b => a - b) f
/-- IMUL (R118): the low 32 bits of the product. -/
def execImul (f : FormR) : State → Host.Outcome State Fault Refusal := intInstr2 0x042 (fun _ _ a b => a * b) f
/-- IMULH (R118): bits [63:32] of the exact product. -/
def execImulh (f : FormR) : State → Host.Outcome State Fault Refusal := intInstr2 0x043 (fun _ _ a b => a * b / 2 ^ 32) f
/-- IMAD (R118): wrap(a · b + d). -/
def execImad (f : FormR) : State → Host.Outcome State Fault Refusal :=
  regOp 0x044 f (fun x s i t => [x.a s i t * x.b s i t + x.d s i t])
/-- IMADW (R119): the pair destination plus the exact 64-bit product. -/
def execImadw (f : FormR) : State → Host.Outcome State Fault Refusal :=
  regOp 0x045 f (fun x s i t =>
    let p := elemInt x.ty 32 (x.a s i t).toNat * elemInt x.ty 32 (x.b s i t).toNat
    words64 (x.d64 s i t + BitVec.ofInt 64 p))

/-- Quotient and remainder of R120. -/
def divRem (signed : Bool) (a b : W32) : W32 × W32 :=
  if b = 0 then (if signed then (if 0 ≤ a.toInt then 0x7FFFFFFF else 0x80000000) else 0xFFFFFFFF, a)
  else if signed then
    if a = 0x80000000 ∧ b = 0xFFFFFFFF then (0x80000000, 0)
    else (BitVec.ofInt 32 (a.toInt.tdiv b.toInt), BitVec.ofInt 32 (a.toInt.tmod b.toInt))
  else (BitVec.ofNat 32 (a.toNat / b.toNat), BitVec.ofNat 32 (a.toNat % b.toNat))

/-- IDIV (R120). -/
def execIdiv (f : FormR) : State → Host.Outcome State Fault Refusal :=
  issueAll 0x046 (.r f) (fun x s => x.divide s (fun i t => [(divRem x.ty.signed (x.a s i t) (x.b s i t)).1]))
/-- IREM (R120). -/
def execIrem (f : FormR) : State → Host.Outcome State Fault Refusal :=
  issueAll 0x047 (.r f) (fun x s => x.divide s (fun i t => [(divRem x.ty.signed (x.a s i t) (x.b s i t)).2]))

/-- IMIN (R118). -/
def execImin (f : FormR) : State → Host.Outcome State Fault Refusal := intInstr2 0x048 (fun _ _ a b => if b < a then b else a) f
/-- IMAX (R118). -/
def execImax (f : FormR) : State → Host.Outcome State Fault Refusal := intInstr2 0x049 (fun _ _ a b => if a < b then b else a) f
/-- IABS (R118), saturating with MOD[0]. -/
def execIabs (f : FormR) : State → Host.Outcome State Fault Refusal :=
  intInstr1 0x04A (fun x w a =>
    let m : Int := if a < 0 then -a else a
    if x.md.getLsbD 0 then clampInt (typeMin x.ty w) (typeMax x.ty w) m else m) f
/-- INEG (R118), saturating with MOD[0]. -/
def execIneg (f : FormR) : State → Host.Outcome State Fault Refusal :=
  intInstr1 0x04B (fun x w a => if x.md.getLsbD 0 then clampInt (typeMin x.ty w) (typeMax x.ty w) (-a) else -a) f

/-- The predicate N that MOD[2:0] names, as a participant reads it. -/
def Ctx.modPred (x : Ctx) (s : State) (i t : Nat) : Bool := (s.sl x.bid i).pred (x.mod 2 0) t
/-- The write of the predicate that MOD[2:0] names; none for p7. -/
def Ctx.modPredWrite (x : Ctx) (t : Nat) (b : Bool) : List RegWrite :=
  if x.mod 2 0 = 7 then [] else [{ dest := .pred (x.mod 2 0) t, mask := 0xFFFFFFFF, val := predWord b }]

/-- An addition or subtraction with a carry or borrow through the predicate of MOD[2:0]; p7 gives none in and none out (R121). -/
def carryInstr (key : Nat) (g : W32 → W32 → Bool → W32 × Bool) (f : FormR) : State → Host.Outcome State Fault Refusal :=
  issueAll key (.r f) (fun x s =>
    let r := fun i t => g (x.a s i t) (x.b s i t) (decide (x.mod 2 0 ≠ 7) && x.modPred s i t)
    x.put s (fun i t => [(r i t).1]) (fun i t => x.modPredWrite t (r i t).2))

/-- IADDC (R121). -/
def execIaddc (f : FormR) : State → Host.Outcome State Fault Refusal := carryInstr 0x04C addCarry f
/-- ISUBB (R121). -/
def execIsubb (f : FormR) : State → Host.Outcome State Fault Refusal := carryInstr 0x04D subBorrow f

/-! ## Shifts (R122) -/

/-- An element shifted left. -/
def shlElem (w a c : Nat) : Nat := if c < w then (a <<< c) % 2 ^ w else 0
/-- An element shifted right, zero-filled. -/
def shrElem (w a c : Nat) : Nat := if c < w then a >>> c else 0
/-- An element shifted right, filled with its top bit. -/
def sarElem (w a c : Nat) : Nat := wrapTo w (signedOf w a / 2 ^ (if c < w then c else w))

/-- An element-wise shift instruction. -/
def shiftInstr (key : Nat) (g : Nat → Nat → Nat → Nat) (f : FormR) : State → Host.Outcome State Fault Refusal :=
  regOp key f (fun x s i t => [bitOp2 x.ty.width (g x.ty.width) (x.a s i t) (x.b s i t)])

/-- SHL (R122). -/
def execShl (f : FormR) : State → Host.Outcome State Fault Refusal := shiftInstr 0x04E shlElem f
/-- SHR (R122). -/
def execShr (f : FormR) : State → Host.Outcome State Fault Refusal := shiftInstr 0x04F shrElem f
/-- SAR (R122). -/
def execSar (f : FormR) : State → Host.Outcome State Fault Refusal := shiftInstr 0x050 sarElem f
/-- ROT (R122): left, or right with MOD[0], by b mod 32. -/
def execRot (f : FormR) : State → Host.Outcome State Fault Refusal :=
  wordInstr2 0x051 (fun x a b => if x.md.getLsbD 0 then a.rotateRight (b.toNat % 32) else a.rotateLeft (b.toNat % 32)) f

/-! ## Bit instructions (R123, R124) -/

/-- The word whose bit i is `g i`. -/
def bitsWord (g : Nat → Bool) : W32 := BitVec.ofNat 32 (sumNat ((List.range 32).map (fun i => if g i then 2 ^ i else 0)))

/-- AND (R123). -/
def execAndW (f : FormR) : State → Host.Outcome State Fault Refusal := wordInstr2 0x052 (fun _ a b => a &&& b) f
/-- OR (R123). -/
def execOrW (f : FormR) : State → Host.Outcome State Fault Refusal := wordInstr2 0x053 (fun _ a b => a ||| b) f
/-- XOR (R123). -/
def execXorW (f : FormR) : State → Host.Outcome State Fault Refusal := wordInstr2 0x054 (fun _ a b => a ^^^ b) f
/-- ANDN (R123). -/
def execAndn (f : FormR) : State → Host.Outcome State Fault Refusal := wordInstr2 0x055 (fun _ a b => a &&& ~~~b) f
/-- NOT (R123). -/
def execNotW (f : FormR) : State → Host.Outcome State Fault Refusal := wordInstr1 0x056 (fun a => ~~~a) f

/-- BFE (R124). -/
def bfeWord (signed : Bool) (a b : W32) : W32 :=
  let pos := (b.extractLsb' 0 8).toNat
  let len := min (b.extractLsb' 8 8).toNat 32
  let field := fun i => if pos + i ≤ 31 then a.getLsbD (pos + i) else signed && a.getLsbD 31
  bitsWord (fun i => if i < len then field i else signed && decide (0 < len) && field (len - 1))

/-- BFI (R124). -/
def bfiWord (a b d : W32) : W32 :=
  let pos := (b.extractLsb' 0 8).toNat
  let len := min (b.extractLsb' 8 8).toNat 32
  bitsWord (fun i => if pos ≤ i ∧ i < pos + len then a.getLsbD (i - pos) else d.getLsbD i)

/-- BFE (R124). -/
def execBfe (f : FormR) : State → Host.Outcome State Fault Refusal := wordInstr2 0x057 (fun x a b => bfeWord x.ty.signed a b) f
/-- BFI (R124): destructive. -/
def execBfi (f : FormR) : State → Host.Outcome State Fault Refusal :=
  regOp 0x058 f (fun x s i t => [bfiWord (x.a s i t) (x.b s i t) (x.d s i t)])

/-- Set bits of a word. -/
def popcount (a : W32) : Nat := (bitsSet 32 a.toNat).length
/-- POPC (R123). -/
def execPopc (f : FormR) : State → Host.Outcome State Fault Refusal := wordInstr1 0x059 (fun a => BitVec.ofNat 32 (popcount a)) f
/-- Leading zeros of a word: 31 less the highest set bit; 32 for 0. -/
def clz (a : W32) : Nat := match (bitsSet 32 a.toNat).getLast? with
  | some k => 31 - k
  | none => 32
/-- Trailing zeros of a word: the lowest set bit; 32 for 0. -/
def ctz (a : W32) : Nat := (bitsSet 32 a.toNat).headD 32
/-- CLZ (R123). -/
def execClz (f : FormR) : State → Host.Outcome State Fault Refusal := wordInstr1 0x05A (fun a => BitVec.ofNat 32 (clz a)) f
/-- CTZ (R123). -/
def execCtz (f : FormR) : State → Host.Outcome State Fault Refusal := wordInstr1 0x05B (fun a => BitVec.ofNat 32 (ctz a)) f
/-- BREV (R123). -/
def execBrev (f : FormR) : State → Host.Outcome State Fault Refusal := wordInstr1 0x05C (fun a => bitsWord (fun i => a.getLsbD (31 - i))) f

/-! ## Addresses, moves and selection (R125, R126) -/

/-- LEA (R125). -/
def execLea (f : FormR) : State → Host.Outcome State Fault Refusal := wordInstr2 0x05D (fun x a b => a + (b <<< x.mod 2 0)) f
/-- LEA64 (R125). -/
def execLea64 (f : FormR) : State → Host.Outcome State Fault Refusal :=
  regOp 0x05E f (fun x s i t =>
    let b := x.b s i t
    words64 (x.src64 s i t x.f.oa + ((if x.ty.signed then b.signExtend 64 else b.zeroExtend 64) <<< x.mod 2 0)))
/-- MOV (R126). -/
def execMov (f : FormR) : State → Host.Outcome State Fault Refusal := wordInstr1 0x05F (fun a => a) f
/-- MOVI (R126). -/
def execMovi (f : FormL) : State → Host.Outcome State Fault Refusal :=
  issueAll 0x060 (.l f) (fun x s => x.put s (fun _ _ => [f.imm]))
/-- MOVH (R126): the odd register takes the immediate, the even one a, or 0. -/
def execMovh (f : FormL) : State → Host.Outcome State Fault Refusal :=
  issueAll 0x061 (.l f) (fun x s => x.put s (fun i t => [x.a s i t, f.imm]))
/-- SEL (R126). -/
def execSel (f : FormR) : State → Host.Outcome State Fault Refusal :=
  regOp 0x062 f (fun x s i t => [if (x.modPred s i t) != x.md.getLsbD 3 then x.a s i t else x.b s i t])

/-! ## Comparisons (R127, R128) -/

/-- ITST (R128). -/
def execItst (f : FormR) : State → Host.Outcome State Fault Refusal :=
  regOp 0x063 f (fun x s i t =>
    [predWord (intCond (x.mod 2 0) (elemInt x.ty 32 (x.a s i t).toNat) (elemInt x.ty 32 (x.b s i t).toNat))])
/-- ICMP (R128). -/
def execIcmp (f : FormR) : State → Host.Outcome State Fault Refusal :=
  intInstr2 0x064 (fun x _ a b => if intCond (x.mod 2 0) a b then -1 else 0) f

/-! ## 64-bit pairs (R129) -/

/-- A pair instruction on two 64-bit sources. -/
def pairInstr (key : Nat) (g : W64 → W64 → W64) (f : FormR) : State → Host.Outcome State Fault Refusal :=
  regOp key f (fun x s i t => words64 (g (x.src64 s i t x.f.oa) (x.src64 s i t x.f.ob)))

/-- IADD64 (R129). -/
def execIadd64 (f : FormR) : State → Host.Outcome State Fault Refusal := pairInstr 0x065 (fun a b => a + b) f
/-- ISUB64 (R129). -/
def execIsub64 (f : FormR) : State → Host.Outcome State Fault Refusal := pairInstr 0x066 (fun a b => a - b) f
/-- IMUL64 (R129). -/
def execImul64 (f : FormR) : State → Host.Outcome State Fault Refusal := pairInstr 0x067 (fun a b => a * b) f
/-- SHL64 (R129): b is 32-bit. -/
def execShl64 (f : FormR) : State → Host.Outcome State Fault Refusal :=
  regOp 0x068 f (fun x s i t => words64 (BitVec.ofNat 64 (shlElem 64 (x.src64 s i t x.f.oa).toNat (x.b s i t).toNat)))
/-- SHR64 (R129): zero-filled for N64, sign-filled for I64. -/
def execShr64 (f : FormR) : State → Host.Outcome State Fault Refusal :=
  regOp 0x069 f (fun x s i t =>
    words64 (BitVec.ofNat 64 ((if x.ty.signed then sarElem else shrElem) 64 (x.src64 s i t x.f.oa).toNat (x.b s i t).toNat)))

end Sys2Proof.Machine
end

