-- ==== Sys2Proof/Machine/FloatOps.lean ====
section
/-! DEFINITION. The floating-point and conversion instructions of group 0x080 (R131 to R143). -/

namespace Sys2Proof.Machine

/-- The rounding mode of MOD[2:0] (R77). -/
def Ctx.rm (x : Ctx) : RMode := RMode.ofCode (x.mod 2 0)

/-- An FP32 instruction on OA and OB. -/
def floatInstr2 (key : Nat) (g : RMode → Nat → Nat → Nat) (f : FormR) : State → Host.Outcome State Fault Refusal :=
  regOp key f (fun x s i t => [BitVec.ofNat 32 (g x.rm (x.a s i t).toNat (x.b s i t).toNat)])

/-- An FP32 instruction on OA. -/
def floatInstr1 (key : Nat) (g : RMode → Nat → Nat) (f : FormR) : State → Host.Outcome State Fault Refusal :=
  regOp key f (fun x s i t => [BitVec.ofNat 32 (g x.rm (x.a s i t).toNat)])

/-! ## Arithmetic and compares (R131 to R135) -/

/-- FADD (R131). -/
def execFadd (f : FormR) : State → Host.Outcome State Fault Refusal := floatInstr2 0x080 (fun rm a b => fAdd Fmt.f32 rm false a b) f
/-- FSUB (R131). -/
def execFsub (f : FormR) : State → Host.Outcome State Fault Refusal := floatInstr2 0x081 (fun rm a b => fAdd Fmt.f32 rm true a b) f
/-- FMUL (R131). -/
def execFmul (f : FormR) : State → Host.Outcome State Fault Refusal := floatInstr2 0x082 (fun rm a b => fMul Fmt.f32 rm a b) f
/-- FFMA (R131): destructive. -/
def execFfma (f : FormR) : State → Host.Outcome State Fault Refusal :=
  regOp 0x083 f (fun x s i t => [BitVec.ofNat 32 (fFma Fmt.f32 x.rm (x.a s i t).toNat (x.b s i t).toNat (x.d s i t).toNat)])
/-- FMIN (R132). -/
def execFmin (f : FormR) : State → Host.Outcome State Fault Refusal := floatInstr2 0x084 (fun _ a b => fMinMax Fmt.f32 false a b) f
/-- FMAX (R132). -/
def execFmax (f : FormR) : State → Host.Outcome State Fault Refusal := floatInstr2 0x085 (fun _ a b => fMinMax Fmt.f32 true a b) f
/-- FTST (R133). -/
def execFtst (f : FormR) : State → Host.Outcome State Fault Refusal :=
  regOp 0x086 f (fun x s i t => [predWord (fCond (x.mod 2 0) (x.a s i t).toNat (x.b s i t).toNat)])
/-- FCMP (R133). -/
def execFcmp (f : FormR) : State → Host.Outcome State Fault Refusal :=
  regOp 0x087 f (fun x s i t => [if fCond (x.mod 2 0) (x.a s i t).toNat (x.b s i t).toNat then 0xFFFFFFFF else 0])
/-- FRND (R134). -/
def execFrnd (f : FormR) : State → Host.Outcome State Fault Refusal := floatInstr1 0x088 (fun rm a => fRnd rm a) f
/-- FDIV (R91). -/
def execFdiv (f : FormR) : State → Host.Outcome State Fault Refusal := floatInstr2 0x089 (fun _ a b => fDiv a b) f
/-- FSQRT (R91). -/
def execFsqrt (f : FormR) : State → Host.Outcome State Fault Refusal := floatInstr1 0x08A (fun _ a => fSqrt a) f
/-- FRCP (R91). -/
def execFrcp (f : FormR) : State → Host.Outcome State Fault Refusal := floatInstr1 0x08B (fun _ a => fRcp a) f
/-- FRSQ (R91). -/
def execFrsq (f : FormR) : State → Host.Outcome State Fault Refusal := floatInstr1 0x08C (fun _ a => fRsq a) f
/-- FEX2 (R92). -/
def execFex2 (f : FormR) : State → Host.Outcome State Fault Refusal := floatInstr1 0x08D (fun _ a => fEx2 a) f
/-- FLG2 (R93). -/
def execFlg2 (f : FormR) : State → Host.Outcome State Fault Refusal := floatInstr1 0x08E (fun _ a => fLg2 a) f
/-- FSIN (R94). -/
def execFsin (f : FormR) : State → Host.Outcome State Fault Refusal := floatInstr1 0x08F (fun _ a => fSin a) f
/-- FCOS (R94). -/
def execFcos (f : FormR) : State → Host.Outcome State Fault Refusal := floatInstr1 0x090 (fun _ a => fCos a) f
/-- FTANH (R95). -/
def execFtanh (f : FormR) : State → Host.Outcome State Fault Refusal := floatInstr1 0x091 (fun _ a => fTanh a) f

/-! ## Packed 16-bit floats (R136) -/

/-- A packed instruction on both 16-bit elements of OA, OB and, where it is destructive, OD. -/
def halfInstr (key : Nat) (g : RMode → Nat → Nat → Nat → Nat) (f : FormR) : State → Host.Outcome State Fault Refusal :=
  regOp key f (fun x s i t =>
    let a := x.a s i t
    let b := x.b s i t
    let d := x.d s i t
    [packElems 16 ((List.range 2).map (fun j => g x.rm (elemAt 16 a j) (elemAt 16 b j) (elemAt 16 d j)))])

/-- HADD2 (R136). -/
def execHadd2 (f : FormR) : State → Host.Outcome State Fault Refusal := halfInstr 0x092 (fun rm a b _ => fAdd Fmt.f16 rm false a b) f
/-- HMUL2 (R136). -/
def execHmul2 (f : FormR) : State → Host.Outcome State Fault Refusal := halfInstr 0x093 (fun rm a b _ => fMul Fmt.f16 rm a b) f
/-- HFMA2 (R136): destructive. -/
def execHfma2 (f : FormR) : State → Host.Outcome State Fault Refusal := halfInstr 0x094 (fun rm a b d => fFma Fmt.f16 rm a b d) f
/-- BADD2 (R136). -/
def execBadd2 (f : FormR) : State → Host.Outcome State Fault Refusal := halfInstr 0x095 (fun rm a b _ => fAdd Fmt.bf16 rm false a b) f
/-- BMUL2 (R136). -/
def execBmul2 (f : FormR) : State → Host.Outcome State Fault Refusal := halfInstr 0x096 (fun rm a b _ => fMul Fmt.bf16 rm a b) f
/-- BFMA2 (R136): destructive. -/
def execBfma2 (f : FormR) : State → Host.Outcome State Fault Refusal := halfInstr 0x097 (fun rm a b d => fFma Fmt.bf16 rm a b d) f

/-! ## Conversions (R137 to R142) -/

/-- The value of a conversion's source element: an integer, a float or an E8M0 scale. -/
def cvtVal (src : Ty) (x : Nat) : FVal :=
  match tyFmt src with
  | some f => f.decode x
  | none => if src = .e8m0x4 then .fin false 1 ((x % 256 : Nat) - 127) else intVal (elemInt src src.width x)

/-- The E8M0 code of a value (R138): the power of two chosen by the mode. -/
def toScale (rm : RMode) (v : FVal) : Nat :=
  match v with
  | .nan _ => 0xFF
  | .inf neg => if neg then 0xFF else 0xFE
  | .fin neg m e =>
    if m = 0 ∨ neg then 0xFF
    else
      let l := Nat.log2 m
      let k : Int := (l : Int) + e
      let k := if rm.up false (k % 2).toNat (m - 2 ^ l) (2 ^ l) then k + 1 else k
      (clampInt (-127) 127 k + 127).toNat

/-- A value rounded to an integer type and clamped (R138, R140). -/
def toInteger (rm : RMode) (dst : Ty) (v : FVal) : Nat :=
  let lo := typeMin dst dst.width
  let hi := typeMax dst dst.width
  wrapTo dst.width (match v with
    | .nan _ => 0
    | .inf neg => if neg then lo else hi
    | .fin neg m e => let q := Dy.ratio ⟨m, e⟩
      clampInt lo hi (roundInt rm neg q.1 q.2))

/-- A value rounded into a float format, saturating where `sat` says so (R78, R429). -/
def toFloat (rm : RMode) (sat : Bool) (src dst : Fmt) (v : FVal) : Nat :=
  match v with
  | .nan b => Fmt.carry src dst b
  | .inf neg => if sat then dst.maxFin neg else dst.inf neg
  | .fin neg m e =>
    let q := Dy.ratio ⟨m, e⟩
    let r := dst.roundRatio rm neg q.1 q.2
    if sat && r.2 then dst.maxFin neg else r.1

/-- One element converted (R138). -/
def cvtElem (rm : RMode) (sat : Bool) (src dst : Ty) (x : Nat) : Nat :=
  let v := cvtVal src x
  let nanScale := decide (src = .e8m0x4 ∧ x % 256 = 255)
  match tyFmt dst with
  | some f => if nanScale then f.nan false 5 else toFloat rm sat ((tyFmt src).getD f) f v
  | none =>
    if dst = .e8m0x4 then (if src = .e8m0x4 then x else toScale rm v)
    else if nanScale then 0 else toInteger rm dst v

/-- The source type of MOD[5:2] (R138). -/
def Ctx.srcTy (x : Ctx) : Ty := Ty.ofCode (x.md.extractLsb' 2 4)

/-- The source elements of a conversion in a thread (R137). -/
def Ctx.spanSrc (x : Ctx) (s : State) (i t : Nat) (src dst : Ty) : List Nat :=
  spanElems src (s.srcSpan x.bid i t src (spanOf src.width dst.width).2.1 x.f.oa)

/-- CVT (R138). -/
def execCvt (f : FormR) : State → Host.Outcome State Fault Refusal :=
  regOp 0x098 f (fun x s i t =>
    packSpan x.ty ((x.spanSrc s i t x.srcTy x.ty).map (cvtElem (RMode.ofCode (x.mod 1 0)) false x.srcTy x.ty)))

/-- CVTS (R139): element j is rounded under the key of the stream and the counter c·n + j. -/
def execCvts (f : FormR) : State → Host.Outcome State Fault Refusal :=
  regOp 0x099 f (fun x s i t =>
    let b := x.src64 s i t x.f.ob
    let es := x.spanSrc s i t x.srcTy x.ty
    let key := srKey (s.launch x.bid).seed (b.extractLsb' 48 16).toNat
    let c := (b.extractLsb' 0 48).toNat
    packSpan x.ty (es.mapIdx (fun j e =>
      cvtElem (srMode key (BitVec.ofNat 64 (c * es.length + j))) (x.md.getLsbD 0) x.srcTy x.ty e)))

/-- The scale exponent of F2I and I2F (R140): b read as I32 and clamped. -/
def fixScale (b : W32) : Int := clampInt (-512) 512 b.toInt

/-- A value times a power of two. -/
def FVal.scaled (v : FVal) (k : Int) : FVal :=
  match v with
  | .fin neg m e => .fin neg m (e + k)
  | v => v

/-- F2I (R140): OA is an FP32 operand and OB an I32 operand. -/
def execF2i (f : FormR) : State → Host.Outcome State Fault Refusal :=
  regOp 0x09A f (fun x s i t =>
    [BitVec.ofNat 32 (toInteger x.rm x.ty ((Fmt.f32.decode (x.src s i t .f32 x.f.oa).toNat).scaled (fixScale (x.src s i t .i32 x.f.ob))))])

/-- I2F (R140): OB is an I32 operand. -/
def execI2f (f : FormR) : State → Host.Outcome State Fault Refusal :=
  regOp 0x09B f (fun x s i t =>
    let n := elemInt x.ty 32 (x.a s i t).toNat
    [BitVec.ofNat 32 (Fmt.f32.round x.rm ⟨n, -(fixScale (x.src s i t .i32 x.f.ob))⟩)])

/-- One element quantised under a scale (R141). -/
def qntElem (rm : RMode) (dst : Ty) (sc x : Nat) : Nat :=
  let scaled := (Fmt.f32.decode x).scaled (127 - (sc : Int))
  match tyFmt dst with
  | some f => if sc = 255 then f.nan false 2 else toFloat rm true Fmt.f32 f scaled
  | none =>
    let l : Int := if dst = .q4 then 7 else 127
    if sc = 255 then 0
    else match scaled with
      | .nan _ => 0
      | .inf neg => wrapTo dst.width (if neg then -l else l)
      | .fin neg m e => let q := Dy.ratio ⟨m, e⟩
        wrapTo dst.width (clampInt (-l) l (roundInt rm neg q.1 q.2))

/-- QNT (R141): OB is read as a 32-bit word, whose bits [7:0] are the scale. -/
def execQnt (f : FormR) : State → Host.Outcome State Fault Refusal :=
  regOp 0x09C f (fun x s i t =>
    let sc := (x.src s i t .i32 x.f.ob).toNat % 256
    packSpan x.ty ((x.spanSrc s i t .f32 x.ty).map (qntElem x.rm x.ty sc)))

/-- One element dequantised under a scale (R142). -/
def dqntElem (src : Ty) (sc x : Nat) : Nat :=
  if sc = 255 then Fmt.f32.nan false 2
  else
    let v := match tyFmt src with
      | some f => elemOf f x
      | none => intVal (signedOf src.width x)
    match v with
    | .fin neg m e => fRound Fmt.f32 .rne (.fin neg m (e + (sc : Int) - 127))
    | v => fRound Fmt.f32 .rne v

/-- The first trap of the participants, slices and positions ascending. -/
def Ctx.firstTrap (x : Ctx) (s : State) (g : Nat → Nat → Option Trap) : Option Trap :=
  firstSome (fun i => firstSome (g i) (x.parts s i)) x.v.slices

/-- The packed word of a DQNT. -/
def Ctx.dqntWord (x : Ctx) (s : State) (i t : Nat) : W32 := (s.srcSpan x.bid i t x.ty 1 x.f.oa).headD 0
/-- BAD_FORMAT of a Q4 code 0b1000 (R142). -/
def Ctx.dqntTrap (x : Ctx) (s : State) : Option Trap :=
  x.firstTrap s (fun i t =>
    if x.ty = .q4 then ((elems 4 (x.dqntWord s i t)).findIdx? (fun e => e == 8)).map (fun j => x.trap .badFormat i t 0 j) else none)
/-- The FP32 words of a DQNT in a thread: OB is read as a 32-bit word, whose bits [7:0] are the scale. -/
def Ctx.dqnt (x : Ctx) (s : State) (i t : Nat) : List W32 :=
  let sc := (x.src s i t .i32 x.f.ob).toNat % 256
  (elems x.ty.width (x.dqntWord s i t)).map (fun e => BitVec.ofNat 32 (dqntElem x.ty sc e))

/-- DQNT (R142). -/
def execDqnt (f : FormR) : State → Host.Outcome State Fault Refusal :=
  issueTry 0x09D (.r f) Ctx.dqntTrap (fun x s => x.put s (x.dqnt s))

/-- FCLS (R143). -/
def execFcls (f : FormR) : State → Host.Outcome State Fault Refusal := floatInstr1 0x09E (fun _ a => fClass a) f

end Sys2Proof.Machine
end

