-- ==== Sys2Proof/Machine/LoomMath.lean ====
section
/-! DEFINITION. The arithmetic of the Loom and of MXV over operand bytes: rows of blocks with their scales, 2:4 expansion, the sums of R86,
and the elements that LLDC and LDRN convert (R229, R232, R233, R238, R239, R244, R351). -/

namespace Sys2Proof.Machine

/-! ## Rows of blocks -/

/-- A block of an operand row: its scale and its 32 elements. -/
abbrev MatBlock := FVal × List FVal

/-- The value of an element of a type; a NaN is carried to FP32 (R85). -/
def elemVal (ty : Ty) (x : Nat) : FVal :=
  match tyFmt ty with
  | some f => elemOf f x
  | none => intVal (elemInt ty ty.width x)

/-- The elements of a run of bytes of a type. -/
def elemVals (ty : Ty) (l : List Byte) : List FVal := (chunk (tyBytes ty) l.length l).map (fun b => elemVal ty (natOfBytes b))

/-- The blocks of a row from its bytes and, where the operand has them, its scale bytes; or the Q4 block and element that is BAD_FORMAT
(R76, R229, R233). -/
def rowBlocks (ty : Ty) (bytes : List Byte) (scales : Option (List Byte)) : Except (Nat × Nat) (List MatBlock) :=
  if ty = .q4 then
    let blks := chunk 18 bytes.length bytes
    match firstSome (fun (p : List Byte × Nat) => ((List.range 32).find? (fun n => (q4Code p.1 n).isNone)).map (fun n => (p.2, n))) blks.zipIdx with
    | some e => .error e
    | none => .ok (blks.map (fun b => (scaleVal (q4Scale b), (List.range 32).map (fun n => (q4Code b n).getD (intVal 0)))))
  else
    .ok ((chunk (32 * tyBytes ty) bytes.length bytes).zipIdx.map (fun p =>
      (match scales with
        | some l => scaleVal ((l[p.2]?).getD 0).toNat
        | none => scaleOne, elemVals ty p.1)))

/-- A row of +0 elements with scale 1; against itself it gives the row of +0 products of an entry 0xFFFF_FFFF (R234). -/
def zeroRow (ty : Ty) : List MatBlock := List.replicate (loomK ty false / 32) (scaleOne, List.replicate 32 (intVal 0))

/-! ## 2:4 patterns (R233) -/

/-- Nibble j of a metadata word. -/
def patternOf (w : W32) (j : Nat) : Nat := bitsOf w.toNat (4 * j + 3) (4 * j)

/-- The first group of a word whose pattern is none of the six. -/
def badGroup (w : W32) : Option Nat := (List.range 8).find? (fun j => patternOf w j ∉ [0x3, 0x5, 0x6, 0x9, 0xA, 0xC])

/-- The logical blocks of a stored row: logical block g takes half of stored block g div 2 under metadata word g. -/
def expandRow (blks : List MatBlock) (ws : List W32) : List MatBlock :=
  ws.zipIdx.map (fun p =>
    let b := (blks[p.2 / 2]?).getD (scaleOne, [])
    let els := b.2.drop (16 * (p.2 % 2))
    (b.1, (List.range 8).flatMap (fun j =>
      let pat := patternOf p.1 j
      (List.range 4).map (fun i =>
        if Nat.testBit pat i then (els[2 * j + (bitsSet i pat).length]?).getD (intVal 0) else intVal 0))))

/-! ## Sums (R86, R232, R244) -/

/-- The blocks of two rows added in ascending order, each by one rounding. -/
def accRow (window : Bool) (prior : Nat) (a b : List MatBlock) : Nat :=
  (a.zip b).foldl (fun acc p => accBlock acc (blockValue window p.1.1 p.2.1 (p.1.2.zip p.2.2))) prior

/-- Whether a type's elements take the window form (R351). -/
def windowTy (ty : Ty) : Bool := decide (ty = .h16x2 ∨ ty = .bf16x2)

/-- A tile after one 128 by 128 step, row by row; none stands for a row of A whose products are all +0. -/
def mmaTile (ty : Ty) (z : Bool) (prior : List W32) (a : List (Option (List MatBlock))) (b : List (List MatBlock)) : List W32 :=
  ((a.flatMap (fun ra => b.map (fun rb => match ra with
    | some ra => (ra, rb)
    | none => (zeroRow ty, zeroRow ty)))).zip prior).map (fun p =>
    BitVec.ofNat 32 (accRow (windowTy ty) (if z then 0 else p.2.toNat) p.1.1 p.1.2))

/-! ## Tiles -/

/-- The 16,384 elements of a tile, row by row. -/
def Block.tile (b : Block) (t : Nat) : List W32 := mrun 0 b.tiles (16384 * t) 16384
/-- A tile written whole. -/
def Block.setTile (b : Block) (t : Nat) (l : List W32) : Block := { b with tiles := mreplace 0 b.tiles (16384 * t) l }
/-- A tile's elements dropped: every element reads +0. -/
def Block.clearTile (b : Block) (t : Nat) : Block := { b with tiles := mdrop (fun k => decide (k / 16384 = t)) b.tiles }

/-- The corner of a tile, row by row. -/
def cornerOf (l : List W32) (rows cols : Nat) : List W32 := (chunk 128 128 l).take rows |>.flatMap (fun r => r.take cols)

/-- A tile with the corner's elements replaced by a function of the old and the given ones. -/
def withCorner (f : Nat → Nat → Nat) (l : List W32) (rows : List (List Nat)) : List W32 :=
  (chunk 128 128 l).zipIdx.flatMap (fun p => match rows[p.2]? with
    | none => p.1
    | some xs => p.1.zipIdx.map (fun e => match xs[e.2]? with
      | some x => BitVec.ofNat 32 (f e.1.toNat x)
      | none => e.1))

/-! ## Loads and drains (R238, R239) -/

/-- The element that LLDC leaves for memory bits x over the tile's c. -/
def lldcElem (ty : Ty) (add : Bool) (c x : Nat) : Nat :=
  let v := elemVal ty x
  if add then accBlock c (blockValue (windowTy ty) scaleOne scaleOne [(v, intVal 1)])
  else match v with
    | .nan b => b
    | _ => fRound Fmt.f32 .rne v

/-- The exact sum of two values; NaN in operand order, and ∞ − ∞ of cause 3. -/
def exactAdd (rm : RMode) (a b : FVal) : FVal :=
  match firstNan Fmt.f32 [a, b] with
  | some n => .nan n
  | none => match a, b with
    | .inf na, .inf nb => if na = nb then a else .nan nan3
    | .inf _, _ => a
    | _, .inf _ => b
    | _, _ =>
      let d := a.dy.add b.dy
      if d.m = 0 then .fin (if a.isZero && b.isZero then zeroSign rm a.neg b.neg else decide (rm = .rd)) 0 0
      else .fin (decide (d.m < 0)) d.m.natAbs d.e

/-- The NaN that a destination element carries into its own format where the tile's c is none (R85). -/
def keptNan (ty : Ty) (c : Nat) (old : Option Nat) : Option Nat :=
  match tyFmt ty, old with
  | some f, some x => if (Fmt.f32.decode c).isNan then none else firstNan f [f.decode x]
  | _, _ => none

/-- The element that LDRN stores for the tile's c: `old` is the destination's where .add names it (R239, R429). -/
def ldrnElem (ty : Ty) (rm : RMode) (sat : Bool) (c : Nat) (old : Option Nat) : Nat :=
  match keptNan ty c old with
  | some n => n
  | none =>
  let y := match old with
    | none => Fmt.f32.decode c
    | some x => exactAdd rm (Fmt.f32.decode c) (elemVal ty x)
  if ty = .f32 ∧ old.isNone ∧ !(sat && y.isInf) then c
  else match y with
    | .fin n 0 _ => ((tyFmt ty).getD Fmt.f32).zero n
    | _ => toFloat rm sat Fmt.f32 ((tyFmt ty).getD Fmt.f32) y

/-- The rounding mode of an LDRN for element number n of the tile: MOD[5:3], where 4 is stochastic under the key and the counter base
(R77, R80, R81, R239). -/
def ldrnMode (w : W96) (d : List W32) (key : W64) (n : Nat) : RMode :=
  let c := wordMod w 5 3
  if c = 4 then srMode key (BitVec.ofNat 64 (dD d 4 + n)) else RMode.ofCode c

end Sys2Proof.Machine
end

