-- ==== Sys2Proof/Machine/Matrix.lean ====
section
/-! DEFINITION. Group 0x180 at issue: the checks of descriptors, entry into Loom order, joint signing, and MXVP (R224 to R250). What the
Loom and the Mill then do stands in Loom.lean and Mxv.lean. -/

namespace Sys2Proof.Machine

/-- Entry n of the index stage (R235): 0xFFFF_FFFF where nothing is recorded. -/
def Block.idxAt (b : Block) (n : Nat) : Nat := (mget 0xFFFFFFFF b.idx n).toNat
/-- The whole index stage. -/
def Block.stage (b : Block) : List W32 := mrun 0xFFFFFFFF b.idx 0 128

/-! ## Checks of descriptors (R225) -/

/-- BAD_FORMAT at a descriptor register, where `bad` names one; INFO is its number within the descriptor (log entry 44). -/
def Ctx.badField (x : Ctx) (i : Nat) (bad : Option Nat) : Option Trap := bad.map (fun n => x.trap .badFormat i 0 0 n)

/-- The first register of a list of (register, bits) with one of its bits set. -/
def nonzeroAt (d : List W32) (l : List (Nat × W32)) : Option Nat := (l.find? (fun p => (d[p.1]?).getD 0 &&& p.2 ≠ 0)).map (fun p => p.1)

/-- The first of a list of (register, condition) whose condition holds. -/
def failsAt (l : List (Nat × Bool)) : Option Nat := (l.find? (fun p => p.2)).map (fun p => p.1)

/-- MISALIGNED for the first of a list of (value, alignment) that breaks it; `ea` is the address named. -/
def Ctx.misaligned (x : Ctx) (i ea : Nat) (l : List (Nat × Nat)) : Option Trap :=
  (l.find? (fun p => p.1 % p.2 != 0)).map (fun p => x.trap .misaligned i 0 ea p.2)

/-- The first trap of a list of checks. -/
def firstTrapOf (l : List (Option Trap)) : Option Trap := firstSome id l

/-- REG_RANGE for a free tile (R228). -/
def Ctx.tileFree (x : Ctx) (s : State) (i : Nat) : Option Trap :=
  let b := s.blk x.bid
  let n := wordTile x.word
  if b.heldView.getLsbD n then none else some (x.trap .regRange i 0 0 n b.tcount)

/-- The runs of an operand's rows. -/
def MatSrc.reads (m : MatSrc) (rows : List Nat) : List Run := (m.runs rows).map (fun p => Run.read m.mem p.1 p.2)

/-- The rows of A that an LMMG gathers under an index stage. -/
def gatherRows (stage : List W32) : List Nat := (stage.map (fun v => v.toNat)).filter (fun n => n != 0xFFFFFFFF)

/-- The checks of LMMA, LMMS and LMMG (R225, R229, R233, R234). -/
def Ctx.matTrap (x : Ctx) (s : State) (i : Nat) (d : List W32) : Option Trap :=
  let a := loomA x.word d
  let b := loomB x.word d
  let q4 := decide (x.ty = .q4)
  let al := if q4 then 2 else 4
  let sparse := x.key == 0x186
  let step := 32 * tyBytes x.ty
  let md : List (Nat × W32) := if sparse then [(8, 0xFFE00000), (9, 0xFF000000), (10, 0xFFFFFFFF), (11, 0xFFFFFFFF)] else []
  let rows := List.range 128
  firstTrapOf [
    x.badField i (nonzeroAt d ([(4, 0xFE000000), (5, 0xFE000000)] ++ md)),
    x.badField i (failsAt [
      (4, q4 && a.scaled), (5, q4 && b.scaled), (6, !a.scaled && a.off != 0), (7, !b.scaled && b.off != 0), (1, !a.mem && dW d 1 != 0),
      (3, !b.mem && dW d 3 != 0), (9, sparse && decide (bitsOf (dW d 9) 23 0 < loomK x.ty true / 8))]),
    x.misaligned i a.base [(a.base, al), (a.stride, al), (if a.scaled then a.stride else 0, step)],
    x.misaligned i b.base [(b.base, al), (b.stride, al), (if b.scaled then b.stride else 0, step)],
    (if sparse then x.misaligned i (metaRow d 0) [(dW d 8, 4), (dW d 9, 4)] else none),
    x.runTraps s i (a.reads (if x.key = 0x187 then gatherRows (s.blk x.bid).stage else rows)),
    x.runTraps s i (b.reads rows),
    (if sparse then x.runTraps s i (rows.map (fun m => Run.read false (metaRow d m) (4 * metaWords x.ty))) else none)]

/-- The runs of a corner's rows: read, written, or both. -/
def cornerRuns (mem read write : Bool) (ty : Ty) (d : List W32) : List Run :=
  let rows := (List.range (cornerRows d)).map (fun m => (cornerRow mem d m, cornerCols d * tyBytes ty))
  (if write then rows.map (fun p => Run.store mem p.1 p.2) else []) ++ (if read then rows.map (fun p => Run.read mem p.1 p.2) else [])

/-- The span of the slots that an LDRX's indices can name; none with LIM 0 (R242). -/
def ldrxSpan (d : List W32) : List Run :=
  if dW d 6 = 0 then [] else [Run.slots (dD d 0) ((dW d 6 - 1) * cornerStride d + 16 * cornerCols d)]

/-- The checks of LLDC, LDRN and LDRX (R225, R237, R239, R242, R250). -/
def Ctx.cornerTrap (x : Ctx) (s : State) (i : Nat) (d : List W32) : Option Trap :=
  let ldrx := x.key == 0x189
  let ldrn := x.key == 0x188
  let mem := ldrx || x.mod 0 0 == 1
  let add := x.mod 1 1 == 1
  let sr := ldrn && x.mod 5 3 == 4
  let eb := if ldrx then 16 else tyBytes x.ty
  let runs := if ldrx then ldrxSpan d else cornerRuns mem (!ldrn || add) ldrn x.ty d
  firstTrapOf [
    x.badField i (nonzeroAt d [(2, 0xFE000000), (7, 0xFFFFFFFF)]),
    x.badField i (failsAt [
      (1, !mem && dW d 1 != 0), (2, !ldrn && bitOf (dW d 2) 24), (3, decide (128 < cornerRows d) || decide (128 < cornerCols d)),
      (3, !sr && decide (2 ^ 16 ≤ dW d 3)), (4, !sr && dW d 4 != 0), (5, !sr && dW d 5 != 0), (6, !ldrx && dW d 6 != 0)]),
    x.misaligned i (if mem then dD d 0 else dW d 0) [(dW d 0, eb), (cornerStride d, eb)],
    x.runTraps s i runs,
    (if ldrn && add && mem && s.det x.bid then
      (runs.find? (s.beyondPv x.bid)).map (fun r => x.trap .detAtomic i 0 r.ea) else none)]

/-! ## Entry (R226, R227) -/

/-- The flag that an operation of the Loom raises: none of a class-1 instruction, whose flag falls in the visit that raises it (R62, R65; log entry 102). -/
def Ctx.loomFlag (x : Ctx) : Nat := if x.row.lat = .one then 15 else x.setf

/-- The token of a slice's flag raise. -/
def Ctx.token (x : Ctx) (s : State) (i : Nat) : Token := { slice := i, flag := x.setf, id := s.nextId }

/-- An operation formed by a slice at its issue. -/
def Ctx.formOp (x : Ctx) (s : State) (i : Nat) (d vals : List W32) : State :=
  let t : Token := { slice := i, flag := x.loomFlag, id := s.nextId }
  let seq := (s.sl x.bid i).seq
  (s.modSl x.bid i (fun sl => sl.raise x.loomFlag)).enterLoom x.bid
    (LoomOp.make i seq x.pc x.word d [t] vals (s.launch x.bid).seed)

/-- n joint signs of a slice: each records the instruction, makes the slice a member of the phase, and signs (R227). -/
def State.jointSigns (s : State) (bid q : Nat) (t : Token) (g : LoomSign) : Nat → State
  | 0 => s
  | n + 1 =>
    let s := s.modBlk bid (fun b =>
      let qu := b.quorum q
      b.setQuorum q { qu with sign := some g, members := if qu.members.contains t then qu.members else qu.members ++ [t] })
    (s.signOnce bid q).jointSigns bid q t g n

/-- A slice's part in a joint issue. -/
def Ctx.joint (x : Ctx) (s : State) (q i : Nat) (d : List W32) : State :=
  let t := x.token s i
  let n := (x.parts s i).length
  let g : LoomSign := { slice := i, seq := (s.sl x.bid i).seq, pc := x.pc, word := x.word, desc := d }
  let s := { s.modSl x.bid i (fun sl => sl.raise x.setf) with nextId := s.nextId + 1 }
  x.signOp (s.jointSigns x.bid q t g n) i

/-- The quorum register of a joint issue. -/
def Ctx.jointQ (x : Ctx) : Option Nat :=
  match x.f.ob with
  | .res (.q n) => some n.toNat
  | _ => none

/-- COUNT_RESIDUE of a joint issue on an undeclared quorum register (R209, R227). -/
def Ctx.jointUndeclared (x : Ctx) (s : State) : Option Trap :=
  match x.jointQ with
  | none => none
  | some q => x.undeclared s q

/-- The first failing check of a Loom instruction: those of its slices in effect, then the joint one. -/
def Ctx.loomTrap (x : Ctx) (s : State) (chk : Nat → Option Trap) : Option Trap :=
  match firstSome chk (x.inEffect s) with
  | some t => some t
  | none => x.jointUndeclared s

/-- Each slice in effect enters its operation into Loom order, or signs a joint one (R226, R227). -/
def Ctx.loomEnter (x : Ctx) (s : State) (desc vals : Ctx → State → Nat → List W32) : State :=
  (x.inEffect s).foldl (fun acc i => match x.jointQ with
    | none => x.formOp acc i (desc x s i) (vals x s i)
    | some q => x.joint acc q i (desc x s i)) s

/-- A Loom instruction at issue: the checks of every slice in effect, then its operation or its signs. -/
def loomIssue (key : Nat) (f : FormR) (chk : Ctx → State → Nat → List W32 → Option Trap)
    (desc : Ctx → State → Nat → List W32 := fun x s i => x.descriptor s i) (vals : Ctx → State → Nat → List W32 := fun _ _ _ => []) :
    State → Host.Outcome State Fault Refusal :=
  issueTry key (.r f) (fun x s => x.loomTrap s (fun i => chk x s i (desc x s i))) (fun x s => x.loomEnter s desc vals)

/-- LALLOC (R228). -/
def execLalloc (f : FormR) : State → Host.Outcome State Fault Refusal := loomIssue 0x180 f (fun _ _ _ _ => none)
/-- LFREE (R228). -/
def execLfree (f : FormR) : State → Host.Outcome State Fault Refusal := loomIssue 0x181 f (fun _ _ _ _ => none)
/-- LZERO (R228). -/
def execLzero (f : FormR) : State → Host.Outcome State Fault Refusal := loomIssue 0x182 f (fun x s i _ => x.tileFree s i)

/-- A Loom instruction on a held tile. -/
def tileIssue (key : Nat) (f : FormR) (chk : Ctx → State → Nat → List W32 → Option Trap) : State → Host.Outcome State Fault Refusal :=
  loomIssue key f (fun x s i d => firstTrapOf [x.tileFree s i, chk x s i d])

/-- LLDC (R238). -/
def execLldc (f : FormR) : State → Host.Outcome State Fault Refusal := tileIssue 0x183 f Ctx.cornerTrap
/-- LMMA (R232). -/
def execLmma (f : FormR) : State → Host.Outcome State Fault Refusal := tileIssue 0x185 f Ctx.matTrap
/-- LMMS (R233). -/
def execLmms (f : FormR) : State → Host.Outcome State Fault Refusal := tileIssue 0x186 f Ctx.matTrap
/-- LMMG (R234). -/
def execLmmg (f : FormR) : State → Host.Outcome State Fault Refusal := tileIssue 0x187 f Ctx.matTrap
/-- LDRN (R239). -/
def execLdrn (f : FormR) : State → Host.Outcome State Fault Refusal := tileIssue 0x188 f Ctx.cornerTrap
/-- LDRX (R242). -/
def execLdrx (f : FormR) : State → Host.Outcome State Fault Refusal := tileIssue 0x189 f Ctx.cornerTrap

/-! ## LOPF (R236) -/

/-- The first entry group E of a LOPF. -/
def Ctx.lopfE (x : Ctx) : Nat := x.mod 5 1
/-- The count n of a LOPF. -/
def Ctx.lopfN (x : Ctx) (s : State) (i : Nat) : Nat := (s.src x.bid i 0 .n32 x.f.ob).toNat
/-- The first register of a LOPF's span. -/
def regNo : Opnd → Nat
  | .lane n _ _ => n.toNat
  | .uni n _ _ => n.toNat
  | _ => 0

/-- The bench address and count of a LOPF.b, as its descriptor. -/
def Ctx.lopfDesc (x : Ctx) (s : State) (i : Nat) : List W32 :=
  [if x.mod 0 0 = 1 then s.srcReg x.bid i 0 x.f.oa 0 else 0, BitVec.ofNat 32 (x.lopfN s i)]

/-- The checks of LOPF. -/
def Ctx.lopfTrap (x : Ctx) (s : State) (i : Nat) (d : List W32) : Option Trap :=
  let n := x.lopfN s i
  let limit := if x.mod 0 0 = 1 then 128 - 4 * x.lopfE else 32 - x.lopfE
  if n = 0 ∨ limit < n then some (x.trap .indexBounds i 0 0 n limit)
  else if x.mod 0 0 = 1 then firstTrapOf [x.misaligned i (dW d 0) [(dW d 0, 4)], x.runTrap s i (Run.read false (dW d 0) (4 * n))]
  else
    let sl := s.sl x.bid i
    let r := regNo x.f.oa
    if 8 * sl.alloc < r + n then some (x.trap .regRange i 0 0 (max r (8 * sl.alloc)) sl.alloc) else none

/-- The values of a LOPF.v, read at its issue: register by register, every position, through the operand's view (R52; log entry 46). -/
def Ctx.lopfVals (x : Ctx) (s : State) (i : Nat) : List W32 :=
  if x.mod 0 0 = 1 then []
  else (List.range (x.lopfN s i)).flatMap (fun j => (List.range 4).map (fun t => match x.f.oa with
    | .lane n view sel => readView view sel ((s.sl x.bid i).lane (n.toNat + j) t)
    | _ => 0))

/-- LOPF (R236). -/
def execLopf (f : FormR) : State → Host.Outcome State Fault Refusal :=
  loomIssue 0x184 f Ctx.lopfTrap Ctx.lopfDesc Ctx.lopfVals

/-! ## MXV and MXVP (R243 to R247) -/

/-- The weights of an MXV as an operand: rows of KB blocks. -/
def mxvW (w : W96) (d : List W32) : MatSrc :=
  let ty := wordTy w
  let k := 32 * bitsOf (dW d 11) 15 0
  { mem := true, base := dD d 0, stride := bitsOf (dW d 2) 27 0, bytes := rowBytes ty k, scaled := bitOf (dW d 2) 28, off := dW d 3,
    sst := bitsOf (dW d 2) 27 0 / (32 * tyBytes ty), nsc := k / 32 }

/-- The type of an MXV's activations. -/
def mxvXTy (w : W96) : Ty := if wordMod w 2 2 = 1 then .e4m3x4 else .bf16x2

/-- The activations of an MXV as an operand. -/
def mxvX (w : W96) (d : List W32) : MatSrc :=
  let ty := mxvXTy w
  let k := 32 * bitsOf (dW d 11) 15 0
  let mem := decide (wordMod w 3 3 = 1)
  { mem := mem, base := if mem then dD d 4 else dW d 4, stride := bitsOf (dW d 6) 23 0, bytes := rowBytes ty k, scaled := bitOf (dW d 6) 24,
    off := dW d 7, sst := bitsOf (dW d 6) 23 0 / (32 * tyBytes ty), nsc := k / 32 }

/-- The rows N and the batch of an MXV. -/
def mxvRows (d : List W32) : Nat := bitsOf (dW d 11) 31 16 + 1
def mxvBatch (d : List W32) : Nat := bitsOf (dW d 6) 27 25 + 1

/-- Where y(b, r) stands. -/
def mxvY (w : W96) (d : List W32) (b r : Nat) : Nat :=
  let st := bitsOf (dW d 10) 23 0
  if wordMod w 4 4 = 1 then (dD d 8 + b * st + 4 * r) % 2 ^ 64 else (dW d 8 + b * st + 4 * r) % 2 ^ 32

/-- The runs of results: row by batch row. -/
def mxvYRuns (w : W96) (d : List W32) (first n : Nat) : List (Nat × Nat) := (List.range (mxvBatch d)).map (fun b => (mxvY w d b first, 4 * n))

/-- The checks of MXV (R225, R243, R250). -/
def Ctx.mxvTrap (x : Ctx) (s : State) (i : Nat) (d : List W32) : Option Trap :=
  let w := mxvW x.word d
  let a := mxvX x.word d
  let q4 := decide (x.ty = .q4)
  let al := if q4 then 2 else 4
  let ym := x.mod 4 4 == 1
  let acc := x.mod 5 5 == 1
  let ys := mxvYRuns x.word d 0 (mxvRows d)
  firstTrapOf [
    x.badField i (nonzeroAt d [(2, 0xE0000000), (6, 0xF0000000), (10, 0xFF000000)]),
    x.badField i (failsAt [
      (2, q4 && w.scaled), (3, !w.scaled && w.off != 0), (5, !a.mem && dW d 5 != 0), (7, !a.scaled && a.off != 0), (9, !ym && dW d 9 != 0),
      (11, bitsOf (dW d 11) 15 0 == 0)]),
    x.misaligned i w.base [(w.base, al), (w.stride, al), (if w.scaled then w.stride else 0, 32 * tyBytes x.ty)],
    x.misaligned i a.base [(a.base, 4), (a.stride, 4), (if a.scaled then a.stride else 0, 32 * tyBytes (mxvXTy x.word))],
    x.misaligned i (mxvY x.word d 0 0) [(dW d 8, 4), (dW d 10, 4)],
    x.runTraps s i (w.reads (List.range (mxvRows d))),
    x.runTraps s i (a.reads (List.range (mxvBatch d))),
    x.runTraps s i (ys.flatMap (fun p => Run.store ym p.1 p.2 :: (if acc then [Run.read ym p.1 p.2] else []))),
    (if acc && ym && s.det x.bid then
      (ys.find? (fun p => s.beyondPv x.bid (Run.store true p.1 p.2))).map (fun p => x.trap .detAtomic i 0 p.1) else none)]

/-- The bytes that an MXV reads and writes: its memory results stand among those that a later store of the block waits for (R246). -/
def mxvSpans (w : W96) (d : List W32) : List Span :=
  let ws := mxvW w d
  let a := mxvX w d
  let ym := decide (wordMod w 4 4 = 1)
  let n := mxvRows d
  [{ mem := true, lo := ws.base, n := (n - 1) * ws.stride + ws.bytes, write := false }] ++
    (if ws.scaled then [{ mem := true, lo := ws.base + ws.off, n := (n - 1) * ws.sst + ws.nsc, write := false }] else []) ++
    spansOf a.mem false (a.runs (List.range (mxvBatch d))) ++ spansOf ym (!ym) (mxvYRuns w d 0 n)

/-- An MXV call begins in a slice. -/
def Ctx.mxvCall (x : Ctx) (acc : State) (i : Nat) (d : List W32) : State :=
  let c := acc.core (acc.blk x.bid).core
  let call : MxvCall :=
    { id := acc.nextId, iss := acc.iss, bid := x.bid, slice := i, seq := (acc.sl x.bid i).seq, pc := x.pc, word := x.word, desc := d,
      tok := x.token acc i, bar := 0, regs := [c.mxvbat, c.mxvres, c.mxvq], stage := 0, mill := false, rows := 0, seg := none,
      fault := none, spans := mxvSpans x.word d }
  { acc.modSl x.bid i (fun sl => sl.raise x.setf) with mxvs := acc.mxvs ++ [call], nextId := acc.nextId + 1, iss := acc.iss + 1 }
/-- MXV (R244). -/
def execMxv (f : FormR) : State → Host.Outcome State Fault Refusal :=
  issueTry 0x18A (.r f) (fun x s => firstSome (fun i => x.mxvTrap s i (x.descriptor s i)) (x.inEffect s))
    (fun x s => (x.inEffect s).foldl (fun acc i => x.mxvCall acc i (x.descriptor s i)) s)

/-- MXVP (R247). -/
def execMxvp (f : FormR) : State → Host.Outcome State Fault Refusal :=
  tryOp 0x18B f (fun x s => x.timerTrap s true) (fun x s i _ => [(s.sl x.bid i).mxp.zeroExtend 32])

end Sys2Proof.Machine
end

