-- ==== Sys2Proof/Machine/Engines.lean ====
section
/-! DEFINITION. What every engine command has in common: its issue, the order behind its slice's acquires, arrivals at count barriers, faults
at a unit, and completion (R252 to R259, R430). -/

namespace Sys2Proof.Machine

/-! ## Issue (R254) -/

/-- The tag of a command. -/
def Ctx.tagNo (x : Ctx) : Option Nat :=
  match x.f.od with
  | .res (.tg n) => some n.toNat
  | _ => none
/-- The count barrier of a command. -/
def Ctx.cbNo (x : Ctx) : Option Nat :=
  match x.f.ob with
  | .res (.cb n) => some n.toNat
  | _ => none

/-- A command begins in a slice: its flag is raised, and it joins its tag. -/
def Ctx.startCmd (x : Ctx) (s : State) (i : Nat) (eng : Eng) (d : List W32) (spans : List Span) (arg : Nat) : State :=
  let c : EngCmd :=
    { id := s.nextId, iss := s.iss, eng := eng, bid := x.bid, slice := i, seq := (s.sl x.bid i).seq, pc := x.pc, word := x.word, desc := d,
      tag := x.tagNo, cb := x.cbNo, tok := x.token s i, stage := .queued, units := 0, part := 0, fault := none, phases := [], spans := spans,
      bar := 0, arg := arg, mark := false }
  let s := (s.modSl x.bid i (fun sl => sl.raise x.setf)).modBlk x.bid (fun b => match x.tagNo with
    | some n => b.tagAdd n
    | none => b)
  { s with cmds := s.cmds ++ [c], nextId := s.nextId + 1, iss := s.iss + 1 }

/-- A command whose result of n words is held until it answers. -/
def Ctx.askCmd (x : Ctx) (s acc : State) (i : Nat) (eng : Eng) (d : List W32) (n arg : Nat) : State :=
  let p : Pend := { seq := (acc.sl x.bid i).seq, due := .flag x.setf, op := acc.nextId, ready := false,
                    writes := x.writesTo s x.f.od i (fun _ => List.replicate n 0) }
  x.startCmd (acc.modSl x.bid i (fun sl => sl.addPend p)) i eng d [] arg

/-- The command of each slice in effect begins. -/
def Ctx.startCmds (x : Ctx) (s : State) (eng : Ctx → State → Nat → List W32 → Eng) (spans : Ctx → State → List W32 → List Span)
    (desc : Ctx → State → Nat → List W32) (arg : Ctx → State → List W32 → Nat) : State :=
  (x.inEffect s).foldl (fun acc i =>
    x.startCmd acc i (eng x s i (desc x s i)) (desc x s i) (spans x s (desc x s i)) (arg x s (desc x s i))) s

/-- An engine command at issue: the checks of every slice in effect, then its commands. -/
def engIssue (key : Nat) (f : FormR) (chk : Ctx → State → Nat → List W32 → Option Trap) (eng : Ctx → State → Nat → List W32 → Eng)
    (spans : Ctx → State → List W32 → List Span) (desc : Ctx → State → Nat → List W32 := fun x s i => x.descriptor s i)
    (arg : Ctx → State → List W32 → Nat := fun _ _ _ => 0) : State → Host.Outcome State Fault Refusal :=
  issueTry key (.r f) (fun x s => firstSome (fun i => chk x s i (desc x s i)) (x.inEffect s))
    (fun x s => x.startCmds s eng spans desc arg)

/-! ## Progress -/

/-- Whether an acquire that a command's slice issued before it, or a quorum sign of its block, is still to be performed (R255, R209). -/
def State.acquirePending (s : State) (c : EngCmd) : Bool :=
  (s.sl c.bid c.slice).mops.any (fun m => m.acq && decide (m.iss < c.iss)) || s.signPending c.bid c.iss

/-- Whether a block runs: it is resident and not stopping. -/
def State.runs (s : State) (bid : Nat) : Bool := decide ((s.blk bid).loc ≠ .saved) && (s.blk bid).stop.isNone
/-- Whether a command goes on: its block runs, or needs it before its save (R259, R332). -/
def State.cmdRuns (s : State) (c : EngCmd) : Bool := s.goesOn c.bid c.iss

/-- The source that names a command's writes at a unit. -/
def EngCmd.source (c : EngCmd) (core unit : Nat) : Source :=
  { Source.blank with core := core, bid := c.bid, slice := c.slice, seq := c.seq, op := c.id, flag := c.tok.flag, tag := c.tag, pc := c.pc,
                      word := c.word, unit := unit }

/-- A command's deferred fault at a unit. -/
def EngCmd.trap (c : EngCmd) (f : Failure) (unit : Nat) : Trap :=
  { cause := f.cause, kind := 1, slc := c.slice, unit := unit, ea := f.ea, info := f.info, info2 := f.info2, pc := c.pc, word := c.word,
    ext := f.ext }
/-- A deferred trap of a command, taken where its flag, its tag or a phase of its arrivals shows it (R258). -/
def State.deferCmd (s : State) (c : EngCmd) (t : Trap) : State :=
  s.deferTrap c.bid c.slice { seq := c.seq, flag := c.tok.flag, tag := c.tag, phases := c.phases, mem := false, trap := t }

/-- A phase completed by a command's arrivals, at which its deferred traps, earlier and later ones, are taken (R258). -/
def State.phaseOf (s : State) (c : EngCmd) (p : Nat × Nat) : State :=
  (s.modCmd c.id (fun y => { y with phases := y.phases ++ [p] })).modSl c.bid c.slice (fun sl =>
    { sl with deferred := sl.deferred.map (fun d => if d.seq = c.seq then { d with phases := d.phases ++ [p] } else d) })

/-- n counts arrived at a count barrier, which holds at most 2^32 − 1 (R34, R213). -/
def CountBar.arrive (b : CountBar) (n : Nat) : CountBar := { b with c := min (b.c + n) 0xFFFFFFFF }

/-- An arrival of n counts at a command's count barrier: counts past 2^32 − 1 are a deferred COUNT_RESIDUE of the command's slice, and a phase that it
completes is recorded (R213, R257, R258). -/
def State.arrive (s : State) (c : EngCmd) (n : Nat) : State :=
  match c.cb with
  | none => s
  | some k =>
    let old := (s.blk c.bid).cb k
    let new := CountBar.check (old.arrive n)
    let s := if 0xFFFFFFFF < old.c + n then
        s.deferCmd c (c.trap { cause := .countResidue, ea := 0, info := 0x80 + k, info2 := (old.arrive n).info } c.units)
      else s
    let s := s.modBlk c.bid (fun b => (b.setCb k new).latch)
    if new.n = old.n then s else s.phaseOf ((s.cmd c.id).getD c) (k, old.n.toNat)

/-- A command that has nothing left to do: it completes with ENGINE_COMMAND_COMPLETE. -/
def State.finishCmd (s : State) (c : EngCmd) : State := s.finishId c.id

/-- An absent page that a command meets suspends the block, with the command standing at the unit; the record names the page's address (R430), and a
drain under way ends for the command (R334). -/
def State.suspendCmd (s : State) (c : EngCmd) (f : Failure) (unit : Nat) : State :=
  (s.modCmd c.id (fun y => { y with absent := true })).suspend c.bid c.slice unit c.pc c.word { f with ea := f.ea / 65536 * 65536 }

/-- A failing check at a unit: an absent page suspends the block, with the command standing at the unit; any other failure is a deferred fault, with
which the command completes (R258, R430). -/
def State.cmdFail (s : State) (c : EngCmd) (f : Failure) (unit : Nat) : State :=
  if f.cause = .pageAbsent then s.suspendCmd c f unit
  else (s.modCmd c.id (fun y => { y with fault := some (c.trap f unit) })).finishCmd c

/-- What a unit comes to: it ends with the bytes it wrote and the counts it arrives with, goes on later, or stops what is under way. -/
inductive UnitEnd where
  | done (s : State) (bytes counts : Nat)
  | cut (s : State)
  | stop (s : Option State)

/-- Whether addends that a command sent have not been folded (R175, R366). -/
def State.adding (s : State) (c : EngCmd) : Bool := s.addQ.any (fun d => d.src.op == c.id && d.src.bid == c.bid)

/-- Whether a command is a DSCA, whose chunks arrive once their adds are performed (R257, R364). -/
def EngCmd.adds (c : EngCmd) : Bool := wordOpc c.word == 0x1C3

/-- The counts of a chunk's units arrive; those of a DSCA's are held for its adds. -/
def State.arriveId (s : State) (id counts : Nat) : State :=
  match s.cmd id with
  | some c => if counts = 0 then s else if c.adds then s.modCmd id (fun y => { y with due := y.due ++ [(y.units, counts)] }) else s.arrive c counts
  | none => s

/-- The arrival of a DSCA's first chunk that has not arrived, once the adds of every unit it completed are performed. -/
def State.arriveHeld (s : State) (c : EngCmd) : Option State :=
  match c.due with
  | [] => none
  | (n, counts) :: l =>
    if s.addQ.any (fun d => d.src.op == c.id && d.src.bid == c.bid && decide (d.src.unit < n)) then none
    else some ((s.modCmd c.id (fun y => { y with due := l })).arrive c counts)

/-- Units of a command performed one after the other, each by `step`, while the bytes they may write stay within `room`, and then one arrival of
their counts; `fin` ends a command whose `total` units are done or that met a fault. `first` says that nothing has been done yet. -/
def State.unitLoop (total : State → EngCmd → Nat) (step : State → EngCmd → UnitEnd) (need : EngCmd → Nat) (fin : State → EngCmd → Option State)
    (s : State) (id : Nat) (first : Bool) (room counts : Nat) : Nat → Option State
  | 0 => if first then none else some (s.arriveId id counts)
  | fuel + 1 =>
    match s.cmd id with
    | none => none
    | some c =>
      if total s c ≤ c.units ∨ c.fault.isSome then
        (match fin (s.arriveId id counts) c with
          | some s1 => some s1
          | none => if first then none else some (s.arriveId id counts))
      else match step s c with
        | .stop none => if first then none else some (s.arriveId id counts)
        | .stop (some s1) => some (s1.arriveId id counts)
        | .cut s1 => some (s1.arriveId id counts)
        | .done s1 n k =>
          let s2 := s1.modCmd id (fun y => { y with units := c.units + 1, part := 0 })
          if room < n + need c then some (s2.arriveId id (counts + k))
          else s2.unitLoop total step need fin id false (room - n) (counts + k) fuel

/-- Runs read for a command by an agent of a die. -/
def State.engRead (s : State) (c : EngCmd) (die : Nat) (runs : List Run) : Did (List (List Byte)) :=
  match s.prepare (s.blk c.bid).core c.bid c.iss runs with
  | .wait => .wait
  | .again s => .again s
  | .fail s f => .fail s f
  | .ok s ps => match s.runsBytes die c.bid (runs.zip ps) with
    | .error f => .fail s f
    | .ok bs => .ok (s.ownFrames c.bid ps.flatten) bs

/-- Runs written for a command at a unit, all translated before the first byte. -/
def State.engWrite (s : State) (c : EngCmd) (unit : Nat) (runs : List (Run × List Byte)) : Did Unit :=
  let core := (s.blk c.bid).core
  match s.prepare core c.bid c.iss (runs.map (fun p => p.1)) with
  | .wait => .wait
  | .again s => .again s
  | .fail s f => .fail s f
  | .ok s ps => match s.writeFault ps.flatten with
    | some f => .fail s f
    | none => .ok ((runs.zip ps).foldl (fun s p => s.writeRun (c.source core unit) p.1.1 p.2 p.1.2) (s.ownFrames c.bid ps.flatten)) ()

/-- The order of a Surveyor or Crier command behind its slice's earlier accesses, as though a FENCE.rel.dev stood before it (R255): none once it is
established, otherwise the next step towards it, or a wait. -/
def State.engFence (s : State) (c : EngCmd) : Option (Option State) :=
  let core := (s.blk c.bid).core
  if c.bar = 0 then
    (if (s.sl c.bid c.slice).mops.any (fun m => decide (m.iss < c.iss) && m.kind.memory) || s.signPending c.bid c.iss then some none
      else
        let s := s.l1Release core
        some (some (s.modCmd c.id (fun y => { y with bar := s.nextId }))))
  else if !s.released core 3 c.bar then some none
  else if ((s.partials ++ s.partQ).any (fun p => (s.sl c.bid c.slice).tsm.getLsbD p.sl)) then some (some (s.drainUnits (s.sl c.bid c.slice).tsm))
  else none

/-- ENGINE_COMMAND_COMPLETE (R254, R258): a finished command whose chunks have all arrived (R364) and whose addends have been folded leaves its tag and lowers its
flag; its fault becomes a deferred trap of its slice. -/
def State.cmdComplete (s : State) (id : Nat) : Option State :=
  match s.cmd id with
  | none => none
  | some c =>
    if c.stage ≠ .finished then none
    else match s.arriveHeld c with
      | some s => some s
      | none =>
        if s.adding c then none
        else
          let s := { s with cmds := s.cmds.filter (fun y => y.id != id) }
          let s := match c.fault with
            | some t => s.deferCmd c t
            | none => s
          let s := match c.tag with
            | some n => s.modBlk c.bid (fun b => b.tagDone n)
            | none => s
          some (s.lower c.bid c.slice c.tok.flag)

end Sys2Proof.Machine
end

