-- ==== Sys2Proof/Machine/Dray.lean ====
section
/-! DEFINITION. The Dray: its six commands at issue, and the units and chunks in which it performs them (R260 to R262, R362 to R364). -/

namespace Sys2Proof.Machine

/-! ## The descriptor (R260) -/

def EngCmd.opc (c : EngCmd) : Nat := wordOpc c.word

/-- The sides of a Dray command, from its word: whether the source, the destination and the index stand in memory. -/
def drayS (w : W96) : Bool := decide (wordMod w 0 0 = 1)
def drayD (w : W96) : Bool := decide (wordMod w 1 1 = 1)
def drayI (w : W96) : Bool := decide (wordMod w 3 3 = 1)

/-- An address in memory modulo 2^64, or in the bench modulo 2^32. -/
def wrapAt (mem : Bool) (a : Nat) : Nat := if mem then a % 2 ^ 64 else a % 2 ^ 32
/-- A base held in registers n and n + 1 of a descriptor: the bench takes the low word. -/
def baseAt (mem : Bool) (d : List W32) (n : Nat) : Nat := if mem then dD d n else dW d n

def drayRb (d : List W32) : Nat := bitsOf (dW d 4) 23 0
def drayRows (d : List W32) : Nat := bitsOf (dW d 5) 23 0
def draySst (d : List W32) : Nat := bitsOf (dW d 6) 23 0
def drayDst (d : List W32) : Nat := bitsOf (dW d 7) 23 0
def drayLim (d : List W32) : Nat := dW d 10

/-- The first byte of a source row, a destination row and an index entry. -/
def draySrcRow (w : W96) (d : List W32) (r : Nat) : Nat := wrapAt (drayS w) (baseAt (drayS w) d 0 + r * draySst d)
def drayDstRow (w : W96) (d : List W32) (r : Nat) : Nat := wrapAt (drayD w) (baseAt (drayD w) d 2 + r * drayDst d)
def drayIdx (w : W96) (d : List W32) (off : Nat) : Nat := wrapAt (drayI w) (baseAt (drayI w) d 8 + off)

/-- The spans that the descriptor fixes: source, destination and index list (R260). -/
def draySpans (w : W96) (d : List W32) : List Run :=
  let opc := wordOpc w
  let span := fun (n st len : Nat) => (n - 1) * st + len
  let srcRows := if opc = 0x1C1 ∨ opc = 0x1C4 then drayLim d else drayRows d
  let dst := if opc = 0x1C3 then Run.slots (dD d 2) (span (drayLim d) (drayDst d) (4 * drayRb d))
    else Run.store (drayD w) (drayDstRow w d 0) (span (if opc = 0x1C2 then drayLim d else drayRows d) (drayDst d) (drayRb d))
  (if opc = 0x1C5 then [] else [Run.read (drayS w) (draySrcRow w d 0) (span srcRows (draySst d) (drayRb d))]) ++ [dst] ++
    (if opc = 0x1C0 ∨ opc = 0x1C5 then [] else [Run.read (drayI w) (drayIdx w d 0) (4 * (drayRows d + (if opc = 0x1C4 then 1 else 0)))])

/-- The checks of a Dray command at issue (R225, R253, R260). -/
def Ctx.drayTrap (x : Ctx) (s : State) (i : Nat) (d : List W32) : Option Trap :=
  let w := x.word
  let short := x.key == 0x1C0 || x.key == 0x1C5
  let fil := x.key == 0x1C5
  let al := if x.key = 0x1C3 then 16 else 4
  firstTrapOf [
    x.badField i (nonzeroAt d [(4, 0xFF000000), (5, 0xFF000000), (6, 0xFF000000), (7, 0xFF000000)]),
    x.badField i (failsAt [
      (1, (fil || !drayS w) && dW d 1 != 0), (3, !drayD w && dW d 3 != 0), (4, drayRb d == 0 || drayRb d % 4 != 0), (5, drayRows d == 0),
      (6, fil && draySst d != 0), (9, !short && !drayI w && dW d 9 != 0),
      (10, !short && (drayLim d == 0 || drayLim d == 0xFFFFFFFF)), (11, !short && x.key != 0x1C4 && dW d 11 != 0)]),
    (if fil then none else x.misaligned i (draySrcRow w d 0) [(dW d 0, 4), (draySst d, 4)]),
    x.misaligned i (drayDstRow w d 0) [(dW d 2, al), (drayDst d, al)],
    (if short then none else x.misaligned i (drayIdx w d 0) [(dW d 8, 4), (dW d 11, 4)]),
    x.runTraps s i (draySpans w d)]

/-- The runs that a command reads and writes until it completes, for the interlocks of R255 and R256; a DCSR's column entries in the bench reach
to the end of the share (R262). -/
def drayHeld (w : W96) (d : List W32) : List Span :=
  (draySpans w d).map (fun r => { mem := r.mem, lo := r.ea, n := r.n, write := r.writes }) ++
    (if wordOpc w = 0x1C4 then
      [{ mem := drayI w, lo := drayIdx w d (dW d 11), n := if drayI w then 2 ^ 34 else 2 ^ 32, write := false },
       { mem := drayD w, lo := drayDstRow w d 0, n := if drayD w then 0 else 2 ^ 32, write := true }]
    else [])

/-- A Dray command at issue. -/
def drayIssue (key : Nat) (f : FormR) : State → Host.Outcome State Fault Refusal :=
  engIssue key f Ctx.drayTrap (fun x _ _ _ => .dray x.v.core) (fun x _ d => drayHeld x.word d)

/-- DCPY (R261). -/
def execDcpy (f : FormR) : State → Host.Outcome State Fault Refusal := drayIssue 0x1C0 f
/-- DGTH (R261). -/
def execDgth (f : FormR) : State → Host.Outcome State Fault Refusal := drayIssue 0x1C1 f
/-- DSCT (R261). -/
def execDsct (f : FormR) : State → Host.Outcome State Fault Refusal := drayIssue 0x1C2 f
/-- DSCA (R261). -/
def execDsca (f : FormR) : State → Host.Outcome State Fault Refusal := drayIssue 0x1C3 f
/-- DCSR (R262). -/
def execDcsr (f : FormR) : State → Host.Outcome State Fault Refusal := drayIssue 0x1C4 f
/-- DFIL (R261). -/
def execDfil (f : FormR) : State → Host.Outcome State Fault Refusal := drayIssue 0x1C5 f

/-! ## Moves of a unit -/

/-- Where the bytes of a move come from. -/
inductive MoveSrc where
  | row (r : Nat)
  | zero
  | fill
  deriving DecidableEq, Repr

/-- One destination row of a unit and its source. -/
structure Move where
  src : MoveSrc
  dst : Nat
  deriving DecidableEq, Repr

/-- The moves of a unit, with the fault that a check of its entries meets after them. -/
structure Moves where
  l   : List Move
  bad : Option Failure

/-- The source run of n bytes from offset o of a move's row. -/
def EngCmd.srcRun (c : EngCmd) (m : Move) (o n : Nat) : List Run :=
  match m.src with
  | .row r => [Run.read (drayS c.word) (wrapAt (drayS c.word) (draySrcRow c.word c.desc r + o)) n]
  | _ => []
/-- The destination run of n bytes from offset o of a move's row; DSCA's slots take 16 bytes for each FP32. -/
def EngCmd.dstRun (c : EngCmd) (m : Move) (o n : Nat) : Run :=
  let a := drayDstRow c.word c.desc m.dst
  if c.opc = 0x1C3 then Run.slots ((a + 4 * o) % 2 ^ 64) (4 * n) else Run.store (drayD c.word) (wrapAt (drayD c.word) (a + o)) n

/-- Every run of some moves. -/
def EngCmd.moveRuns (c : EngCmd) (l : List Move) : List Run :=
  l.flatMap (fun m => c.srcRun m 0 (drayRb c.desc) ++ [c.dstRun m 0 (drayRb c.desc)])

/-- N32 words read from the index space at byte offsets. -/
def State.indexWords (s : State) (c : EngCmd) (l : List (Nat × Nat)) : Did (List (List Nat)) :=
  let core := (s.blk c.bid).core
  let runs := l.map (fun p => Run.read (drayI c.word) (drayIdx c.word c.desc p.1) (4 * p.2))
  match s.prepare core c.bid c.iss runs with
  | .wait => .wait
  | .again s => .again s
  | .fail s f => .fail s f
  | .ok s ps => match s.runsBytes (dieOf core) c.bid (runs.zip ps) with
    | .error f => .fail s f
    | .ok bs => .ok (s.ownFrames c.bid ps.flatten) (bs.map (fun b => (chunk 4 b.length b).map natOfBytes))

/-- A column entry or index against LIM. -/
def EngCmd.beyond (c : EngCmd) (x : Nat) : Bool := decide (x ≠ 0xFFFFFFFF) && decide (drayLim c.desc ≤ x)
def EngCmd.boundsFault (c : EngCmd) (x : Nat) : Failure := { cause := .indexBounds, info := x, info2 := drayLim c.desc }

/-- n words of the index space from a byte offset one after the other, up to the first that cannot be read, and why (R262). -/
def State.entriesFrom (s : State) (c : EngCmd) (off : Nat) : Nat → Did (List Nat × Option Failure)
  | 0 => .ok s ([], none)
  | n + 1 => match s.indexWords c [(off, 1)] with
    | .wait => .wait
    | .again s => .again s
    | .fail s f => .ok s ([], some f)
    | .ok s w => match s.entriesFrom c (off + 4) n with
      | .wait => .wait
      | .again s => .again s
      | .fail s f => .fail s f
      | .ok s r => .ok s (w.flatten ++ r.1, r.2)

/-- The index words of unit k, read once (R261, R262): of a DCSR rp[0], rp[k] and rp[k + 1], then row k's column entries up to one that cannot be read, with its
failure; of the other indexed commands idx[k]; none of DCPY and DFIL. -/
def State.unitWords (s : State) (c : EngCmd) (k : Nat) : Did (List Nat × Option Failure) :=
  if c.opc = 0x1C0 ∨ c.opc = 0x1C5 then .ok s ([], none)
  else if c.opc = 0x1C4 then
    match s.indexWords c [(0, 1), (4 * k, 2)] with
    | .wait => .wait
    | .again s => .again s
    | .fail s f => .fail s f
    | .ok s ws =>
      let rp := ws.flatten
      let a := (rp[1]?).getD 0
      let n := (rp[2]?).getD 0 - a
      match s.indexWords c [(dW c.desc 11 + 4 * a, n)] with
      | .wait => .wait
      | .again s => .again s
      | .fail .. => (match s.entriesFrom c (dW c.desc 11 + 4 * a) n with
        | .wait => .wait
        | .again s => .again s
        | .fail s f => .fail s f
        | .ok s r => .ok s (rp ++ r.1, r.2))
      | .ok s cols => .ok s (rp ++ cols.flatten, none)
  else match s.indexWords c [(4 * k, 1)] with
    | .wait => .wait
    | .again s => .again s
    | .fail s f => .fail s f
    | .ok s ws => .ok s (ws.flatten, none)

/-- The moves of CSR row k from its index words (R262). -/
def EngCmd.csrMoves (c : EngCmd) (ws : List Nat) : Moves :=
  let w := fun (n : Nat) => (ws[n]?).getD 0
  if w 2 < w 1 then { l := [], bad := some { cause := .rowptrOrder, info2 := w 2 + 2 ^ 32 * w 1 } }
  else
    let l := (ws.drop 3).zipIdx
    { l := (l.takeWhile (fun p => !c.beyond p.1)).map (fun p => { src := if p.1 = 0xFFFFFFFF then .zero else .row p.1, dst := w 1 + p.2 - w 0 }),
      bad := (l.find? (fun p => c.beyond p.1)).map (fun p => c.boundsFault p.1) }

/-- The moves of unit k from its index words (R261, R262). -/
def EngCmd.unitMoves (c : EngCmd) (k : Nat) (ws : List Nat) : Moves :=
  let x := ws.headD 0
  if c.opc = 0x1C0 then { l := [{ src := .row k, dst := k }], bad := none }
  else if c.opc = 0x1C5 then { l := [{ src := .fill, dst := k }], bad := none }
  else if c.opc = 0x1C4 then c.csrMoves ws
  else if c.beyond x then { l := [], bad := some (c.boundsFault x) }
  else if c.opc = 0x1C1 then { l := [{ src := if x = 0xFFFFFFFF then .zero else .row x, dst := k }], bad := none }
  else { l := if x = 0xFFFFFFFF then [] else [{ src := .row k, dst := x }], bad := none }

/-! ## Performing moves -/

/-- n bytes of a move from offset o, performed. -/
def State.doMove (s : State) (c : EngCmd) (m : Move) (o n : Nat) : Did Unit :=
  let core := (s.blk c.bid).core
  let rs := c.srcRun m o n
  let dst := c.dstRun m o n
  match s.prepare core c.bid c.iss (rs ++ [dst]) with
  | .wait => .wait
  | .again s => .again s
  | .fail s f => .fail s f
  | .ok s ps => match s.runsBytes (dieOf core) c.bid (rs.zip ps) with
    | .error f => .fail s f
    | .ok bs => match s.writeFault ((ps[rs.length]?).getD []) with
      | some f => .fail s f
      | none =>
      let data := match m.src with
        | .row _ => bs.headD []
        | .zero => List.replicate n 0
        | .fill => (List.range n).map (fun k => BitVec.ofNat 8 (dW c.desc 0 / 256 ^ ((o + k) % 4)))
      let dps := (ps[rs.length]?).getD []
      let src := c.source core c.units
      let s := s.ownFrames c.bid ps.flatten
      if c.opc = 0x1C3 then .ok (s.addRun src dps ((chunk 4 n data).map (fun l => BitVec.ofNat 32 (natOfBytes l)))) ()
      else .ok (s.writeRun src dst dps data) ()

/-- The counts that a unit of n destination rows arrives with (R257). -/
def EngCmd.counts (c : EngCmd) (n : Nat) : Nat :=
  let rows := if c.opc = 0x1C4 then n else 1
  if wordMod c.word 2 2 = 1 then rows * drayRb c.desc else rows

/-- Every run of a unit ready before its first byte is written, so that a fault of one leaves the whole unit unwritten (R258, R262, R430); the moves checked are those
before the entry that fails, so that its fault comes after theirs. -/
def State.unitReady (s : State) (c : EngCmd) (ms : Moves) : Did Unit :=
  let core := (s.blk c.bid).core
  let runs := c.moveRuns ms.l
  match s.prepare core c.bid c.iss runs with
  | .wait => .wait
  | .again s => .again s
  | .fail s f => .fail s f
  | .ok s ps =>
    let rps := runs.zip ps
    match s.runsBytes (dieOf core) c.bid (rps.filter (fun p => !p.1.writes)) with
    | .error f => .fail s f
    | .ok _ => match s.writeFault ((rps.filter (fun p => p.1.writes)).flatMap (fun p => p.2)) with
      | some f => .fail s f
      | none => match ms.bad with
        | some f => .fail s f
        | none => .ok s ()

/-- The moves of a unit performed from byte `part` of its rows on, while their bytes stay within `room` (R363); the rows of a CSR unit longer than a chunk are cut between
rows, and each as a row of its own (log entry 125); `from_` is where the chunk's part of the unit began, and
`ws` its index words, kept where the unit is cut. -/
def State.moveOn (s : State) (c : EngCmd) (ms : Moves) (ws : List Nat) (from_ part room : Nat) : Nat → UnitEnd
  | 0 => .stop none
  | fuel + 1 =>
    let rb := drayRb c.desc
    let o := part % rb
    let n := min 4096 (rb - o)
    let cut := fun (s : State) => s.modCmd c.id (fun y => { y with part := part, memo := ws })
    match ms.l[part / rb]? with
    | none => .done (s.modCmd c.id (fun y => { y with memo := [] })) (part - from_) (c.counts ms.l.length)
    | some m =>
      if room < n then .cut (cut s)
      else match s.doMove c m o n with
        | .wait => if part = from_ then .stop none else .cut (cut s)
        | .again s => .stop (some (cut s))
        | .fail s f => .stop (some (s.cmdFail c f c.units))
        | .ok s () => s.moveOn c ms ws from_ (part + n) (room - n) fuel

/-- The next part of a unit that stands at byte `part` of its rows: its index words are read once, every page of it is translated and every fault of it found
before its first byte (R430, R262), and a unit longer than 4 KiB is cut within its rows (R363). A unit of one row of at most 4 KiB finds them in the move itself. -/
def State.unitPart (s : State) (c : EngCmd) : UnitEnd :=
  match (if c.part = 0 then s.unitWords c c.units else .ok s (c.memo, none)) with
  | .wait => .stop none
  | .again s => .stop (some s)
  | .fail s f => .stop (some (s.cmdFail c f c.units))
  | .ok s (ws, late) =>
    let m0 := c.unitMoves c.units ws
    let ms := { m0 with bad := m0.bad.orElse (fun _ => late) }
    let short := ms.bad.isNone && decide (ms.l.length ≤ 1) && decide (drayRb c.desc ≤ 4096)
    match (if c.part = 0 && !short then s.unitReady c ms else .ok s ()) with
    | .wait => .stop none
    | .again s => .stop (some s)
    | .fail s f => .stop (some (s.cmdFail c f c.units))
    | .ok s () => s.moveOn c ms ws c.part c.part 4096 1026

/-- DRAY_COMMAND_START (R363): the oldest queued command of the core's Dray becomes one of its four active ones. -/
def State.drayStart (s : State) (core : Nat) : Option State :=
  let mine := s.queued (.dray core)
  if 4 ≤ (mine.filter (fun c => decide (c.stage = .active))).length then none
  else match leastBy (fun (c : EngCmd) => c.iss) (mine.filter (fun c => decide (c.stage = .queued) && s.cmdRuns c && s.mayRedo c.bid c.id)) with
    | some c => some (s.modCmd c.id (fun y => { y with stage := .active }))
    | none => none

def execDrayCommandStart (core : Nat) (s : State) : Host.Outcome State Fault Refusal := .next ((s.drayStart core).getD s)

/-- What an active command of a Dray can do at its turn: the arrival of counts whose adds are performed (R364), or its next chunk. -/
def State.drayTurn (s : State) (c : EngCmd) : Option State :=
  if c.stage ≠ .active ∨ !s.cmdRuns c then none
  else match s.arriveHeld c with
    | some s => some s
    | none => if s.acquirePending c then none
      else s.unitLoop (fun _ c => drayRows c.desc) State.unitPart (fun c => if c.opc = 0x1C4 then 4096 else drayRb c.desc) (fun s c => some (s.finishCmd c)) c.id true 4096 0 1025

/-- The active commands of a Dray in the order of its rotation: ascending queue position, from behind the one served last (R363). -/
def State.drayRotation (s : State) (core : Nat) : List EngCmd :=
  let l := (s.queued (.dray core)).filter (fun c => decide (c.stage = .active))
  l.filter (fun c => decide ((s.core core).drayLast < c.iss)) ++ l.filter (fun c => decide (c.iss ≤ (s.core core).drayLast))

/-- The first command of the rotation that can go on takes its turn; it has had it once a chunk of it is performed. -/
def State.drayServe (s : State) (core : Nat) : Option (Nat × State) :=
  firstSome (fun (c : EngCmd) => (s.drayTurn c).map (fun t =>
    let same := match t.cmd c.id with
      | some y => y.units == c.units && y.part == c.part && y.stage == c.stage
      | none => false
    (c.id, if same then t else t.modCore core (fun k => { k with drayLast := c.iss })))) (s.drayRotation core)

/-- DRAY_CHUNK_COMPLETE (R363, R364): the next chunk of an active command is performed at its turn in the rotation, and its units arrive at the count barrier. -/
def State.drayChunk (s : State) (core id : Nat) : Option State :=
  match s.drayServe core with
  | some (n, t) => if n = id then some t else none
  | none => none

def execDrayChunkComplete (core id : Nat) (s : State) : Host.Outcome State Fault Refusal := .next ((s.drayChunk core id).getD s)

/-- A step of a core's Dray: a command starts, or an active one performs a chunk. -/
def State.drayStep (s : State) (core : Nat) : Option State :=
  match s.drayStart core with
  | some s => some s
  | none => (s.drayServe core).map (fun p => p.2)

end Sys2Proof.Machine
end

