-- ==== Sys2Proof/Machine/Crier.lean ====
section
/-! DEFINITION. The Crier: streams, subscriptions, passes over page pools, ring deliveries and the merge (R272 to R282, R376 to R382, R432). -/

namespace Sys2Proof.Machine

/-! ## Pages (R272) -/

/-- D of a head dimension code. -/
def dimOf (dkm : Nat) : Nat := 32 * (dkm + 1)
/-- PSZ. -/
def pageBytes (dkm : Nat) (e4m3 : Bool) : Nat := if e4m3 then 64 * dimOf dkm + 64 else 128 * dimOf dkm
def Stream.psz (t : Stream) : Nat := pageBytes t.dkm t.e4m3
/-- The bytes of a ring slot: PSZ rounded up to 256 (R275). -/
def Stream.slotBytes (t : Stream) : Nat := (t.psz + 255) / 256 * 256
/-- The bench address of a slot of a subscription's ring. -/
def Sub.slotAddr (y : Sub) (t : Stream) (n : Nat) : Nat := y.rbase + n * t.slotBytes
/-- The bytes of a partial (R277). -/
def partialBytes (qr d : Nat) : Nat := 8 * qr + 4 * qr * d

/-! ## Issue (R252, R253, R273 to R280, R382) -/

/-- MERGE_PROTOCOL names the stream and the subscription (R337). -/
def mergeInfo (sid subi : Nat) : Nat := sid % 64 + 256 * (subi % 8)
def Ctx.mergeTrap (x : Ctx) (i sid subi : Nat) : Trap := x.trap .mergeProtocol i 0 0 (mergeInfo sid subi)

/-- SUBI of a command: the operand of ATNEXT, ATDONE and ATUNS, otherwise the descriptor's field. -/
def subiOf (key : Nat) (d : List W32) : Nat := if key = 0x1D1 ∨ key = 0x1D3 ∨ key = 0x1CF then bitsOf (dW d 0) 10 8 else dW d 0

/-- The operands of ATNEXT, ATDONE and ATUNS. -/
def Ctx.subOperands (x : Ctx) (s : State) (i : Nat) : List W32 := [s.src x.bid i 0 .b32 x.f.oa, s.src x.bid i 0 .b32 x.f.ob]

/-- The served slices in effect before slice i. -/
def Ctx.earlier (x : Ctx) (s : State) (i : Nat) : List Nat := (x.inEffect s).takeWhile (fun j => j != i)

/-- The subscription that a command names, or MERGE_PROTOCOL where no record stands (R382). -/
def Ctx.withSub (x : Ctx) (s : State) (i : Nat) (d : List W32) (chk : Sub → Option Trap) : Option Trap :=
  match s.subAt x.bid (subiOf x.key d) with
  | none => some (x.mergeTrap i 0 (subiOf x.key d))
  | some y => chk y

/-- Where a command's subscription stands: its identity and SID. -/
def Ctx.subArg (x : Ctx) (s : State) (d : List W32) : Nat := match s.subAt x.bid (subiOf x.key d) with
  | some y => y.id * 64 + y.sid
  | none => 0
def EngCmd.subId (c : EngCmd) : Nat := c.arg / 64
def EngCmd.sid (c : EngCmd) : Nat := c.arg % 64

/-- Whether an element type is E4M3x4. -/
def tyE4m3 (t : Ty) : Bool := decide (t ≠ .bf16x2)

def Ctx.atstrmTrap (x : Ctx) (s : State) (i : Nat) (d : List W32) : Option Trap :=
  let dkm := bitsOf (dW d 0) 10 8
  firstTrapOf [
    x.badField i (nonzeroAt d [(0, 0xFFFFF8C0), (5, 0xFFFFF000), (6, 0xFFFFFFFF), (7, 0xFFFFFFFF)]),
    x.badField i (failsAt [(1, dW d 1 == 0 || decide (2 ^ 24 < dW d 1)), (4, decide (dW d 4 < pageBytes dkm (tyE4m3 x.ty)))]),
    x.misaligned i (dD d 2) [(dW d 2, 256), (dW d 4, 256)],
    x.runTraps s i [Run.read true (dD d 2) (dW d 1 * dW d 4)]]

/-- ATSTRM (R273). -/
def execAtstrm (f : FormR) : State → Host.Outcome State Fault Refusal :=
  engIssue 0x1CE f Ctx.atstrmTrap (fun _ _ _ d => .crier (crierOf (bitsOf (dW d 0) 5 0))) (fun _ _ _ => [])

def Ctx.atsubTrap (x : Ctx) (s : State) (i : Nat) (d : List W32) : Option Trap :=
  let subi := subiOf x.key d
  firstTrapOf [
    x.badField i (nonzeroAt d [(0, 0xFFE0F8C0), (1, 0xFFFFF000), (4, 0xFFE00000), (5, 0xFFFFFFF0), (6, 0xFFFFFFFF), (7, 0xFFFFFFFF)]),
    x.misaligned i (dD d 2) [(dW d 2, 4)], x.misaligned i (dW d 4) [(dW d 4, 256)],
    if (s.subAt x.bid subi).isSome || (x.earlier s i).any (fun j => subiOf x.key (x.descriptor s j) == subi)
      then some (x.mergeTrap i (bitsOf (dW d 0) 5 0) subi) else none,
    x.runTraps s i [Run.read true (dD d 2) (4 * (bitsOf (dW d 1) 11 0 + 1))]]

/-- The record of a subscription that ATSUB makes (R275, R280). -/
def Ctx.newSub (x : Ctx) (s : State) (i id cmd : Nat) (d : List W32) : Sub :=
  { id := id, bid := x.bid, part := (s.blk x.bid).part, subi := subiOf x.key d, sid := bitsOf (dW d 0) 5 0, cmd := cmd, slice := i, pc := x.pc, word := x.word,
    qr := bitsOf (dW d 0) 20 16 + 1, nslot := bitsOf (dW d 5) 3 0 + 1, rbase := dW d 4, nl := bitsOf (dW d 1) 11 0 + 1,
    lb := BitVec.ofNat 64 (dD d 2), accepted := false, ended := false, inPass := false, pages := [], deliv := [], nextSlot := 0, ring := [], taken := [],
    posted := [], everPost := [], merged := 0, acc := [], gran := 0, allRes := false }

/-- The command and the subscription record of a slice reach the unit; until the acceptance the page list is one that the command has yet to read (R255). -/
def Ctx.subscribe (x : Ctx) (s acc : State) (i : Nat) : State :=
  let d := x.descriptor s i
  let u := crierOf (bitsOf (dW d 0) 5 0)
  let cmd := acc.nextId
  let list : Span := { mem := true, lo := dD d 2, n := 4 * (bitsOf (dW d 1) 11 0 + 1), write := false }
  let acc := x.startCmd acc i (.crier u) d [list] ((cmd + 1) * 64 + bitsOf (dW d 0) 5 0)
  let y := x.newSub s i acc.nextId cmd d
  { acc.modCrier u (fun k => { k with subs := k.subs ++ [y] }) with nextId := acc.nextId + 1 }
/-- ATSUB (R275). -/
def execAtsub (f : FormR) : State → Host.Outcome State Fault Refusal :=
  issueTry 0x1CF (.r f) (fun x s => firstSome (fun i => x.atsubTrap s i (x.descriptor s i)) (x.inEffect s))
    (fun x s => (x.inEffect s).foldl (fun acc i => x.subscribe s acc i) s)

/-- The unit of a command that names a subscription. -/
def Ctx.subUnit (x : Ctx) (s : State) (_ : Nat) (d : List W32) : Eng := .crier (crierOf (x.subArg s d % 64))

/-- MERGE_PROTOCOL of a command whose SUBI names no record (R276, R280). -/
def Ctx.noSub (x : Ctx) (s : State) : Option Trap := firstSome (fun i => x.withSub s i (x.subOperands s i) (fun _ => none)) (x.inEffect s)

/-- ATNEXT (R276). -/
def execAtnext (f : FormR) : State → Host.Outcome State Fault Refusal :=
  issueTry 0x1D0 (.r f) Ctx.noSub
    (fun x s => (x.inEffect s).foldl (fun acc i =>
      x.askCmd s acc i (x.subUnit s i (x.subOperands s i)) (x.subOperands s i) 1 (x.subArg s (x.subOperands s i))) s)

/-- The bench address and bytes of a posted partial. -/
def postRun (y : Sub) (d : List W32) : Run := Run.read false (dW d 2) (4 * y.acc.length)

/-- The checks of ATPOST (R277, R280, R382); a position is named once, by one of the served slices. -/
def Ctx.atpostTrap (x : Ctx) (s : State) (i : Nat) (d : List W32) : Option Trap :=
  firstTrapOf [
    x.badField i (nonzeroAt d [(0, 0xFFFFF8FF), (1, 0xFFFFF000), (3, 0xFFFFFFFF)]), x.misaligned i (dW d 2) [(dW d 2, 16)],
    x.withSub s i d (fun y =>
      let pos := dW d 1
      if y.ended || decide (y.nl ≤ pos) || !y.taken.contains pos || y.everPost.contains pos
          || (x.earlier s i).any (fun j => subiOf x.key (x.descriptor s j) == y.subi && dW (x.descriptor s j) 1 == pos)
        then some (x.mergeTrap i y.sid y.subi)
      else x.runTrap s i (postRun y d))]

/-- The post of a slice begins, and its position is named. -/
def Ctx.post (x : Ctx) (s acc : State) (i : Nat) : State :=
  let d := x.descriptor s i
  let spans : List Span := match s.subAt x.bid (subiOf x.key d) with
    | some y => [{ mem := false, lo := dW d 2, n := 4 * y.acc.length, write := false }]
    | none => []
  (x.startCmd acc i (x.subUnit s i d) d spans (x.subArg s d)).modSub (x.subArg s d / 64) (fun y => { y with everPost := y.everPost ++ [dW d 1] })
/-- ATPOST (R277). -/
def execAtpost (f : FormR) : State → Host.Outcome State Fault Refusal :=
  issueTry 0x1D1 (.r f) (fun x s => firstSome (fun i => x.atpostTrap s i (x.descriptor s i)) (x.inEffect s))
    (fun x s => (x.inEffect s).foldl (fun acc i => x.post s acc i) s)

/-- The checks of ATDONE (R276, R280, R382): the slot is taken, and no other ATDONE of it stands. -/
def Ctx.atdoneTrap (x : Ctx) (s : State) (i : Nat) (d : List W32) : Option Trap :=
  x.withSub s i d (fun y =>
    let n := dW d 1
    let twice := s.cmds.any (fun c => decide (wordOpc c.word = 0x1D2) && c.subId == y.id && decide (dW c.desc 1 = n) && decide (c.stage ≠ .finished))
      || (x.earlier s i).any (fun j => decide (dW (x.subOperands s j) 0 = y.subi ∧ dW (x.subOperands s j) 1 = n))
    if decide (y.nslot ≤ n) || !y.ring.any (fun r => r.1 == n && r.2.2) || (!y.ended && twice) then some (x.mergeTrap i y.sid y.subi) else none)

/-- ATDONE (R276). -/
def execAtdone (f : FormR) : State → Host.Outcome State Fault Refusal :=
  engIssue 0x1D2 f Ctx.atdoneTrap Ctx.subUnit (fun _ _ _ => []) Ctx.subOperands Ctx.subArg

/-- D of a subscription: of its running result, or before its acceptance of the stream it names. -/
def State.subDim (s : State) (y : Sub) : Option Nat :=
  if y.acc.isEmpty then (s.stream y.part y.sid).map (fun t => dimOf t.dkm) else some y.dim

/-- The runs that an ATMRG writes (R279): a row apart with .norm, otherwise the whole partial. -/
def mergeRuns (w : W96) (y : Sub) (d : List W32) (dim : Nat) : List Run :=
  let mem := wordMod w 1 1 == 1
  let base := if mem then dD d 2 else dW d 2
  if wordMod w 0 0 = 1 then (List.range y.qr).map (fun r => Run.store mem (base + r * dW d 1) (4 * dim))
  else [Run.store mem base (partialBytes y.qr dim)]

/-- The checks of ATMRG (R279, R280, R382). -/
def Ctx.atmrgTrap (x : Ctx) (s : State) (i : Nat) (d : List W32) : Option Trap :=
  firstTrapOf [
    x.badField i (nonzeroAt d [(0, 0xFFFFF8FF), (1, 0xFF000000)]), x.badField i (failsAt [(1, x.mod 0 0 == 0 && dW d 1 != 0)]),
    x.misaligned i (dD d 2) [(dW d 1, 4)],
    x.withSub s i d (fun y =>
      if y.ended && !y.complete then some (x.mergeTrap i y.sid y.subi)
      else match s.subDim y with
        | some dim => x.runTraps s i (mergeRuns x.word y d dim)
        | none => none)]

/-- The bench bytes that an ATMRG writes. -/
def Ctx.mergeSpans (x : Ctx) (s : State) (d : List W32) : List Span :=
  match s.subAt x.bid (subiOf x.key d) with
  | some y => if x.mod 1 1 = 1 then [] else match s.subDim y with
    | some dim => (mergeRuns x.word y d dim).map (fun r => { mem := false, lo := r.ea, n := r.n, write := true })
    | none => []
  | none => []
/-- ATMRG (R279). -/
def execAtmrg (f : FormR) : State → Host.Outcome State Fault Refusal :=
  engIssue 0x1D3 f Ctx.atmrgTrap Ctx.subUnit Ctx.mergeSpans (fun x s i => x.descriptor s i) Ctx.subArg

/-- Whether an ATMRG of a subscription with every position merged is still to write (R279, R280). -/
def State.merging (s : State) (id : Nat) : Bool :=
  (match s.subId id with
    | some y => y.complete
    | none => false) &&
  s.cmds.any (fun c => decide (wordOpc c.word = 0x1D3) && c.subId == id && decide (c.stage ≠ .finished))

/-- The subscription that a slice names ends, and its SUBI is free. -/
def Ctx.unsubscribe (x : Ctx) (s acc : State) (i : Nat) : State :=
  let d := x.subOperands s i
  let sub := x.subArg s d / 64
  (((x.startCmd acc i (x.subUnit s i d) d [] (x.subArg s d)).finishId acc.nextId).endSub sub).reapSub sub (acc.merging sub)
/-- ATUNS (R280). -/
def execAtuns (f : FormR) : State → Host.Outcome State Fault Refusal :=
  issueTry 0x1D4 (.r f) Ctx.noSub (fun x s => (x.inEffect s).foldl (fun acc i => x.unsubscribe s acc i) s)

/-! ## Commands at the unit -/

/-- A command ends with a fault. -/
def State.crierFault (s : State) (c : EngCmd) (cause : Cause) (unit info info2 : Nat) : State :=
  (s.modCmd c.id (fun y => { y with fault := some (c.trap { cause := cause, ea := 0, info := info, info2 := info2 } unit) })).finishCmd c

/-- ATSTRM at its unit: the stream opens (R273, R376). -/
def State.openStream (s : State) (c : EngCmd) : State :=
  let d := c.desc
  let sid := bitsOf (dW d 0) 5 0
  let part := (s.blk c.bid).part
  if (s.stream part sid).isSome ∨ 64 ≤ (s.crier (crierOf sid)).streams.length then s.crierFault c .mergeProtocol 0 (mergeInfo sid 0) 0
  else
    let t : Stream :=
      { part := part, sid := sid, np := dW d 1, pb := BitVec.ofNat 64 (dD d 2), pstr := dW d 4, dkm := bitsOf (dW d 0) 10 8, e4m3 := tyE4m3 (wordTy c.word),
        nsb := bitsOf (dW d 5) 11 0, made := 0, ended := 0, pass := none, fetch := none }
    (s.modCrier (crierOf sid) (fun k => { k with streams := k.streams ++ [t] })).finishCmd c

/-- ATNEXT answers. -/
def State.nextAnswer (s : State) (c : EngCmd) (v : Nat) : State :=
  (s.modSl c.bid c.slice (fun sl => match sl.pend.find? (fun p => p.op == c.id && Pend.held p) with
    | some p => sl.deliver c.id (p.writes.map (fun w => (w.dest, BitVec.ofNat 32 v)))
    | none => sl)).finishCmd c

/-- ATNEXT at its unit (R276, R280): the oldest delivered slot not yet taken, or END. ATNEXTs of one subscription are answered in issue order. -/
def State.nextStep (s : State) (c : EngCmd) : Option State :=
  if s.cmds.any (fun y => decide (wordOpc y.word = 0x1D0) && y.subId == c.subId && decide (y.iss < c.iss) && decide (y.stage ≠ .finished)) then none
  else match s.subId c.subId with
    | none => some (s.nextAnswer c (2 ^ 31))
    | some y =>
      if y.ended then some (s.nextAnswer c (2 ^ 31))
      else match y.ring.find? (fun r => !r.2.2) with
        | some r =>
          some ((s.modSub y.id (fun z => { z with ring := z.ring.map (fun q => if q.1 = r.1 then (q.1, q.2.1, true) else q),
                                                  taken := z.taken ++ [r.2.1] })).nextAnswer c (4096 * r.1 + r.2.1))
        | none => if y.deliv.length = y.nl then some (s.nextAnswer c (2 ^ 31)) else none

/-- The N32 words of some bytes. -/
def wordsOf (l : List Byte) : List W32 := (chunk 4 l.length l).map (fun b => BitVec.ofNat 32 (natOfBytes b))

/-- ATPOST at its unit: the partial is read into the position's merge slot (R277); one of an ended subscription has no effect. -/
def State.postStep (s : State) (c : EngCmd) : Option State :=
  match s.subId c.subId with
  | none => some (s.finishCmd c)
  | some y => match s.engRead c 0 [postRun y c.desc] with
    | .wait => none
    | .again s => some s
    | .fail s f => some (s.cmdFail c f 0)
    | .ok s l => some ((if y.ended then s
        else s.modSub y.id (fun z => { z with posted := z.posted ++ [(dW c.desc 1, wordsOf (l.headD []))] })).finishCmd c)

/-- ATDONE at its unit: the slot is free once every earlier bench access of it has been performed (R276, R256). -/
def State.doneStep (s : State) (c : EngCmd) : Option State :=
  match s.subId c.subId with
  | none => some (s.finishCmd c)
  | some y =>
    if y.ended then some (s.finishCmd c)
    else
      let t := s.stream y.part y.sid
      let n := dW c.desc 1
      if (match t with
        | some t => s.engineHeld c.bid c.iss (y.slotAddr t n) t.slotBytes true
        | none => false) then none
      else some ((s.modSub y.id (fun z => { z with ring := z.ring.filter (fun r => r.1 != n) })).finishCmd c)

/-- The bytes that ATMRG writes (R279): O / L with .norm, otherwise the running result. -/
def mergeBytes (norm : Bool) (y : Sub) : List (List Byte) :=
  let word := fun (i : Nat) => ((y.acc[i]?).getD 0).toNat
  if norm then (List.range y.qr).map (fun r => (List.range y.dim).flatMap (fun k => bytesOf 4 (fDiv (word (2 * y.qr + r * y.dim + k)) (word (y.qr + r)))))
  else [y.acc.flatMap (fun w => bytesOf 4 w.toNat)]

/-- ATMRG at its unit: it waits for every position to be merged, and writes (R279, R280). -/
def State.mergeStep (s : State) (c : EngCmd) : Option State :=
  let lost := some (s.crierFault c .mergeProtocol 0 (mergeInfo c.sid (bitsOf (dW c.desc 0) 10 8)) 0)
  match s.subId c.subId with
  | none => lost
  | some y =>
    if y.complete then
      if s.acquirePending c then none
      else match (if wordMod c.word 1 1 = 1 then s.engFence c else none) with
        | some r => r
        | none => match s.engWrite c 0 ((mergeRuns c.word y c.desc y.dim).zip (mergeBytes (wordMod c.word 0 0 == 1) y)) with
          | .wait => none
          | .again s => some s
          | .fail s f => some (s.cmdFail c f 0)
          | .ok s () => some (s.finishCmd c)
    else if y.ended then lost
    else none

/-- ATMRG at its unit, with which the record of a subscription that ATUNS has ended goes. -/
def State.mergeTurn (s : State) (c : EngCmd) : Option State :=
  (s.mergeStep c).map (fun t => match t.subId c.subId with
    | some y => if y.gone && !t.merging y.id then t.freeSub y.id else t
    | none => t)

/-- A Crier command at its unit. An ATSUB is served by SUBSCRIPTION_ACCEPT and PAGE_DELIVERY. ATSTRM and ATNEXT of a stopping block wait (R259). -/
def State.crierCmd (s : State) (c : EngCmd) : Option State :=
  let opc := wordOpc c.word
  if c.stage = .finished ∨ (s.blk c.bid).loc = .saved ∨ c.absent then none
  else if opc = 0x1CE then
    (if !s.cmdRuns c || s.acquirePending c then none else match s.engFence c with
      | some r => r
      | none => some (s.openStream c))
  else if opc = 0x1D0 then (if s.cmdRuns c then s.nextStep c else none)
  else if opc = 0x1D1 then s.postStep c
  else if opc = 0x1D2 then s.doneStep c
  else if opc = 0x1D3 then s.mergeTurn c
  else none

/-- ENGINE_COMMAND_COMPLETE (R254, R258): a Crier command is performed at its unit, or a finished command completes. -/
def State.cmdAdvance (s : State) (id : Nat) : Option State :=
  match s.cmd id with
  | some c => match c.eng with
    | .crier _ => (match s.crierCmd c with
      | some s => some s
      | none => s.cmdComplete id)
    | _ => s.cmdComplete id
  | none => none

def execEngineCommandComplete (id : Nat) (s : State) : Host.Outcome State Fault Refusal := .next ((s.cmdAdvance id).getD s)

/-! ## Acceptance (R275, R376, R378, R379) -/

/-- Granules of a unit's merge buffer (R378). -/
def poolGranules : Nat := 16384
def Crier.free (k : Crier) : Nat := poolGranules - k.used

/-- A subscription that an acceptance check ends: the fault of its ATSUB at list position 0 (R275). -/
def State.refuseSub (s : State) (c : EngCmd) (y : Sub) (f : Failure) : State :=
  (s.modCmd c.id (fun z => { z with fault := some (c.trap f 0) })).endSub y.id

/-- Whether page numbers ascend strictly and stay below NP. -/
def listOk (np : Nat) (l : List Nat) : Bool := (l.zip (l.drop 1)).all (fun p => decide (p.1 < p.2)) && l.all (fun p => decide (p < np))

/-- An acceptance reserves granules and takes effect, or waits for the end of the pass (R379); only then does a first one count among those of the stream (R273; log
entry 122). `need` gives the granules within a pass and without. -/
def State.reserveSub (s : State) (c : EngCmd) (y : Sub) (t : Stream) (need : Bool → Nat) (f : Sub → Sub) (first : Bool) : Option State :=
  let within := t.pass.isSome
  let n := need within
  if (s.crier (crierOf y.sid)).free < n then (if within && !c.mark then some ((s.modCmd c.id (fun z => { z with mark := true })).modSub y.id (fun z => { z with waited := true })) else none)
  else
    let s := s.modSub y.id (fun z => { f z with accepted := true, waited := false, inPass := within, allRes := within, gran := z.gran + n })
    let s := s.modCrier (crierOf y.sid) (fun k => { k with used := k.used + n })
    some (if first then (s.modStream y.part y.sid (fun t => { t with made := t.made + 1 })).modCmd c.id (fun z => { z with spans := [] }) else s)

/-- The acceptance of a subscription for the first time: the checks of R275 in their order, then its reservations. One that a check refuses is not among the NSB + 1 that
the stream admits (log entry 122). -/
def State.acceptFirst (s : State) (c : EngCmd) (y : Sub) : Option State :=
  let merge : Failure := { cause := .mergeProtocol, ea := 0, info := mergeInfo y.sid y.subi }
  match s.stream y.part y.sid with
  | none => some (s.refuseSub c y merge)
  | some t =>
    let share := (s.blk y.bid).bsize
    let ringEnd := y.rbase + y.nslot * t.slotBytes
    if t.nsb < t.made then some (s.refuseSub c y merge)
    else if share < ringEnd then some (s.refuseSub c y { cause := .indexBounds, ea := y.rbase, info := ringEnd, info2 := share })
    else match s.engRead c 0 [Run.read true y.lb.toNat (4 * y.nl)] with
      | .wait => none
      | .again s => some s
      | .fail s f => if f.cause = .pageAbsent then some (s.suspendCmd c f 0) else some (s.refuseSub c y f)
      | .ok s l =>
        let pages := (wordsOf (l.headD [])).map (fun w => w.toNat)
        if listOk t.np pages = false then some (s.refuseSub c y merge)
        else
          let dim := dimOf t.dkm
          let p := (partialBytes y.qr dim + 255) / 256
          s.reserveSub c y t (fun within => if within then (y.nl + 1) * p else p)
            (fun z => { z with pages := pages, acc := List.replicate (2 * y.qr + y.qr * dim) 0 }) true

/-- SUBSCRIPTION_ACCEPT (R275, R376, R379): subscription n of a unit is accepted, or accepted again after a restore. A unit holds at most 512 that have not ended, those
of saved blocks among them; the others wait in their order of arrival. -/
def State.subAccept (s : State) (u n : Nat) : Option State :=
  let k := s.crier u
  match k.subs[n]? with
  | none => none
  | some y => match s.cmd y.cmd with
    | none => none
    | some c =>
      let live := (k.subs.filter (fun z => !z.pages.isEmpty && !z.ended)).length
      let before := ((k.subs.take n).filter (fun z => z.pages.isEmpty && !z.ended && s.runs z.bid)).length
      let opening := s.cmds.any (fun z => decide (wordOpc z.word = 0x1CE) && decide (z.iss < c.iss) && decide (z.stage ≠ .finished) &&
        decide (bitsOf (dW z.desc 0) 5 0 = y.sid) && (s.blk z.bid).part == y.part)
      if y.accepted || y.ended || !s.runs y.bid || c.mark || c.absent || opening || (y.pages.isEmpty && decide (512 ≤ live + before)) then none
      else if y.pages ≠ [] then
        match s.stream y.part y.sid with
        | some t => s.reserveSub c y t (fun within => if within then (y.nl - y.deliv.length) * y.gran1 else 0) id false
        | none => none
      else if s.acquirePending c then none
      else match s.engFence c with
        | some r => r
        | none => s.acceptFirst c y

def execSubscriptionAccept (u n : Nat) (s : State) : Host.Outcome State Fault Refusal := .next ((s.subAccept u n).getD s)

/-! ## Passes (R274, R377, R380, R432) -/

/-- Whether a subscription may receive pages now. -/
def State.subLive (s : State) (y : Sub) : Bool := y.accepted && !y.ended && s.runs y.bid

/-- The list position of a page. -/
def Sub.pos (y : Sub) (p : Nat) : Nat := y.pages.findIdx (fun q => q == p)
/-- The pages that a subscription lacks, from a page on. -/
def Sub.lacks (y : Sub) (from_ : Nat) : List Nat := y.pages.filter (fun p => decide (from_ ≤ p) && !y.deliv.contains (y.pos p))

/-- The subscriptions of a stream. -/
def Crier.of (k : Crier) (t : Stream) : List Sub := k.subs.filter (fun y => y.part == t.part && y.sid == t.sid)

/-- The subscriptions that take part in a pass: those of the pass in progress, or, when one begins, all. -/
def State.takePart (s : State) (k : Crier) (t : Stream) : List Sub := (k.of t).filter (fun y => s.subLive y && (t.pass.isNone || y.inPass))

/-- The page that a stream fetches next, and who is to receive it. -/
def State.duePage (s : State) (k : Crier) (t : Stream) : Option (Nat × List Sub) :=
  let l := s.takePart k t
  match leastBy (fun (p : Nat) => p) (l.flatMap (fun y => y.lacks (t.pass.getD 0))) with
  | some p => some (p, l.filter (fun y => (y.lacks 0).contains p))
  | none => none

/-- Whether every receiver has a free ring slot and a merge slot (R380). -/
def Crier.room (k : Crier) (l : List Sub) : Bool :=
  l.all (fun y => decide (y.ring.length < y.nslot)) && decide (sumNat (l.map (fun y => if y.allRes then 0 else y.gran1)) ≤ k.free)

/-- The streams of a unit in the order of its rotation (R376). -/
def Crier.rotation (k : Crier) : List Stream :=
  (List.range 1024).filterMap (fun i => let n := (k.last + i) % 1024
    k.streams.find? (fun t => t.part == n / 64 && t.sid == n % 64))

/-- The bytes of a page at the L3 home, with the leaves its walk met (R377, R432); the partials of its lines have been recalled (R367). -/
def State.poolPage (s : State) (t : Stream) (p : Nat) : Except Failure (List (Nat × Nat × Leaf) × List Byte) :=
  match s.walkSpan t.part (t.pb.toNat + p * t.pstr) t.psz false with
  | .error f => .error f
  | .ok ps =>
    if ps.any (fun x => isRemote x.1 && s.windowDown x.1) then
      .error { cause := .peerLinkDown, ea := t.pb.toNat + p * t.pstr, info := ((ps.find? (fun x => isRemote x.1 && s.windowDown x.1)).map (fun x => s.linkOf x.1)).getD 0 }
    else if ps.any (fun x => !isRemote x.1 && readPoison (fun l => s.devLine l x.2.2.kid) x.1 x.2.1) then
      .error { cause := .eccUncorrectable, ea := t.pb.toNat + p * t.pstr }
    else .ok (ps, ps.flatMap (fun x => s.homeBytes x.2.2.kid x.1 x.2.1))

/-- A page that cannot be fetched (R432): an absent one suspends the blocks it is due to; any other failure ends their subscriptions. -/
def State.missPage (s : State) (t : Stream) (p : Nat) (f : Failure) (l : List Sub) : State :=
  l.foldl (fun s y =>
    if f.cause = .pageAbsent then
      s.takeTrap y.bid { cause := .pageAbsent, kind := 0, slc := y.slice, unit := y.pos p, ea := t.pb.toNat + p * t.pstr, info := f.info, pc := y.pc, tpc := y.pc,
                         word := y.word, ext := s.extBits y.bid f.ea }
    else match s.cmd y.cmd with
      | some c => (s.modCmd c.id (fun z => { z with fault := some (c.trap (s.withExt y.bid f) (y.pos p)) })).endSub y.id
      | none => s.endSub y.id) s

/-- The piece of a leaf, for the ownership of PV frames; it stands in no extent table. -/
def leafPiece (va : Nat) (x : Nat × Nat × Leaf) : Piece :=
  { va := va, n := x.2.1, pa := x.1, ext := x.2.2.extent 0 0 { vb := 0, len := 0, rd := true, w := false, attr := x.2.2.attr }, req := .nc }

/-- Each receiver in turn reaches the page's PV frames: the first becomes their owner, and one that another block's ownership bars ends with PV_FOREIGN
(R292, R432). Answers the receivers that remain. -/
def State.reachPv (s : State) (t : Stream) (p : Nat) (ps : List Piece) : List Sub → State × List Sub
  | [] => (s, [])
  | y :: l => match s.pvFailure y.bid ps with
    | some f => (s.missPage t p { f with ext := 0 } [y]).reachPv t p ps l
    | none =>
      let r := (s.ownFrames y.bid ps).reachPv t p ps l
      (r.1, y :: r.2)

/-- One page of a stream fetched for its receivers, the partials of its lines recalled first (R367). -/
def State.fetchPool (s : State) (u : Nat) (t : Stream) (p : Nat) (l : List Sub) : State :=
  let s := s.recallVirt t.part (t.pb.toNat + p * t.pstr) t.psz
  let s := s.modStream t.part t.sid (fun t => { t with pass := some (p + 1) })
  let s := s.modCrier u (fun k => { k with last := (t.part * 64 + t.sid + 1) % 1024 })
  match s.poolPage t p with
  | .error f => s.missPage t p f l
  | .ok (ps, data) =>
    let s := ps.foldl (fun s x => s.touchLeaf x.2.2) { s with free := s.free + 1 }
    let r := s.reachPv t p (ps.map (leafPiece (t.pb.toNat + p * t.pstr))) l
    let s := r.2.foldl (fun s y => if y.allRes then s else
      (s.modSub y.id (fun z => { z with gran := z.gran + y.gran1 })).modCrier u (fun k => { k with used := k.used + y.gran1 })) r.1
    if r.2.isEmpty then s else s.modStream t.part t.sid (fun t => { t with fetch := some (p, data, r.2.map (fun y => y.id)) })

/-- The end of a pass: its subscriptions leave it, and acceptances that waited for it may go on (R274, R379). -/
def State.endPass (s : State) (u : Nat) (t : Stream) : State :=
  ((s.crier u).of t).foldl (fun s y => (s.modSub y.id (fun z =>
    { z with inPass := false, waited := z.waited || (!z.accepted && !z.ended) })).modCmd y.cmd (fun c => { c with mark := false }))
    (s.modStream t.part t.sid (fun t => { t with pass := none }))

/-- Every subscription of a stream that takes part in a beginning pass. -/
def State.beginPass (s : State) (u : Nat) (t : Stream) : State :=
  if t.pass.isSome then s
  else (s.takePart (s.crier u) t).foldl (fun s y => s.modSub y.id (fun z => { z with inPass := true })) s

/-- Whether a subscription that waited for the end of the pass can be accepted: it takes part in the next pass from its first fetch (R379). -/
def State.acceptsFirst (s : State) (u : Nat) (t : Stream) : Bool :=
  (s.crier u).subs.zipIdx.any (fun p => p.1.part == t.part && p.1.sid == t.sid && p.1.waited && (s.subAccept u p.2).isSome)

/-- What a stream can do at its turn: a pass without a due page ends, and a due page with room is fetched; the first of a pass once the acceptances that waited for
the end of the last are made. -/
def State.streamTurn (s : State) (u : Nat) (t : Stream) : Option State :=
  match s.duePage (s.crier u) t with
  | none => if t.pass.isSome then some (s.endPass u t) else none
  | some (p, l) =>
    if t.pass.isNone && s.acceptsFirst u t then none
    else if (s.crier u).room l then some ((s.beginPass u t).fetchPool u t p l) else none

/-- CRIER_PAGE_FETCH (R376, R377, R380): a unit with no page on its way fetches the next due page in rotation. -/
def State.pageFetch (s : State) (u : Nat) : Option State :=
  let k := s.crier u
  if k.streams.any (fun t => t.fetch.isSome) then none else firstSome (s.streamTurn u) k.rotation

def execCrierPageFetch (u : Nat) (s : State) : Host.Outcome State Fault Refusal := .next ((s.pageFetch u).getD s)

/-- The next free slot of a ring, in cyclic order (R274). -/
def Sub.freeSlot (y : Sub) : Option Nat :=
  ((List.range y.nslot).map (fun i => (y.nextSlot + i) % y.nslot)).find? (fun n => !y.ring.any (fun r => r.1 == n))

/-- PAGE_DELIVERY (R274, R377): the page on its way is written into the next ring slot of its n-th receiver, which counts at its barrier (R257). -/
def State.pageDeliver (s : State) (u n : Nat) : Option State :=
  match (s.crier u).streams.find? (fun t => t.fetch.isSome) with
  | none => none
  | some t => match t.fetch with
    | none => none
    | some (p, data, ids) => match ids[n]? with
      | none => none
      | some id => match s.subId id with
        | none => none
        | some y => match y.freeSlot with
          | none => none
          | some slot =>
            let a := y.slotAddr t slot
            if (s.blk y.bid).loc = .saved ∨ s.engineHeld y.bid s.iss a data.length true then none
            else
              let pos := y.pos p
              let s := s.modBlk y.bid (fun b => b.benchWrite a data)
              let s := s.modSub id (fun z => { z with deliv := z.deliv ++ [pos], ring := z.ring ++ [(slot, pos, false)], nextSlot := (slot + 1) % z.nslot })
              let s := s.modCrier u (fun k => k.unsend id)
              match s.cmd y.cmd with
              | none => some s
              | some c =>
                let s := s.arrive c 1
                some (if y.deliv.length + 1 = y.nl then s.finishCmd c else s)

def execPageDelivery (u n : Nat) (s : State) : Host.Outcome State Fault Refusal := .next ((s.pageDeliver u n).getD s)

/-! ## The merge (R278, R381) -/

/-- One row folded: (M, L, O) and (m, l, o); a partial taken over whole has its NaNs quiet (R71, R85). -/
def foldRow (first : Bool) (a b : Nat × Nat × List Nat) : Nat × Nat × List Nat :=
  if first ∨ a.1 = infN then (quietF32 b.1, quietF32 b.2.1, b.2.2.map quietF32)
  else if b.1 = infN then a
  else
    let mn := fMinMax Fmt.f32 true a.1 b.1
    let ea := fEx2 (fAdd Fmt.f32 .rne true a.1 mn)
    let eb := fEx2 (fAdd Fmt.f32 .rne true b.1 mn)
    (mn, fLinear [(a.2.1, ea), (b.2.1, eb)] [], (a.2.2.zip b.2.2).map (fun p => fLinear [(p.1, ea), (p.2, eb)] []))

/-- Row r of a result in the partial layout (R277). -/
def partialRow (l : List W32) (qr dim r : Nat) : Nat × Nat × List Nat :=
  let w := fun (i : Nat) => ((l[i]?).getD 0).toNat
  (w r, w (qr + r), (List.range dim).map (fun d => w (2 * qr + r * dim + d)))

/-- A partial folded into the running result (R278). -/
def Sub.foldPartial (y : Sub) (p : List W32) : List W32 :=
  let rows := (List.range y.qr).map (fun r => foldRow (y.merged == 0) (partialRow y.acc y.qr y.dim r) (partialRow p y.qr y.dim r))
  (rows.map (fun r => r.1) ++ rows.map (fun r => r.2.1) ++ rows.flatMap (fun r => r.2.2)).map (BitVec.ofNat 32)

/-- The place of a subscription in the rotation of the merge engine: ascending partition, SID, block and SUBI (R381). -/
def Sub.place (y : Sub) : Nat := (y.part * 64 + y.sid) * 2 ^ 67 + y.bid * 8 + y.subi + 1

/-- Whether the partial of a subscription's next position is in its slot. -/
def Sub.ready (y : Sub) : Bool := !y.ended && (y.posted.lookup y.merged).isSome

/-- The subscription whose turn it is: the next ready one behind the last that was folded, else the first (R381). -/
def Crier.mergeNext (k : Crier) : Option Nat :=
  let l := k.subs.filter Sub.ready
  match leastBy Sub.place (l.filter (fun y => decide (k.merge < y.place))) with
  | some y => some y.id
  | none => (leastBy Sub.place l).map (fun y => y.id)

/-- MERGE_FOLD (R278, R381): the next position of subscription n of a unit is folded at its turn once its partial is in its slot, whose reservation is freed. -/
def State.foldNext (s : State) (u n : Nat) : Option State :=
  match (s.crier u).subs[n]? with
  | none => none
  | some y => match y.posted.lookup y.merged with
    | none => none
    | some p =>
      if y.ended || (s.crier u).mergeNext != some y.id then none
      else
        let g := min y.gran1 y.gran
        some ((s.modSub y.id (fun z => { z with acc := y.foldPartial p, merged := y.merged + 1, posted := z.posted.filter (fun q => q.1 != y.merged),
                                                gran := z.gran - g })).modCrier u (fun k => { k with used := k.used - g, merge := y.place }))

def execMergeFold (u n : Nat) (s : State) : Host.Outcome State Fault Refusal := .next ((s.foldNext u n).getD s)

/-- A step of a unit. -/
def State.crierStep (s : State) (u : Nat) : Option State :=
  let k := s.crier u
  let n := List.range k.subs.length
  firstSome (fun f => f ()) [
    fun _ => firstSome (s.foldNext u) n,
    fun _ => firstSome (s.pageDeliver u) (List.range k.subs.length),
    fun _ => firstSome (s.subAccept u) n,
    fun _ => s.pageFetch u]

end Sys2Proof.Machine
end

