-- ==== Sys2Proof/Machine/Foreman.lean ====
section
/-! DEFINITION. The Foreman's queues: launch records and their checks, acceptance, task records, chains and the end of a grid (R203, R307 to
R315). -/

namespace Sys2Proof.Machine

/-! ## Helpers -/

/-- n bytes of a record from an offset, as a number (R7). -/
def field (l : List Byte) (o n : Nat) : Nat := natOfBytes ((l.drop o).take n)

/-- An MSI-X interrupt raised (R398): function 0 is the PF with 64 vectors, n + 1 the VF of partition n with 8. -/
def State.raiseMsi (s : State) (fn vec : Nat) : State :=
  if vec < (if fn = 0 then 64 else 8) then { s with host := { s.host with msix := (fn, vec) :: s.host.msix } } else s

/-- A partition's page of registers (R402). -/
def State.page (s : State) (p : Nat) : PartPage := (s.host.pages[p]?).getD PartPage.reset
def State.modPage (s : State) (p : Nat) (f : PartPage → PartPage) : State := { s with host := { s.host with pages := updAt f p s.host.pages } }
/-- A launch queue's ring. -/
def State.queueRing (s : State) (q : Nat) : Ring := ((s.page (q / 4)).queues[q % 4]?).getD Ring.reset
def State.modQueue (s : State) (q : Nat) (f : Ring → Ring) : State := s.modPage (q / 4) (fun p => { p with queues := updAt f (q % 4) p.queues })

/-- A partition's table entry. -/
def State.part (s : State) (p : Nat) : Part := (s.parts[p]?).getD { root := 0, ctx := 0, len := 0, guar := 0, limit := 0 }

/-! ## Launch records (R307 to R309) -/

/-- The threads of a block, its slices and the blocks of a grid. -/
def Launch.threads (l : Launch) : Nat := l.bx * l.byDim * l.bz
def Launch.nsl (l : Launch) : Nat := (l.threads + 3) / 4
def Launch.blocks (l : Launch) : Nat := l.gx * l.gy * l.gz
/-- Units and granules of a block at admission (R28, R30). -/
def Launch.units (l : Launch) : Nat := sumNat (l.stages.map (fun t => t.a * t.slc)) + l.rsv
def Launch.granules (l : Launch) : Nat := (l.bench + 255) / 256 + 4
/-- The bytes of a block's context frame (R333). -/
def Launch.frameBytes (l : Launch) : Nat :=
  (4096 + 17 * 1024 * l.nsl + 256 * l.granules + 65536 * l.tc + 192 * 1024 + 65535) / 65536 * 65536

/-- A stage entry. -/
def stageOf (e : Nat) : StageRec := { a := bitsOf e 55 48, slc := bitsOf e 47 32, ent := bitsOf e 31 0 }

/-- Whether every reserved field of a record is zero (R307, R308). -/
def reservedOk (l : List Byte) : Bool :=
  let nsm := field l 0x16 1 % 4
  let stage := fun (k : Nat) => field l (0x20 + 8 * k) 8
  decide (field l 0x70 144 = 0) && decide (field l 0x63 5 = 0) && decide (bitsOf (field l 0x1F 1) 7 6 = 0) && decide (bitsOf (field l 0x1E 1) 7 6 = 0) &&
    decide (bitsOf (field l 0x17 1) 7 1 = 0) && decide (bitsOf (field l 0x16 1) 3 2 = 0) &&
    (List.range 4).all (fun k => if k ≤ nsm then decide (bitsOf (stage k) 63 56 = 0) else decide (stage k = 0))

/-- A range entry (R309), and whether it is well formed. -/
def rangeOf (l : List Byte) : RangeRec :=
  let hi := field l 8 8
  { vb := bitsOf (field l 0 8) 51 0, len := bitsOf hi 47 0, rd := bitOf hi 48, w := bitOf hi 49, attr := attrOfCode (bitsOf hi 51 50) }
def rangeOk (l : List Byte) : Bool :=
  decide (field l 0 8 < 2 ^ 52) && decide (field l 8 8 < 2 ^ 52) && decide (0 < (rangeOf l).len) && decide ((rangeOf l).vb + (rangeOf l).len ≤ 2 ^ 52)

/-- The fields of a record; its partition, priority and task record are those given. -/
def launchOf (l : List Byte) (lra part pri dca : Nat) (ranges : List RangeRec) : Launch :=
  let w := fun (o : Nat) => BitVec.ofNat 64 (field l o 8)
  { lra := BitVec.ofNat 64 lra, kaddr := w 0, gx := field l 8 4, gy := field l 0x0C 2, gz := field l 0x0E 2, bx := field l 0x10 2, byDim := field l 0x12 2,
    bz := field l 0x14 2, stages := (List.range (field l 0x16 1 % 4 + 1)).map (fun k => stageOf (field l (0x20 + 8 * k) 8)),
    tc := bitsOf (field l 0x16 1) 7 4, det := bitOf (field l 0x17 1) 0, bench := field l 0x18 4, rsv := field l 0x1C 2, lc := bitsOf (field l 0x1E 1) 5 0,
    part := part, pri := pri, seed := w 0x40, rta := w 0x48, dca := BitVec.ofNat 64 dca, sla := w 0x58, sln := field l 0x60 2, rnc := field l 0x62 1,
    tlk := w 0x68, ranges := ranges }

/-- Whether the addresses of a record keep the alignments of R307. -/
def addressesOk (l : List Byte) (lra dca : Nat) : Bool :=
  lra % 256 == 0 && field l 0 8 % 256 == 0 && field l 0x48 8 % 16 == 0 && dca % 32 == 0 && field l 0x58 8 % 8 == 0 && field l 0x68 8 % 256 == 0

/-- The first of a list of failed checks with its reason code (R311). -/
def firstReason (l : List (Nat × Bool)) : Option Nat := (l.find? (fun p => p.2)).map (fun p => p.1)

/-- Checks 0x02 to 0x0B of R311 on a record whose tables were read. -/
def State.recordFailure (s : State) (l : List Byte) (table : List (List Byte)) (r : Launch) (part : Nat) (child : Bool) : Option Nat :=
  firstReason [
    (0x02, !reservedOk l),
    (0x03, !child && decide (bitsOf (field l 0x1F 1) 3 0 ≠ part)),
    (0x04, decide (r.threads = 0) || decide (1024 < r.threads) || decide (r.gx = 0) || decide (0x7FFFFFFF < r.gx) || decide (r.gy = 0) || decide (r.gz = 0) ||
      decide (0xFFFFFFFF < r.blocks)),
    (0x05, r.stages.any (fun t => decide (t.a = 0) || decide (32 < t.a) || decide (t.slc = 0) || decide (256 < t.slc) || t.ent % 4 != 0) ||
      sumNat (r.stages.map (fun t => t.slc)) != r.nsl),
    (0x06, decide (2096128 < r.bench) || decide (8 < r.tc) || decide (8192 < r.rsv)),
    (0x07, if r.det then decide (r.lc = 0) || decide (32 < r.lc) else decide (r.lc ≠ 0)),
    (0x08, decide (64 < r.rnc) || table.any (fun e => !rangeOk e)),
    (0x09, decide (4096 < r.sln)),
    (0x0A, decide (8192 < r.units) || decide (8192 < r.granules)),
    (0x0B, decide ((s.part part).len < r.frameBytes))]

/-- The partials of the lines that a launch record and the tables it names stand in recalled (R367). -/
def State.recallLaunch (s : State) (part lra : Nat) : State :=
  let s := s.recallVirt part lra 256
  match s.readRecord part lra 256 with
  | .error _ => s
  | .ok l => [(field l 0x48 8, 16 * field l 0x62 1), (field l 0x50 8, 32), (field l 0x58 8, 8 * min 4096 (field l 0x60 2))].foldl (fun s p =>
      s.recallVirt part p.1 p.2) s

/-- The record at an address read and checked under a partition (R311): the launch, or the reason code. A child takes its parent's priority, and
its task record is ignored (R314). An address above 2^52 fails even where no byte is to be read there, a list longer than 4,096 is read for 4,096 entries before its
length fails, and poisoned bytes are read as they stand (log entry 116). -/
def State.readLaunch (s : State) (part lra : Nat) (child : Option Nat) : Except Nat Launch :=
  match s.readRecord part lra 256 with
  | .error _ => .error 0x01
  | .ok l =>
    let dca := if child.isSome then 0 else field l 0x50 8
    match s.readRecord part (field l 0x48 8) (16 * field l 0x62 1), s.readRecord part dca (if dca = 0 then 0 else 32),
        s.readRecord part (field l 0x58 8) (8 * min 4096 (field l 0x60 2)) with
    | .ok rt, .ok _, .ok _ =>
      if addressesOk l lra dca = false then .error 0x01
      else
        let table := chunk 16 rt.length rt
        let r := launchOf l lra part (child.getD (bitsOf (field l 0x1F 1) 5 4)) dca (table.map rangeOf)
        match s.recordFailure l table r part child.isSome with
        | some n => .error n
        | none => .ok r
    | _, _, _ => .error 0x01

/-! ## Ready queues and task records (R312, R313) -/

/-- A grid at the tail of its ready queue. -/
def State.enterReady (s : State) (g : Grid) : State :=
  { s with grids := s.grids ++ [g], ready := updAt (fun l => l ++ [g.gid]) g.rq s.ready }

/-- accept(launch) of R312. A launch whose task record cannot be read or written enters its ready queue (log entry 68). -/
def State.taskAccept (s : State) (g : Grid) : State :=
  let part := g.lr.part
  let dca := g.lr.dca.toNat
  let s := s.recallVirt part dca 32
  match s.readVirt part dca 32 with
  | .error _ => s.enterReady g
  | .ok l =>
    if dca = 0 ∨ field l 0 4 = 0 then s.enterReady g
    else
      match s.writeVirt part (dca + 4) (bytesOf 4 1 ++ bytesOf 8 g.lr.lra.toNat ++ bytesOf 8 g.qea) with
      | .error _ => s.enterReady g
      | .ok s1 => { s1 with parked := s1.parked ++ [{ dca := g.lr.dca, part := part, grid := g }] }

/-- Where an address of a partition stands in memory; none where its page does not translate. -/
def State.placeOf (s : State) (part ea : Nat) : Option Nat := match s.walkSpan part ea 1 false with
  | .ok (p :: _) => some p.1
  | _ => none

/-- Whether the launch that a task record at an address holds, by its LRA and QEA, is a parked one: one of the partition, or of the record's place (R312). -/
def State.parkedAt (s : State) (part t lra qea : Nat) (p : Parked) : Bool :=
  p.grid.lr.lra.toNat == lra && p.grid.qea == qea && (p.part == part || (s.placeOf p.part p.dca.toNat).any (fun x => s.placeOf part t == some x))

/-- decrement(T) of R312. A record that cannot be read or written is passed over, and an underflow is counted where no register shows it (log entries 68 and
117). -/
def State.taskDecrement (s : State) (part t : Nat) : State :=
  let s := s.recallVirt part t 32
  match s.readVirt part t 32 with
  | .error _ => s
  | .ok l =>
    let cnt := field l 0 4
    if cnt = 0 then { s with host := { s.host with underfl := s.host.underfl + 1 } }
    else if cnt = 1 ∧ bitOf (field l 4 4) 0 then
      match s.writeVirt part t (bytesOf 4 0 ++ bytesOf 4 0) with
      | .error _ => s
      | .ok s1 =>
        match s1.parked.find? (s1.parkedAt part t (field l 8 8) (field l 16 8)) with
        | some p => { s1 with parked := s1.parked.erase p }.enterReady p.grid
        | none => s1
    else match s.writeVirt part t (bytesOf 4 (cnt - 1)) with
      | .error _ => s
      | .ok s1 => s1

/-! ## Acceptance (R310, R311) -/

/-- The status of a queue entry written, at .sys; an entry that cannot be written stays as it stands. -/
def State.writeEntry (s : State) (part qea : Nat) (l : List Byte) : State :=
  match s.writeVirt part (qea + 8) l with
  | .ok s1 => s1
  | .error _ => s

/-- The interrupt of a queue entry (R310, R402): of the partition's VF whoever posted it, and none from a vector above 7 (log entry 118). -/
def State.entryIrq (s : State) (queue : Nat) (irq : Bool) : State :=
  if irq then s.raiseMsi (queue / 4 + 1) (s.queueRing queue).vec else s

/-- A grid of a launch before its first block. -/
def gridOf (gid queue qea : Nat) (irq priv : Bool) (r : Launch) : Grid :=
  { Grid.blank with gid := gid, rq := 4 * r.part + r.pri, queue := queue, qea := qea, irq := irq, priv := priv, lr := r,
                    nextL := List.range (if r.det then r.lc else 0) }

/-- QUEUE_ENTRY_ACCEPT (R310, R311, R312, R402): the Foreman reads the next entry of a queue and accepts or rejects its launch. -/
def State.queueAccept (s : State) (q : Nat) : Option State :=
  let r := s.queueRing q
  let part := q / 4
  if 64 ≤ q ∨ r.size = 0 ∨ r.head = r.tail ∨ bitOf r.err 1 then none
  else
    let qea := r.base + 16 * (r.head % r.size)
    let s := s.recallVirt part qea 16
    match s.readVirt part qea 16 with
    | .error _ => some (s.modQueue q (fun r => { r with err := r.err + 2 }))
    | .ok e =>
      let priv := s.host.pfPosts.contains (q, r.head)
      let s := { s with host := { s.host with pfPosts := s.host.pfPosts.filter (fun p => decide (p ≠ (q, r.head))) } }
      let s := s.modQueue q (fun r => { r with head := (r.head + 1) % 2 ^ 32 })
      let lra := field e 0 8 / 256 * 256
      let irq := bitOf (field e 0 8) 0
      let s := s.recallLaunch part lra
      match s.readLaunch part lra none with
      | .error rsn => some ((s.writeEntry part qea (bytesOf 1 4 ++ bytesOf 1 rsn)).entryIrq q irq)
      | .ok l =>
        let s := s.writeEntry part qea (bytesOf 1 1)
        some ({ s with nextId := s.nextId + 1 }.taskAccept (gridOf s.nextId q qea irq priv l))

def execQueueEntryAccept (q : Nat) (s : State) : Host.Outcome State Fault Refusal := .next ((s.queueAccept q).getD s)

/-! ## Chains (R203, R314, R315) -/

/-- The addresses of a successor list. -/
def State.successors (s : State) (part : Nat) (p : W64 × Nat) : List Nat :=
  match s.readVirt part p.1.toNat (8 * p.2) with
  | .ok l => (List.range p.2).map (fun k => field l (8 * k) 8)
  | .error _ => []

/-- The end of a chain (R315): successors, the entry's status, the interrupt; then the ready queue goes on. -/
def State.endChain (s : State) (g : Grid) (st rsn : Nat) : State :=
  let part := g.queue / 4
  let s := { s with grids := s.grids.filter (fun y => y.gid != g.gid), ready := s.ready.map (fun (l : List Nat) => l.filter (fun k => k != g.gid)) }
  let s := if st = 2 then ((g.lr.sla, g.lr.sln) :: g.chain).foldl (fun s p =>
      (s.successors g.lr.part p).foldl (fun s t => s.taskDecrement g.lr.part t) (s.recallVirt g.lr.part p.1.toNat (8 * p.2))) s else s
  let w := st + 2 ^ 8 * rsn + 2 ^ 16 * min g.chn 0xFFFF + 2 ^ 32 * min g.disc 0xFFFFFFFF
  (s.writeEntry part g.qea (bytesOf 8 w)).entryIrq g.queue g.irq

/-- The work-queue entries of a launch (R203). -/
def State.wqCount (s : State) (gid : Nat) : Nat := sumNat (s.cores.flatMap (fun c => c.wq.map (fun (l : List WqEntry) => (l.filter (fun e => e.gid == gid)).length)))
/-- A core without the queue entries and the reservations of a launch (R203, R206). -/
def Core.withoutGrid (gid : Nat) (c : Core) : Core :=
  { c with wq := c.wq.map (fun (l : List WqEntry) => l.filter (fun e => e.gid != gid)), wqres := c.wqres.filter (fun r => r.1 != gid) }
def State.wqDrop (s : State) (gid : Nat) : State := { s with cores := s.cores.map (Core.withoutGrid gid) }

/-- Whether every block of a grid has retired, or of an ended grid every block is gone. -/
def State.gridOver (s : State) (g : Grid) : Bool :=
  !s.blocks.any (fun b => b.gid == g.gid) && (g.ended || g.retired == g.lr.blocks)

/-- A core held by a partition becomes free when no block of it is resident there and it is host of no logical core of a deterministic grid with blocks not retired
(R316). -/
def State.freeCores (s : State) : State :=
  { s with cores := s.cores.mapIdx (fun c k =>
      if s.blocks.any (fun b => decide (b.loc = .resident c)) || s.grids.any (fun g => g.started && g.hosts.contains c && !s.gridOver g) then k
      else { k with holder := none }) }

/-- GRID_RETIRE (R203, R314, R315): the entries it leaves are discarded, and its tail child starts or its chain ends. -/
def State.gridRetire (s : State) (gid : Nat) : Option State :=
  match s.grids.find? (fun g => g.gid == gid) with
  | none => none
  | some g0 =>
    if s.gridOver g0 = false then none
    else
      let g := { g0 with disc := g0.disc + s.wqCount gid }
      let s := (s.wqDrop gid).modGrid gid (fun _ => { g with started := false, hosts := [] })
      let s := s.freeCores
      let link := match g.cand with
        | some c => c.lra.toNat
        | none => g.lr.tlk.toNat
      let s := if g.ended ∨ g.failed ∨ link = 0 then s else s.recallLaunch g.lr.part link
      if g.ended ∨ g.failed then some (s.endChain g 3 0)
      else if link = 0 then some (s.endChain g 2 0)
      else match s.readLaunch g.lr.part link (some g.lr.pri) with
        | .error rsn => some (s.endChain g 4 rsn)
        | .ok l =>
          let child := { gridOf s.nextId g.queue g.qea g.irq g.priv l with rq := g.rq, chain := (g.lr.sla, g.lr.sln) :: g.chain, chn := g.chn + 1, disc := g.disc }
          some { s with nextId := s.nextId + 1, grids := s.grids.map (fun y => if y.gid = gid then child else y),
                        ready := s.ready.map (fun l => l.map (fun k => if k = gid then child.gid else k)) }

def execGridRetire (gid : Nat) (s : State) : Host.Outcome State Fault Refusal := .next ((s.gridRetire gid).getD s)

end Sys2Proof.Machine
end

