-- ==== Sys2Proof/Machine/Loom.lean ====
section
/-! DEFINITION. What the Loom does with the operations in Loom order: acceptance, the tile fetch unit and its pins, the metadata grant,
completion, and the store phase of a drain (R226 to R242, R248, R249, R348 to R353; log entries 22, 47). Each step answers none where it
waits. -/

namespace Sys2Proof.Machine

/-! ## Pieces -/

/-- The blocks resident on a core. -/
def State.residents (s : State) (core : Nat) : List Block := s.blocks.filter (fun b => decide (b.loc = .resident core))

def State.modLoom (s : State) (bid id : Nat) (f : LoomOp → LoomOp) : State :=
  s.modBlk bid (fun b => { b with loomQ := updFirst (fun o => o.id == id) f b.loomQ })

/-- The Loom operations of a core's blocks, each with its block, the MXV segments that the Loom has accepted, and the places that they hold. -/
def State.loomOps (s : State) (core : Nat) : List (Block × LoomOp) := (s.residents core).flatMap (fun b => b.loomQ.map (fun o => (b, o)))
def State.loomSegs (s : State) (core : Nat) : List (MxvCall × MxvSeg) :=
  s.mxvs.filterMap (fun c => match c.seg with
    | some g => if g.turn ≠ 0 ∧ (s.blk c.bid).loc = .resident core then some (c, g) else none
    | none => none)
def State.loomPlaces (s : State) (core : Nat) : Nat := ((s.loomOps core).filter (fun p => p.2.live)).length + (s.loomSegs core).length

/-- The first accepted work of a core's Loom, which its array serves: the segment of a stopped block is saved and holds nothing up (R248, R348). -/
def State.loomTurn (s : State) (core : Nat) : Option Nat :=
  leastBy (fun n => n) (((s.loomOps core).filter (fun p => p.2.live)).map (fun p => p.2.turn) ++
    ((s.loomSegs core).filter (fun p => s.goesOn p.1.bid p.1.iss)).map (fun p => p.2.turn))

/-- The pins of an operation released (R231, R350). -/
def State.unpin (s : State) (core id : Nat) : State := s.modCore core (fun c => { c with pins := c.pins.filter (fun p => p.op != id) })

/-- An operation leaves Loom order, and the flags that no other operation holds are lowered (R227). -/
def State.loomDone (s : State) (core : Nat) (b : Block) (o : LoomOp) : State :=
  ((s.unpin core o.id).modBlk b.bid (fun b => { b with loomQ := b.loomQ.filter (fun p => p.id != o.id) })).settleTokens b.bid o.members

/-- An operation that meets a fault changes nothing: its trap is deferred and it is done (R249). -/
def State.loomFault (s : State) (core : Nat) (b : Block) (o : LoomOp) (f : Failure) (unit : Nat := 0) : State :=
  (s.deferLoom b.bid o f.cause f.ea unit f.info f.info2).loomDone core b o

/-- An operation that meets an absent page is kept whole and its pins are released; the block is suspended (R248). -/
def State.loomSuspend (s : State) (core : Nat) (b : Block) (o : LoomOp) (f : Failure) (unit : Nat := 0) : State :=
  ((s.unpin core o.id).modLoom b.bid o.id (fun p => { p with lines := [], entered := [], stage := if p.live then .queued else p.stage, turn := 0, absent := true })).suspend
    b.bid o.slice unit o.pc o.word f

/-- A failing check of an operation. -/
def State.loomFail (s : State) (core : Nat) (b : Block) (o : LoomOp) (f : Failure) (unit : Nat := 0) : State :=
  if f.cause = .pageAbsent then s.loomSuspend core b o f unit else s.loomFault core b o f unit

/-- The source that names an operation's writes and addends. -/
def LoomOp.source (o : LoomOp) (core bid unit : Nat) : Source :=
  { Source.blank with core := core, bid := bid, slice := o.slice, seq := o.seq, op := o.id, pc := o.pc, word := o.word, unit := unit,
                      flag := ((o.members.find? (fun t => t.slice == o.slice)).map (fun t => t.flag)).getD 15 }

/-! ## Acceptance (R348) -/

/-- The rows of A that an operation reads: each row of the operand, or none for a row of zeros (R234). -/
def LoomOp.rowsA (o : LoomOp) : List (Option Nat) :=
  if wordOpc o.word = 0x187 then o.vals.map (fun v => if v = 0xFFFFFFFF then none else some v.toNat) else (List.range 128).map some

/-- The first failing check of an LMMG's gathered rows (R234). -/
def State.gatherFailure (s : State) (b : Block) (o : LoomOp) : Option Failure :=
  let a := loomA o.word o.desc
  firstSome (fun (r : Run) =>
    if r.mem then
      (if 2 ^ 52 < r.ea + r.n then some { cause := .rangeUndeclared, ea := r.ea }
        else s.rangeFailure b.bid true false (rangeSegs (s.launch b.bid).ranges r.ea r.n))
    else if b.bsize < r.ea + r.n then some { cause := .indexBounds, ea := r.ea, info := r.ea, info2 := b.bsize } else none)
    (a.reads (o.rowsA.filterMap id))

/-- An operation accepted: an LMMG or LDRX takes the index stage (R235, R349). -/
def State.acceptOp (s : State) (core : Nat) (b : Block) (o : LoomOp) : State :=
  let vals := if o.readsStage && o.vals.isEmpty then b.stage else o.vals
  let o1 := { o with stage := .accepted, vals := vals, turn := s.nextId }
  let s := { s.modLoom b.bid o.id (fun _ => o1) with nextId := s.nextId + 1 }
  if wordOpc o.word = 0x187 then
    match s.gatherFailure b o1 with
    | some f => s.loomFault core b o1 f
    | none => s
  else s

/-- The head of a block's Loom order, where it may be accepted: a drain waits for the drain buffer (R348, R353). -/
def State.loomHead (s : State) (core : Nat) (b : Block) : Option LoomOp :=
  match b.loomQ.find? (fun o => decide (o.stage = .queued)) with
    | some o =>
      if o.isLopf || !s.goesOn b.bid o.iss || !s.mayRedo b.bid o.id || (o.isDrain && (s.loomOps core).any (fun p => p.2.isDrain && decide (p.2.stage ≠ .queued))) then none else some o
    | none => none

/-- The rows of a segment from a row: at most 2 MiB of weight bytes, scale bytes apart (R354). -/
def mxvSegRows (w : W96) (d : List W32) (first : Nat) : Nat :=
  let limit := if wordTy w = .bf16x2 ∧ (mxvW w d).scaled then 126 else 128
  min (mxvRows d - first) (min limit (max 1 (2 ^ 21 / (mxvW w d).bytes)))

/-- A segment of the rows not yet begun, at its first K position. -/
def MxvCall.segment (c : MxvCall) (mill : Bool) : MxvSeg :=
  { first := c.rows, last := c.rows + mxvSegRows c.word c.desc c.rows - 1, kpos := 0, acc := [], mill := mill, fwd := [] }

def State.modMxv (s : State) (id : Nat) (f : MxvCall → MxvCall) : State := { s with mxvs := updFirst (fun c => c.id == id) f s.mxvs }

/-- Whether an MXV call waits for the Loom to accept a segment, a new one or one that was stopped between pieces (R248, R348). -/
def State.mxvWaits (s : State) (core : Nat) (c : MxvCall) : Bool :=
  decide (c.rows < mxvRows c.desc) && c.fault.isNone && decide ((s.blk c.bid).loc = .resident core) && s.goesOn c.bid c.iss && s.mayRedo c.bid c.id &&
    (match c.seg with
      | some g => !g.mill && g.turn == 0
      | none => decide (c.stage = 3) && !c.mill)
/-- A call's segment accepted. -/
def State.acceptSeg (s : State) (c : MxvCall) : State :=
  { s.modMxv c.id (fun c => { c with seg := some { (c.seg.getD (c.segment false)) with turn := s.nextId } }) with nextId := s.nextId + 1 }

/-- LOOM_ACCEPT (R348): of the heads that may be accepted, the one that entered first; a segment of a call stands where the call's issue puts it (log entry 124). -/
def State.loomAccept (s : State) (core : Nat) : Option State :=
  if 2 ≤ s.loomPlaces core then none
  else
    let ops := (s.residents core).filterMap (fun b => (s.loomHead core b).map (fun o => (b, o)))
    let calls := s.mxvs.filter (s.mxvWaits core)
    match leastBy (fun (p : Block × LoomOp) => p.2.iss) ops, leastBy (fun (c : MxvCall) => c.iss) calls with
    | none, none => none
    | some p, none => some (s.acceptOp core p.1 p.2)
    | none, some c => some (s.acceptSeg c)
    | some p, some c => if p.2.iss < c.iss then some (s.acceptOp core p.1 p.2) else some (s.acceptSeg c)

def execLoomAccept (core : Nat) (s : State) : Host.Outcome State Fault Refusal := .next ((s.loomAccept core).getD s)

/-! ## Tile fetch (R231, R350) -/

/-- The parts of a run line by line: address and bytes. -/
def lineParts (ea n : Nat) : List (Nat × Nat) :=
  if n = 0 then []
  else (List.range ((ea + n - 1) / 128 + 1 - ea / 128)).map (fun k =>
    let lo := max ea (128 * (ea / 128 + k))
    (lo, min (ea + n) (128 * (ea / 128 + k) + 128) - lo))

/-- The runs of one row of an operand: the row and its scale bytes. -/
def MatSrc.rowRuns (m : MatSrc) (r : Nat) : List (Nat × Nat) := (m.row r, m.bytes) :: (if m.scaled then [(m.scales r, m.nsc)] else [])

/-- The runs of memory that an operation reads, in the order of the tile fetch unit: rows ascending, A and B interleaved, the scales with
their row. -/
def LoomOp.memRuns (o : LoomOp) : List (Nat × Nat) :=
  let opc := wordOpc o.word
  if opc = 0x185 ∨ opc = 0x186 ∨ opc = 0x187 then
    let a := loomA o.word o.desc
    let b := loomB o.word o.desc
    o.rowsA.zipIdx.flatMap (fun p =>
      (match p.1 with
        | some r => if a.mem then a.rowRuns r else []
        | none => []) ++ (if b.mem then b.rowRuns p.2 else []))
  else if opc = 0x183 ∧ wordMod o.word 0 0 = 1 then
    (List.range (cornerRows o.desc)).map (fun m => (cornerRow true o.desc m, cornerCols o.desc * tyBytes (wordTy o.word)))
  else []

/-- The lines that an operation has yet to take into the operand buffer: the first part of each. -/
def LoomOp.unread (o : LoomOp) : List (Nat × Nat) :=
  let parts := o.memRuns.flatMap (fun r => lineParts r.1 r.2)
  ((firstKeys (parts.map (fun p => p.1 / 128))).filter (fun l => (o.lines.lookup l).isNone)).filterMap (fun l =>
    parts.find? (fun p => p.1 / 128 == l))

/-- The line of a piece and its key. -/
def Piece.home (p : Piece) : Nat × Nat := (lineOf p.pa, p.ext.kid)

/-- The pieces of an operation's next lines as pins, one for each line whatever pages reach it; a line that the operation has read already is not pinned again
(R350). -/
def LoomOp.pinsOf (o : LoomOp) (ps : List Piece) : List Pin :=
  (firstKeys ((ps.filter (fun p => (o.entered.lookup p.home).isNone)).map Piece.home)).map (fun l =>
    { op := o.id, line := l.1, kid := l.2, vlines := (ps.filter (fun p => decide (p.home = l))).map (fun p => p.va / 128) })
/-- Lines met again through other pages, taken from the operand buffer. -/
def LoomOp.again (o : LoomOp) (ps : List Piece) : LoomOp :=
  { o with lines := o.lines ++ ps.filterMap (fun p =>
      (o.entered.lookup p.home).bind (fun v => (o.lines.lookup v).map (fun d => (p.va / 128, d)))) }

/-- The tile fetch unit pins the next lines of an operation, as many as its 512 pins allow, once the core's L1 has written them back. -/
def State.pinLines (s : State) (core : Nat) (b : Block) (o : LoomOp) : Option State :=
  let room := 512 - (s.core core).pins.length
  let runs := (o.unread.take room).map (fun p => Run.read true p.1 p.2)
  if runs.isEmpty || s.signPending b.bid o.iss then none
  else match s.prepare core b.bid o.iss runs with
    | .wait => none
    | .again s => some s
    | .fail s f => some (s.loomFail core b o f)
    | .ok s ps =>
      some (((s.ownFrames b.bid ps.flatten).modLoom b.bid o.id (fun x => x.again ps.flatten)).modCore core (fun c =>
        { c with pins := c.pins ++ o.pinsOf ps.flatten }))

/-- The next pinned line of an operation enters the operand buffer, and its pin is released. -/
def State.enterLine (s : State) (core : Nat) (b : Block) (o : LoomOp) (q : Pin) : State :=
  if s.windowDown (128 * q.line) then
    let v := q.vlines.headD 0
    let ea := ((o.unread.find? (fun p => p.1 / 128 == v)).map (fun p => p.1)).getD (128 * v)
    s.loomFault core b o { cause := .peerLinkDown, ea := ea, info := s.linkOf (128 * q.line) }
  else s.takePin core q

/-- OPERAND_BUFFER_LINE_ENTRY (R350): the operation accepted first of those with lines still to read pins them, or takes the next pinned line into
the operand buffer. -/
def State.lineEntry (s : State) (core : Nat) : Option State :=
  match leastBy (fun (p : Block × LoomOp) => p.2.turn) ((s.loomOps core).filter (fun p => p.2.live && !p.2.unread.isEmpty)) with
  | none => none
  | some p => match (s.core core).pins.find? (fun q => q.op == p.2.id) with
    | some q => some (s.enterLine core p.1 p.2 q)
    | none => s.pinLines core p.1 p.2

def execOperandBufferLineEntry (core : Nat) (s : State) : Host.Outcome State Fault Refusal := .next ((s.lineEntry core).getD s)

/-! ## Metadata (R233, R352) -/

/-- METADATA_GRANT (R352): every metadata granule of an LMMS is granted, and its words are read. -/
def State.metaGrant (s : State) (core : Nat) : Option State :=
  firstSome (fun (p : Block × LoomOp) =>
    let b := p.1
    let o := p.2
    if o.stage ≠ .accepted ∨ wordOpc o.word ≠ 0x186 then none
    else
      let n := metaWords (wordTy o.word)
      let rows := (List.range 128).map (fun m => metaRow o.desc m)
      if rows.any (fun a => s.engineHeld b.bid o.iss a (4 * n) false) then none
      else match rows.find? (fun a => b.benchPoisoned a (4 * n)) with
        | some a => some (s.loomFault core b o { cause := .eccUncorrectable, ea := a })
        | none => some (s.modLoom b.bid o.id (fun x =>
            { x with stage := .granted,
                     vals := rows.flatMap (fun a => (chunk 4 n (mrun 0 b.bench a (4 * n))).map (fun l => BitVec.ofNat 32 (natOfBytes l))) })))
    (s.loomOps core)

def execMetadataGrant (core : Nat) (s : State) : Host.Outcome State Fault Refusal := .next ((s.metaGrant core).getD s)

/-! ## Reading operands -/

/-- The bytes of a run from the operand buffer, or the bench. -/
def LoomOp.bytes (o : LoomOp) (b : Block) (mem : Bool) (ea n : Nat) : Except Failure (List Byte) :=
  if mem then
    let ps := lineParts ea n
    match ps.find? (fun p => match o.lines.lookup (p.1 / 128) with
        | some d => runPoisoned d.2 (p.1 % 128) p.2
        | none => false) with
    | some p => .error { cause := .eccUncorrectable, ea := p.1 }
    | none => .ok (ps.flatMap (fun p => match o.lines.lookup (p.1 / 128) with
        | some d => lineSlice d.1 (p.1 % 128) p.2
        | none => []))
  else if b.benchPoisoned ea n then .error { cause := .eccUncorrectable, ea := ea }
  else .ok (mrun 0 b.bench ea n)

/-- One row of an operand as blocks; a Q4 block that is BAD_FORMAT names its address and element (R233). -/
def LoomOp.matRow (o : LoomOp) (b : Block) (ty : Ty) (m : MatSrc) (r : Nat) : Except Failure (List MatBlock) :=
  match o.bytes b m.mem (m.row r) m.bytes with
  | .error f => .error f
  | .ok l => match (if m.scaled then (o.bytes b m.mem (m.scales r) m.nsc).map some else .ok none) with
    | .error f => .error f
    | .ok sc => match rowBlocks ty l sc with
      | .error e => .error { cause := .badFormat, ea := m.wrap (m.row r + 18 * e.1), info := e.2 }
      | .ok bs => .ok bs

/-- The results of a list of readings, or the first fault. -/
def readAll {α β : Type} (f : α → Except Failure β) : List α → Except Failure (List β)
  | [] => .ok []
  | x :: l => match f x with
    | .error e => .error e
    | .ok y => match readAll f l with
      | .error e => .error e
      | .ok ys => .ok (y :: ys)

/-- SPARSE_META: the lowest offending word, rows and then words ascending, and its group (R233). -/
def LoomOp.badMeta (o : LoomOp) : Option Failure :=
  let n := metaWords (wordTy o.word)
  firstSome (fun (p : W32 × Nat) => (badGroup p.1).map (fun j =>
    { cause := .sparseMeta, ea := metaRow o.desc (p.2 / n) + 4 * (p.2 % n), info := j, info2 := p.1.toNat })) o.vals.zipIdx

/-- The row that the record of a faulting matrix operation names: that of the lowest offending metadata word (R233, R336; log entry 81). -/
def LoomOp.faultRow (o : LoomOp) (f : Failure) : Nat :=
  if f.cause = .sparseMeta then ((o.vals.zipIdx.find? (fun p => (badGroup p.1).isSome)).map (fun p => p.2 / metaWords (wordTy o.word))).getD 0 else 0

/-- Operands A and B of a matrix operation, row by row. -/
def LoomOp.operands (o : LoomOp) (b : Block) : Except Failure (List (Option (List MatBlock)) × List (List MatBlock)) :=
  let ty := wordTy o.word
  let sparse := decide (wordOpc o.word = 0x186)
  let ma := loomA o.word o.desc
  match (if sparse then o.badMeta else none) with
  | some f => .error f
  | none => match readAll (fun (r : Option Nat) => match r with
        | some r => (o.matRow b ty ma r).map some
        | none => .ok none) o.rowsA, readAll (o.matRow b ty (loomB o.word o.desc)) (List.range 128) with
    | .error f, _ => .error f
    | _, .error f => .error f
    | .ok a, .ok c =>
      .ok (if sparse then (a.zip (chunk (metaWords ty) 128 o.vals)).map (fun p => p.1.map (fun r => expandRow r p.2)) else a, c)

/-- The elements of an LLDC's corner, row by row. -/
def LoomOp.corner (o : LoomOp) (b : Block) : Except Failure (List (List Nat)) :=
  let mem := decide (wordMod o.word 0 0 = 1)
  let eb := tyBytes (wordTy o.word)
  readAll (fun m => (o.bytes b mem (cornerRow mem o.desc m) (cornerCols o.desc * eb)).map (fun l => (chunk eb l.length l).map natOfBytes))
    (List.range (cornerRows o.desc))

/-- The bench granules that an operation reads at its completion. -/
def LoomOp.benchReads (o : LoomOp) : List (Nat × Nat) := (o.spans.filter (fun p => !p.mem && !p.write)).map (fun p => (p.lo, p.n))

/-! ## Completion (R232, R238, R349) -/

/-- The tile of a completed operation. -/
def LoomOp.result (o : LoomOp) (b : Block) : Except Failure Block :=
  let opc := wordOpc o.word
  let t := wordTile o.word
  if opc = 0x180 ∨ opc = 0x182 then .ok ({ b with held := b.held ||| (1#8 <<< t) }.clearTile t)
  else if opc = 0x181 then .ok ({ b with held := b.held &&& ~~~(1#8 <<< t) }.clearTile t)
  else if opc = 0x183 then
    (o.corner b).map (fun rows => b.setTile t (withCorner (lldcElem (wordTy o.word) (decide (wordMod o.word 1 1 = 1))) (b.tile t) rows))
  else (o.operands b).map (fun p => b.setTile t (mmaTile (wordTy o.word) (decide (wordMod o.word 2 2 = 1)) (b.tile t) p.1 p.2))

/-- A drain's copy of the tile corner into the drain buffer; .free then frees the tile (R239, R242). -/
def State.drainCopy (s : State) (b : Block) (o : LoomOp) : State :=
  let t := wordTile o.word
  let free := if wordOpc o.word = 0x188 then wordMod o.word 2 2 = 1 else wordMod o.word 0 0 = 1
  let buf := mofList 0 0 (cornerOf (b.tile t) (cornerRows o.desc) (cornerCols o.desc))
  let s := s.modLoom b.bid o.id (fun x => { x with stage := .draining, buf := buf, row := 0 })
  if free then s.modBlk b.bid (fun b => { b with held := b.held &&& ~~~(1#8 <<< t) }.clearTile t) else s

/-- A LOPF at its place in Loom order: it writes the index stage once every earlier LMMG and LDRX has read it (R235, R236). -/
def State.lopfStep (s : State) (core : Nat) (b : Block) (o : LoomOp) : Option State :=
  let ahead := b.loomQ.filter (fun p => decide (p.iss < o.iss))
  let ka := dW o.desc 0
  let n := dW o.desc 1
  let bench := decide (wordMod o.word 0 0 = 1)
  if !s.mayRedo b.bid o.id || ahead.any (fun p => p.isLopf || (p.readsStage && decide (p.stage = .queued))) || (bench && s.engineHeld b.bid o.iss ka (4 * n) false) then none
  else if bench && b.benchPoisoned ka (4 * n) then some (s.loomFault core b o { cause := .eccUncorrectable, ea := ka })
  else
    let vals := if bench then (chunk 4 n (mrun 0 b.bench ka (4 * n))).map (fun l => BitVec.ofNat 32 (natOfBytes l)) else o.vals
    some ((s.modBlk b.bid (fun b => { b with idx := mputs 0xFFFFFFFF b.idx (4 * wordMod o.word 5 1) vals })).loomDone core b o)

/-- Whether an accepted operation has all it reads, in its turn within its block and in the array (R226, R231, R348). -/
def State.canComplete (s : State) (core : Nat) (b : Block) (o : LoomOp) : Bool :=
  o.live && s.loomTurn core == some o.turn && !(b.loomQ.any (fun p => decide (p.iss < o.iss) && !p.isLopf && decide (p.stage ≠ .draining))) && o.unread.isEmpty &&
    (decide (wordOpc o.word ≠ 0x186) || decide (o.stage = .granted)) && !o.benchReads.any (fun p => s.engineHeld b.bid o.iss p.1 p.2 false)

/-- LOOM_OPERATION_COMPLETE (R349): the first operation that can completes, and its flags are lowered; a drain is then in its store
phase. -/
def State.loomComplete (s : State) (core : Nat) : Option State :=
  firstSome (fun (p : Block × LoomOp) =>
    let b := p.1
    let o := p.2
    if o.isLopf then s.lopfStep core b o
    else if !s.canComplete core b o then none
    else if o.isDrain then some (s.drainCopy b o)
    else match o.result b with
      | .error f => some (s.loomFault core b o f (o.faultRow f))
      | .ok b1 => some ((s.modBlk b.bid (fun _ => b1)).loomDone core b o)) (s.loomOps core)

def execLoomOperationComplete (core : Nat) (s : State) : Host.Outcome State Fault Refusal := .next ((s.loomComplete core).getD s)

/-! ## The store phase (R239 to R242, R353) -/

/-- Row m of the drain buffer. -/
def LoomOp.bufRow (o : LoomOp) (m : Nat) : List W32 := mrun 0 o.buf (m * cornerCols o.desc) (cornerCols o.desc)

/-- The bytes that an LDRN stores for row m over the destination's old bytes. -/
def LoomOp.drainRow (o : LoomOp) (m : Nat) (old : Option (List Byte)) : List Byte :=
  let ty := wordTy o.word
  let eb := tyBytes ty
  let olds := (old.map (fun l => (chunk eb l.length l).map natOfBytes)).getD []
  (o.bufRow m).zipIdx.flatMap (fun p => bytesOf eb (ldrnElem ty (ldrnMode o.word o.desc o.key (128 * m + p.2)) (bitOf (dW o.desc 2) 24)
    p.1.toNat (if old.isSome then some ((olds[p.2]?).getD 0) else none)))

/-- An element of row m of a drain at an address: its number in the tile (R241). -/
def LoomOp.unitAt (o : LoomOp) (m ea : Nat) : Nat :=
  128 * m + (ea - cornerRow (decide (wordMod o.word 0 0 = 1)) o.desc m) / tyBytes (wordTy o.word)

/-- The row that a read of the destination failed in. -/
def LoomOp.rowAt (o : LoomOp) (ea : Nat) : Nat :=
  ((List.range (cornerRows o.desc)).find? (fun m =>
    let a := cornerRow (decide (wordMod o.word 0 0 = 1)) o.desc m
    decide (a ≤ ea) && decide (ea < a + cornerCols o.desc * tyBytes (wordTy o.word)))).getD 0

/-- An LDRN's store phase, whole (R240); a fault met in it names the element (R241). -/
def State.drainStore (s : State) (core : Nat) (b : Block) (o : LoomOp) : Option State :=
  let mem := decide (wordMod o.word 0 0 = 1)
  let add := decide (wordMod o.word 1 1 = 1)
  let ty := wordTy o.word
  let stores := cornerRuns mem false true ty o.desc
  let reads := if add then cornerRuns mem true false ty o.desc else []
  match s.prepare core b.bid o.iss (stores ++ reads) with
  | .wait => none
  | .again s => some s
  | .fail s f => some (s.loomFail core b o f)
  | .ok s ps =>
    match s.runsBytes (dieOf core) b.bid (reads.zip (ps.drop stores.length)) with
    | .error f => some (s.loomFault core b o f (o.unitAt (o.rowAt f.ea) f.ea))
    | .ok olds =>
      let s := (stores.zip ps).zipIdx.foldl (fun (s : State) (p : (Run × List Piece) × Nat) =>
        s.writeRun (o.source core b.bid (128 * p.2)) p.1.1 p.1.2 (o.drainRow p.2 (if add then olds[p.2]? else none)) (o.unitAt p.2)) (s.ownFrames b.bid ps.flatten)
      some (s.loomDone core b o)

/-- The slots of row m of an LDRX; none for an entry 0xFFFF_FFFF (R242). -/
def LoomOp.slotRun (o : LoomOp) (m : Nat) : Option Run :=
  match o.vals[m]? with
  | some v => if v = 0xFFFFFFFF then none
    else some (Run.slots ((dD o.desc 0 + v.toNat * cornerStride o.desc) % 2 ^ 64) (16 * cornerCols o.desc))
  | none => none

/-- The first used entry at or above LIM, as its row. -/
def LoomOp.badRow (o : LoomOp) : Option Nat :=
  (List.range (cornerRows o.desc)).find? (fun m => match o.vals[m]? with
    | some v => decide (v ≠ 0xFFFFFFFF) && decide (dW o.desc 6 ≤ v.toNat)
    | none => false)

/-- A step of an LDRX's store phase: the check of every entry, a row's addends, or the end once all are folded (R242). -/
def State.drainAdds (s : State) (core : Nat) (b : Block) (o : LoomOp) : Option State :=
  match (if o.row = 0 then o.badRow else none) with
  | some m =>
    some (s.loomFault core b o { cause := .indexBounds, info := ((o.vals[m]?).getD 0).toNat, info2 := dW o.desc 6 } m)
  | none =>
    if cornerRows o.desc ≤ o.row then
      (if s.addQ.any (fun d => d.src.op == o.id && d.src.bid == b.bid) then none else some (s.loomDone core b o))
    else
      let next := fun (s : State) => s.modLoom b.bid o.id (fun x => { x with row := o.row + 1 })
      match o.slotRun o.row with
      | none => some (next s)
      | some r => match s.prepare core b.bid o.iss [r] with
        | .wait => none
        | .again s => some s
        | .fail s f => some (s.loomFail core b o f o.row)
        | .ok s ps => some (next ((s.ownFrames b.bid ps.flatten).addRun (o.source core b.bid o.row) ps.flatten (o.bufRow o.row)))

/-- DRAIN_STORE_COMPLETE (R240, R242, R353): the store phase of the drain in the buffer, the one accepted or restored first, goes on, and at its end its
flag is lowered. A stopped block's drain is kept (R248). -/
def State.drainStep (s : State) (core : Nat) : Option State :=
  match leastBy (fun (p : Block × LoomOp) => p.2.turn) ((s.loomOps core).filter (fun p => p.2.isDrain && decide (p.2.turn ≠ 0) && s.goesOn p.1.bid p.2.iss)) with
  | none => none
  | some p =>
    if p.2.stage ≠ .draining ∨ s.mayRedo p.1.bid p.2.id = false then none
    else if wordOpc p.2.word = 0x188 then s.drainStore core p.1 p.2 else s.drainAdds core p.1 p.2

def execDrainStoreComplete (core : Nat) (s : State) : Host.Outcome State Fault Refusal := .next ((s.drainStep core).getD s)

/-- A step of a core's Loom. -/
def State.loomStep (s : State) (core : Nat) : Option State :=
  firstSome (fun f => f ()) [fun _ => s.drainStep core, fun _ => s.loomComplete core, fun _ => s.lineEntry core, fun _ => s.metaGrant core,
    fun _ => s.loomAccept core]

end Sys2Proof.Machine
end

