-- ==== Sys2Proof/Machine/Mxv.lean ====
section
/-! DEFINITION. The progress of MXV calls: the order behind the slice's earlier accesses, the dispatcher, segments on the Loom piece by piece, and
segments on the Mill with their forwarded block values (R243 to R248, R354 to R361). -/

namespace Sys2Proof.Machine

/-! ## Reading parts of rows -/

/-- Blocks g to g + n − 1 of row r of an operand. -/
structure MatPart where
  ty : Ty
  m  : MatSrc
  r  : Nat
  g  : Nat
  n  : Nat
  deriving DecidableEq, Repr

/-- The bytes of a block of 32 elements. -/
def blockBytes (ty : Ty) : Nat := if ty = .q4 then 18 else 32 * tyBytes ty

/-- The address of the first byte of a part. -/
def MatPart.addr (p : MatPart) : Nat := p.m.wrap (p.m.row p.r + blockBytes p.ty * p.g)

/-- The runs that a part takes: its blocks and its scale bytes. -/
def MatPart.runs (p : MatPart) : List Run :=
  Run.read p.m.mem p.addr (blockBytes p.ty * p.n) ::
    (if p.m.scaled then [Run.read p.m.mem (p.m.wrap (p.m.scales p.r + p.g)) p.n] else [])

/-- The blocks of a part from its bytes. -/
def MatPart.blocks (p : MatPart) (l : List (List Byte)) : Except Failure (List MatBlock) :=
  match rowBlocks p.ty (l.headD []) (if p.m.scaled then l[1]? else none) with
  | .error e => .error { cause := .badFormat, ea := p.m.wrap (p.addr + 18 * e.1), info := e.2 }
  | .ok bs => .ok bs

/-- The blocks of several parts from the bytes of their runs in order. -/
def splitParts : List MatPart → List (List Byte) → Except Failure (List (List MatBlock))
  | [], _ => .ok []
  | p :: l, bs => match p.blocks (bs.take p.runs.length) with
    | .error f => .error f
    | .ok x => match splitParts l (bs.drop p.runs.length) with
      | .error f => .error f
      | .ok xs => .ok (x :: xs)

/-- Several parts, and the bytes of some further runs, read for a call. -/
def State.readParts (s : State) (c : MxvCall) (die : Nat) (l : List MatPart) (more : List Run) : Did (List (List MatBlock) × List (List Byte)) :=
  let rs := l.flatMap MatPart.runs
  match s.prepare (s.blk c.bid).core c.bid c.iss (rs ++ more) with
  | .wait => .wait
  | .again s => .again s
  | .fail s f => .fail s f
  | .ok s ps => match s.runsBytes die c.bid ((rs ++ more).zip ps) with
    | .error f => .fail s f
    | .ok bs => match splitParts l bs with
      | .error f => .fail s f
      | .ok xs => .ok (s.ownFrames c.bid ps.flatten) (xs, bs.drop rs.length)

/-- The die whose acknowledged writes a Mill engine sees: none, its reads being at .dev (R355). -/
def millDie : Nat := 2

def MxvCall.w (c : MxvCall) (r g n : Nat) : MatPart := { ty := wordTy c.word, m := mxvW c.word c.desc, r := r, g := g, n := n }
def MxvCall.x (c : MxvCall) (b g n : Nat) : MatPart := { ty := mxvXTy c.word, m := mxvX c.word c.desc, r := b, g := g, n := n }
/-- The blocks of a row. -/
def MxvCall.kb (c : MxvCall) : Nat := bitsOf (dW c.desc 11) 15 0
/-- The batch rows of a call. -/
def MxvCall.batch (c : MxvCall) : List Nat := List.range (mxvBatch c.desc)
/-- Whether a pair of operands takes the window form: weights or activations of BF16 (R351). -/
def MxvCall.window (c : MxvCall) : Bool := windowTy (wordTy c.word) || windowTy (mxvXTy c.word)
/-- Whether results and priors stand in memory. -/
def MxvCall.ym (c : MxvCall) : Bool := decide (wordMod c.word 4 4 = 1)

/-- The runs of the prior values of rows. -/
def MxvCall.priors (c : MxvCall) (first n : Nat) : List Run := (mxvYRuns c.word c.desc first n).map (fun p => Run.read c.ym p.1 p.2)

/-- A prior value: row k of the rows read, batch row b. -/
def priorOf (l : List (List Byte)) (b k : Nat) : Nat :=
  match l[b]? with
  | some bs => natOfBytes ((bs.drop (4 * k)).take 4)
  | none => 0

/-! ## Faults and ends -/

/-- The source that names a call's writes. -/
def MxvCall.source (c : MxvCall) (core unit : Nat) : Source :=
  { Source.blank with core := core, bid := c.bid, slice := c.slice, seq := c.seq, op := c.id, flag := c.tok.flag, pc := c.pc, word := c.word,
                      unit := unit }

/-- A call ends, its writes performed at .dev (R305), and its flag is lowered. -/
def State.mxvDone (s : State) (c : MxvCall) : State :=
  ({ s with mxvs := s.mxvs.filter (fun y => y.id != c.id) } : State).lower c.bid c.tok.slice c.tok.flag

/-- A failing check of a call: an absent page keeps it and suspends the block, a segment on the Mill to be begun again; any other failure is the
slice's deferred trap (R248, R249, R334). -/
def State.mxvFail (s : State) (c : MxvCall) (f : Failure) : State :=
  if f.cause = .pageAbsent then
    (s.modMxv c.id (fun y => { y with seg := y.seg.bind (fun g => if g.mill then none else some g), absent := true })).suspend c.bid c.slice 0 c.pc c.word f
  else (s.deferAt (c.source (s.blk c.bid).core 0) f.cause 0 f.ea f.info f.info2).mxvDone c

/-! ## The dispatcher (R359, R360; log entry 24) -/

/-- Whether a line is in the L2 of a die or in the L3. -/
def State.onChip (s : State) (die : Nat) (line kid : Nat) : Bool :=
  (s.l3Find line kid).isSome || s.l2.any (fun x => decide (x.sl / 16 = die) && x.line == line && x.kid == kid)

/-- A field of the dispatcher registers at the call's issue. -/
def MxvCall.reg (c : MxvCall) (n hi : Nat) : Nat := bitsOf ((c.regs[n]?).getD 0).toNat hi 0

/-- The placement by the dispatcher's tests on the sample lines: true for the Mill. A controller's queue is at most 64 deep (R358). -/
def State.chooseMill (s : State) (c : MxvCall) (ps : List Piece) : Bool :=
  let res := (ps.filter (fun p => s.onChip (dieOf (s.blk c.bid).core) (lineOf p.pa) p.ext.kid)).length
  if ps.any (fun p => isPeer p.pa) then false
  else if c.reg 1 2 ≤ res then false
  else decide (min 64 (Config.freeQueueDepth s.free).toNat ≤ c.reg 2 7)

/-- A placement taken: MXVP reads it from now on, unless a later MXV of the slice has been decided (R247). -/
def State.place (s : State) (c : MxvCall) (mill forced : Bool) : State :=
  let v : Nat := (if mill then 2 else 1) + boolBit forced 2
  { (s.modMxv c.id (fun y => { y with stage := 3, mill := mill })).modSl c.bid c.slice (fun sl =>
      if c.seq < sl.mxpSeq then sl else { sl with mxp := BitVec.ofNat 3 v, mxpSeq := c.seq }) with
    free := s.free + 1 }

/-- Whether a sample line waits for a translation, and the absent page that keeps the call (R334). -/
def Failure.waiting {α : Type} (r : Except Failure α) : Bool := match r with
  | .error f => f.held
  | .ok _ => false
def Failure.missing {α : Type} (r : Except Failure α) : Option Failure := match r with
  | .error f => if f.cause = .pageAbsent then some f else none
  | .ok _ => none

/-- The dispatcher decides a call. A sample line that another check fails for is none on chip: the call is placed, and fails where it reads the row. -/
def State.dispatch (s : State) (c : MxvCall) : Option State :=
  let p := wordMod c.word 1 0
  if p = 1 then some (s.place c false true)
  else if p = 2 then some (s.place c true true)
  else if c.reg 0 3 < mxvBatch c.desc then some (s.place c false false)
  else
    let n := mxvRows c.desc
    let runs := (List.range 4).map (fun i => Run.read true ((c.w (n * i / 4) 0 1).addr) 1)
    let samples := runs.map (fun r => (s.reachFor c.bid c.iss [r]).2)
    if samples.any Failure.waiting then none
    else match firstSome Failure.missing samples with
      | some f => some (s.mxvFail c f)
      | none =>
        let s1 := runs.foldl (fun (s : State) r => (s.reachFor c.bid c.iss [r]).1) s
        some (s1.place c (s1.chooseMill c (samples.flatMap (fun r => match r with
          | .ok ps => ps.flatten
          | .error _ => []))) false)

/-! ## Segments (R244, R246, R354, R357) -/

/-- The private accumulator's element of row k, batch row b. -/
def accKey (k b : Nat) : Nat := 8 * k + b
/-- Whether a call adds to prior values. -/
def MxvCall.acc (c : MxvCall) : Bool := decide (wordMod c.word 5 5 = 1)
/-- Whether a segment's block values wait for the priors. -/
def MxvSeg.late (g : MxvSeg) (c : MxvCall) : Bool := c.acc && !g.primed

/-- A running sum after block values in ascending order, each added by one rounding (R86). -/
def addBlocks (prior : Nat) (l : List W32) : Nat := l.foldl (fun acc v => accBlock acc v.toNat) prior

/-- A segment with further block values, those of row k and batch row b being `v k b`: added, or kept until the priors are read. -/
def MxvSeg.take (g : MxvSeg) (c : MxvCall) (v : Nat → Nat → List W32) : MxvSeg :=
  let n := g.last + 1 - g.first
  let pairs := (List.range n).flatMap (fun k => (List.range 8).map (fun b => (k, b)))
  if g.late c then { g with blks := pairs.map (fun p => (g.blks[accKey p.1 p.2]?).getD [] ++ v p.1 p.2) }
  else { g with acc := mofList 0 0 (pairs.map (fun p => BitVec.ofNat 32 (addBlocks (mget 0 g.acc (accKey p.1 p.2)).toNat (v p.1 p.2)))) }

/-- The result of row k, batch row b, from the bytes of the priors where they are still to be added. -/
def MxvSeg.value (g : MxvSeg) (c : MxvCall) (ys : List (List Byte)) (k b : Nat) : W32 :=
  if g.late c then BitVec.ofNat 32 (addBlocks (priorOf ys b k) ((g.blks[accKey k b]?).getD [])) else mget 0 g.acc (accKey k b)

/-- A segment whose accumulator has taken the priors in. -/
def MxvSeg.prime (g : MxvSeg) (c : MxvCall) (ys : List (List Byte)) : MxvSeg :=
  { g with primed := true, blks := [],
           acc := mofList 0 0 ((List.range (g.last + 1 - g.first)).flatMap (fun k => (List.range 8).map (fun b =>
             if b < mxvBatch c.desc then g.value c ys k b else 0))) }

/-- A finished segment's results stored, its priors read just before, and the call advanced to the next rows. -/
def State.storeResults (s : State) (c : MxvCall) (g : MxvSeg) : Option State :=
  let n := g.last + 1 - g.first
  let core := (s.blk c.bid).core
  let runs := (mxvYRuns c.word c.desc g.first n).map (fun p => Run.store c.ym p.1 p.2)
  let reads := if g.late c then c.priors g.first n else []
  match s.prepare core c.bid c.iss (runs ++ reads) with
  | .wait => none
  | .again s => some s
  | .fail s f => some (s.mxvFail c f)
  | .ok s ps => match s.runsBytes (dieOf core) c.bid (reads.zip (ps.drop runs.length)) with
    | .error f => some (s.mxvFail c f)
    | .ok ys =>
      let s := (runs.zip ps).zipIdx.foldl (fun (s : State) (p : (Run × List Piece) × Nat) =>
        s.writeRun (c.source core g.first) p.1.1 p.1.2 ((List.range n).flatMap (fun k => bytesOf 4 (g.value c ys k p.2).toNat))) (s.ownFrames c.bid ps.flatten)
      some (s.modMxv c.id (fun y => { y with rows := g.last + 1, seg := none, xwin := if y.kb ≤ 256 then y.xwin else none }))

/-- The value of a block pair of a call. -/
def MxvCall.blockOf (c : MxvCall) (w x : MatBlock) : W32 := BitVec.ofNat 32 (blockValue c.window w.1 x.1 (w.2.zip x.2))

/-! ## The Loom (R354) -/

/-- A piece of 256 K-elements over the rows of a segment. -/
def State.loomPiece (s : State) (c : MxvCall) (g : MxvSeg) : Option State :=
  let n := g.last + 1 - g.first
  let g0 := g.kpos / 32
  let m := min 8 (c.kb - g0)
  let parts := (List.range n).map (fun k => c.w (g.first + k) g0 m) ++ c.batch.map (fun b => c.x b g0 m)
  match s.readParts c (dieOf (s.blk c.bid).core) parts [] with
  | .wait => none
  | .again s => some s
  | .fail s f => some (s.mxvFail c f)
  | .ok s (bs, _) =>
    let v := fun (k b : Nat) => match bs[n + b]? with
      | some x => (((bs[k]?).getD []).zip x).map (fun p => c.blockOf p.1 p.2)
      | none => []
    some (s.modMxv c.id (fun y => { y with seg := some { g.take c v with kpos := g.kpos + 256 } }))

/-- The priors of a segment stopped between pieces read, so that its accumulator can be saved (R248; log entry 65). -/
def State.primeSeg (s : State) (c : MxvCall) (g : MxvSeg) : Option State :=
  match s.readParts c (dieOf (s.blk c.bid).core) [] (c.priors g.first (g.last + 1 - g.first)) with
  | .wait => none
  | .again s => some s
  | .fail s f => some (s.mxvFail c f)
  | .ok s (_, ys) => some (s.modMxv c.id (fun y => { y with seg := some (g.prime c ys) }))

/-- A step of an accepted segment on the Loom in its turn: its next piece, or its results. A stopped block's segment is kept between pieces (R248). -/
def State.loomSegment (s : State) (c : MxvCall) (g : MxvSeg) : Option State :=
  if !s.goesOn c.bid c.iss then
    (if c.absent then none
      else if 32 * c.kb ≤ g.kpos then s.storeResults c g
      else if g.late c && g.kpos != 0 then s.primeSeg c g else none)
  else if s.loomTurn (s.blk c.bid).core ≠ some g.turn then none
  else if 32 * c.kb ≤ g.kpos then s.storeResults c g
  else s.loomPiece c g

/-! ## The Mill (R355 to R357) -/

/-- The bank engine beside the controller of block k of a row, which holds the block's first byte: none where its page does not translate. -/
def State.bankOf (s : State) (c : MxvCall) (r k : Nat) : Option Nat :=
  match (s.reachFor c.bid c.iss [Run.read true (c.w r k 1).addr 1]).2 with
  | .error _ => none
  | .ok ps => ps.flatten.head?.map (fun p => chanOf p.pa)

/-- The blocks of an activation window: 8,192 K-elements. -/
def MxvCall.windowN (c : MxvCall) (g : MxvSeg) : Nat := min 256 (c.kb - g.kpos / 32)
/-- The activations of the segment's window. -/
def MxvCall.xparts (c : MxvCall) (g : MxvSeg) : List MatPart := c.batch.map (fun b => c.x b (g.kpos / 32) (c.windowN g))

/-- The bytes of a window that the buffers hold. -/
def MxvCall.windowBytes (c : MxvCall) : Nat := (c.xwin.map (fun w => sumNat (w.2.map (fun l => l.length)))).getD 0
/-- Whether a call is within a window, whose blocks its engines still add. -/
def MxvCall.inWindow (c : MxvCall) : Bool := c.xwin.isSome && (c.seg.map (fun g => g.mill && decide (g.kpos < 32 * c.kb))).getD false

/-- Room for n bytes of activations in the 136 KiB of every buffer beside the windows of other calls under way; those kept for a call's further segments give
way (R5, R357; log entry 115). -/
def State.windowRoom (s : State) (id n : Nat) : Bool :=
  decide (sumNat ((s.mxvs.filter (fun c => c.id != id && c.inWindow && decide ((s.blk c.bid).loc ≠ .saved))).map MxvCall.windowBytes) + n ≤ 136 * 1024)
def State.makeWindow (s : State) (id n : Nat) : State :=
  if sumNat ((s.mxvs.filter (fun c => c.id != id)).map MxvCall.windowBytes) + n ≤ 136 * 1024 then s
  else { s with mxvs := s.mxvs.map (fun c => if c.id = id ∨ c.inWindow then c else { c with xwin := none }) }

/-- The activation window read once by the distributor and multicast to the buffers, once they have room. -/
def State.millWindow (s : State) (c : MxvCall) (g : MxvSeg) : Option State :=
  let rs := (c.xparts g).flatMap MatPart.runs
  let n := sumNat (rs.map (fun r => r.n))
  if !s.windowRoom c.id n then none
  else match s.prepare (s.blk c.bid).core c.bid c.iss rs with
  | .wait => none
  | .again s => some s
  | .fail s f => some (s.mxvFail c f)
  | .ok s ps => match s.runsBytes millDie c.bid (rs.zip ps) with
    | .error f => some (s.mxvFail c f)
    | .ok bs => some (((s.ownFrames c.bid ps.flatten).makeWindow c.id n).modMxv c.id (fun y => { y with xwin := some (g.kpos / 32, bs) }))

/-- The activation blocks of the window that the buffers hold, batch row by batch row. -/
def MxvCall.held (c : MxvCall) (g : MxvSeg) : Option (Except Failure (List (List MatBlock))) :=
  match c.xwin with
  | some (k, bs) => if k = g.kpos / 32 then some (splitParts (c.xparts g) bs) else none
  | none => none

/-- The values of block k of a row for every batch row, from its weights. -/
def MxvCall.millValue (c : MxvCall) (g : MxvSeg) (xs : List (List MatBlock)) (k : Nat) (w : MatBlock) : List W32 :=
  xs.map (fun x => c.blockOf w ((x[k - g.kpos / 32]?).getD (scaleOne, [])))

/-- The row whose block values its owner takes next. -/
def MxvSeg.row (g : MxvSeg) : Nat := g.first + g.taken
/-- Whether the owner has the value of a block of the row. -/
def MxvSeg.has (g : MxvSeg) (k : Nat) : Bool := g.fwd.any (fun v => v.1 == (g.row, k))

/-- The value of block k of the row computed by its engine and taken to the row's owner: with one row at a time, what an engine owes an owner stays within the
8 KiB reserved for it (R357). -/
def State.millBlock (s : State) (c : MxvCall) (g : MxvSeg) (xs : List (List MatBlock)) (k : Nat) : Did Unit :=
  match s.readParts c millDie [c.w g.row k 1] [] with
  | .wait => .wait
  | .again s => .again s
  | .fail s f => .fail s f
  | .ok s (bs, _) =>
    .ok (s.modMxv c.id (fun y => { y with seg := y.seg.map (fun h =>
      { h with fwd := h.fwd ++ [((g.row, k), c.millValue g xs k ((bs.headD []).headD (scaleOne, [])))] }) })) ()

/-- MILL_BLOCK_FORWARD (R356, R357): a bank engine sends the value of its next block of the row, block k, to the row's owner, another engine. -/
def State.millForward (s : State) (id r k : Nat) : Option State :=
  match s.mxvs.find? (fun c => c.id == id) with
  | none => none
  | some c => match c.seg with
    | none => none
    | some g =>
      if !g.mill || r != g.row || g.last < r || k < g.kpos / 32 || g.kpos / 32 + c.windowN g ≤ k || g.has k ||
        decide ((s.blk c.bid).loc = .saved) || c.absent || s.bankOf c r k == s.bankOf c r 0 ||
        (List.range (k - g.kpos / 32)).any (fun i => !g.has (g.kpos / 32 + i) && s.bankOf c r (g.kpos / 32 + i) == s.bankOf c r k) then none
      else match c.held g with
        | none => none
        | some (.error f) => some (s.mxvFail c f)
        | some (.ok xs) => match s.millBlock c g xs k with
          | .wait => none
          | .again s => some s
          | .fail s f => some (s.mxvFail c f)
          | .ok s () => some s

def execMillBlockForward (id r k : Nat) (s : State) : Host.Outcome State Fault Refusal := .next ((s.millForward id r k).getD s)

/-- The blocks of the row from k on that its owner lacks, taken in ascending order as far as they go; `first` says that none has been. -/
def State.millRow (s : State) (c : MxvCall) (g : MxvSeg) (xs : List (List MatBlock)) (first : Bool) (k : Nat) : Nat → Option State
  | 0 => some s
  | n + 1 =>
    if g.has k then s.millRow c g xs first (k + 1) n
    else match s.millBlock c g xs k with
      | .wait => if first then none else some s
      | .again s => some s
      | .fail s f => some (s.mxvFail c f)
      | .ok s () => s.millRow c g xs false (k + 1) n

/-- A row's values of a window added by its owner in ascending order (R86, R356); with its last row the window is done. -/
def MxvSeg.addRow (g : MxvSeg) (c : MxvCall) : MxvSeg :=
  let vals := fun (k b : Nat) => if k = g.taken then (List.range (c.windowN g)).map (fun i =>
      match g.fwd.find? (fun v => v.1 == (g.row, g.kpos / 32 + i)) with
      | some v => (v.2[b]?).getD 0
      | none => 0) else []
  let g1 := { g.take c vals with fwd := [], taken := g.taken + 1 }
  if g.last < g.row + 1 then { g1 with kpos := g.kpos + 8192, taken := 0 } else g1

/-- A step of a segment on the Mill: window by window and row by row, the activations are read, the row's blocks are taken in ascending order, and the owner adds
them; then the rows complete. -/
def State.millSegment (s : State) (c : MxvCall) (g : MxvSeg) : Option State :=
  if c.absent then none
  else if 32 * c.kb ≤ g.kpos then s.storeResults c g
  else match c.held g with
    | none => s.millWindow c g
    | some (.error f) => some (s.mxvFail c f)
    | some (.ok xs) =>
      if (List.range (c.windowN g)).all (fun i => g.has (g.kpos / 32 + i)) then some (s.modMxv c.id (fun y => { y with seg := some (g.addRow c) }))
      else s.millRow c g xs true (g.kpos / 32) (c.windowN g)

/-! ## A call's step -/

/-- Whether the accesses of the slice issued before a call are all performed (R246). -/
def State.mxvAfter (s : State) (c : MxvCall) : Bool :=
  !(s.sl c.bid c.slice).mops.any (fun m => decide (m.iss < c.iss) && m.kind.memory) && !s.signPending c.bid c.iss

/-- A step of a call, none where it waits. -/
def State.mxvStep (s : State) (c : MxvCall) : Option State :=
  let b := s.blk c.bid
  match b.loc with
  | .saved => none
  | .resident core => match c.seg with
    | some g => if g.mill then s.millSegment c g else s.loomSegment c g
    | none =>
      if s.mayRedo c.bid c.id = false then none
      else if mxvRows c.desc ≤ c.rows then (if s.l2w.any (fun w => w.src.op == c.id && w.src.bid == c.bid) then none else some (s.mxvDone c))
      else if !s.goesOn c.bid c.iss then none
      else if c.stage = 0 then
        (if s.mxvAfter c then
          let s := s.l1Release core
          some (s.modMxv c.id (fun y => { y with stage := 1, bar := s.nextId }))
        else none)
      else if c.stage = 1 then
        (if !s.released core 3 c.bar then none
          else some ((s.drainUnits (s.sl c.bid c.slice).tsm).modMxv c.id (fun y => { y with stage := 2 })))
      else if c.stage = 2 then s.dispatch c
      else if c.mill then some (s.modMxv c.id (fun y => { y with seg := some (y.segment true) }))
      else none

/-- MXV_SEGMENT_COMPLETE (R354): a call goes one step further towards the completion of its segment's rows; with its last row its flag
is lowered. -/
def execMxvSegmentComplete (id : Nat) (s : State) : Host.Outcome State Fault Refusal :=
  match s.mxvs.find? (fun c => c.id == id) with
  | some c => .next ((s.mxvStep c).getD s)
  | none => .next s

end Sys2Proof.Machine
end

