-- ==== Sys2Proof/Machine/Surveyor.lean ====
section
/-! DEFINITION. The Surveyor: tables and their hash entries, its eight commands at issue, and their units (R263 to R271, R370 to R374, R431). -/

namespace Sys2Proof.Machine

/-! ## Table words (R263) -/

def twTid (tw : Nat) : Nat := bitsOf tw 3 0
def twSz (tw : Nat) : Nat := bitsOf tw 15 8

/-- The reserved bits of a table word; SZ belongs to SVCLR's alone. -/
def twBad (tw : Nat) (clear : Bool) : Bool := decide (2 ^ 16 ≤ tw) || decide (bitsOf tw 7 6 ≠ 0) || (!clear && decide (twSz tw ≠ 0))

/-! ## Tables (R263, R371 to R374) -/

def Table.nv (t : Table) : Nat := t.voxels.length

/-- The table of a partition that a word names. -/
def State.table (s : State) (part tw : Nat) : Option Table :=
  ((s.tables[unitOf tw]?).getD []).find? (fun t => t.part == part && t.tid == twTid tw)
def State.modTable (s : State) (part tw : Nat) (f : Table → Table) : State :=
  { s with tables := updAt (fun l => updFirst (fun t => t.part == part && t.tid == twTid tw) f l) (unitOf tw) s.tables }

/-- A table of one block with nothing in it. -/
def Table.blank : Table :=
  { part := 0, tid := 0, blocks := [0], ents := [], voxels := [], g := 0, vab := 0, vmax := 0, srb := 0, dropped := 0, cache := [], adder := none }

/-- What a probe sequence finds (R372). -/
inductive Look where
  | voxel (v : Nat)
  | absent (slot : Nat)
  | noRoom
  deriving DecidableEq, Repr

/-- The hash entries of a table. -/
def Table.size (t : Table) : Nat := 4096 * t.blocks.length

/-- The probes from entry i on. -/
def Table.probeFrom (t : Table) (k : W64) (i : Nat) : Nat → Look
  | 0 => .noRoom
  | fuel + 1 => match t.ents.lookup (i % t.size) with
    | none => .absent (i % t.size)
    | some e => if e.key = k then .voxel e.idx else t.probeFrom k (i + 1) fuel

/-- The probe sequence of a key (R372). -/
def Table.look (t : Table) (k : W64) : Look := t.probeFrom k ((mGen k 0x5356).toNat * t.size / 2 ^ 32) 256

/-- Whether a new key may be inserted where its probe ended (R373). -/
def Table.mayInsert (t : Table) : Look → Option Nat
  | .absent slot => if t.nv = t.vmax ∨ 7 * t.size / 8 < t.nv + 1 then none else some slot
  | _ => none

/-- A voxel added at an entry. -/
def Table.add (t : Table) (slot : Nat) (k : W64) (adder : Nat × Nat) : Table :=
  { t with ents := t.ents ++ [(slot, { key := k, idx := t.nv })], voxels := t.voxels ++ [k], adder := some adder }

/-- The status record (R263). -/
def Table.status (t : Table) : List Byte := bytesOf 4 t.nv ++ bytesOf 4 t.g ++ bytesOf 4 t.dropped ++ bytesOf 4 0

/-- A generation passed: the map cache is emptied (R374). -/
def Table.bump (t : Table) : Table := { t with g := (t.g + 1) % 2 ^ 32, cache := [] }

/-- A voxel record (R263). -/
def voxRec (x y z : Int) (batch : Nat) : W64 :=
  BitVec.ofNat 64 (wrapTo 16 x + 2 ^ 16 * wrapTo 16 y + 2 ^ 32 * wrapTo 16 z + 2 ^ 48 * (batch % 2 ^ 16))
/-- Coordinate n of a record, and its batch. -/
def voxAt (k : W64) (n : Nat) : Int := signedOf 16 (bitsOf k.toNat (16 * n + 15) (16 * n))
def voxBatch (k : W64) : Nat := bitsOf k.toNat 63 48
/-- Whether a coordinate fits a record. -/
def voxFits (x : Int) : Bool := decide (-32768 ≤ x) && decide (x ≤ 32767)

/-! ## Checks at issue (R253, R264 to R271) -/

/-- Whether an FP32 operand is finite. -/
def finite32 (x : Nat) : Bool := match Fmt.f32.decode x with
  | .fin _ _ _ => true
  | _ => false
/-- Whether an FP32 operand is finite and positive. -/
def positive32 (x : Nat) : Bool := match Fmt.f32.decode x with
  | .fin n m _ => !n && decide (0 < m)
  | _ => false

def Ctx.svptTrap (x : Ctx) (s : State) (i : Nat) (d : List W32) : Option Trap :=
  let br := bitsOf (dW d 3) 7 0 + 1
  let ac := bitsOf (dW d 3) 19 8 + 1
  let rst := bitsOf (dW d 2) 23 0
  firstTrapOf [
    x.badField i (nonzeroAt d [(2, 0xFF000000), (3, 0xFC000000), (13, 0xFFFFFFFF), (14, 0xFFFFFFFF), (15, 0xFFFFFFFF)]),
    x.badField i (failsAt [(12, twBad (dW d 12) false || twTid (dW d 12) != 0)]),
    x.misaligned i (dD d 0) [(dW d 0, 8), (rst, 8)], x.misaligned i (dD d 8) [(dW d 8, 16)], x.misaligned i (dD d 10) [(dW d 10, 16)],
    x.runTraps s i ((List.range br).map (fun b => Run.read true (dD d 0 + b * rst) (8 * ac))),
    x.runTraps s i [Run.read true (dD d 4) (8 * br), Run.read true (dD d 6) (8 * ac), Run.read true (dD d 8) (64 * (bitsOf (dW d 3) 25 20 + 1)),
      Run.store true (dD d 10) (16 * br * ac)]]

def Ctx.svvoxTrap (x : Ctx) (s : State) (i : Nat) (d : List W32) : Option Trap :=
  let np := dW d 1
  let pmap := x.mod 0 0 == 1
  firstTrapOf [
    x.badField i (nonzeroAt d [(10, 0xFFFF0000), (11, 0xFFFFFFFF), (14, 0xFFFFFFFF), (15, 0xFFFFFFFF)]),
    x.badField i (failsAt [
      (0, twBad (dW d 0) false), (1, np == 0 || decide (2 ^ 24 < np)), (4, !positive32 (dW d 4)), (5, !positive32 (dW d 5)),
      (6, !positive32 (dW d 6)), (7, !finite32 (dW d 7)), (8, !finite32 (dW d 8)), (9, !finite32 (dW d 9)), (12, !pmap && dW d 12 != 0),
      (13, !pmap && dW d 13 != 0)]),
    x.misaligned i (dD d 2) [(dW d 2, 16)], x.misaligned i (dD d 12) [(dW d 12, 4)],
    x.runTraps s i (Run.read true (dD d 2) (16 * np) :: (if pmap then [Run.store true (dD d 12) (4 * np)] else []))]

def Ctx.svqryTrap (x : Ctx) (s : State) (i : Nat) (d : List W32) : Option Trap :=
  firstTrapOf [
    x.badField i (nonzeroAt d [(6, 0xFFFFFFFF), (7, 0xFFFFFFFF)]), x.badField i (failsAt [(0, twBad (dW d 0) false)]),
    x.misaligned i (dD d 2) [(dW d 2, 8)], x.misaligned i (dD d 4) [(dW d 4, 4)],
    x.runTraps s i [Run.read true (dD d 2) (8 * dW d 1), Run.store true (dD d 4) (4 * dW d 1)]]

/-- Fields of SVNBR. -/
def nbrKo (d : List W32) : Nat := bitsOf (dW d 2) 8 0
def nbrDil (d : List W32) : Int := (bitsOf (dW d 2) 23 16 : Nat)
def nbrStr (d : List W32) : Int := (bitsOf (dW d 2) 31 24 : Nat)

def Ctx.svnbrTrap (x : Ctx) (s : State) (i : Nat) (d : List W32) : Option Trap :=
  let sub := x.mod 0 0 == 1
  let csr := x.mod 1 1 == 1
  let ko := nbrKo d
  firstTrapOf [
    x.badField i (nonzeroAt d [(2, 0x0000FE00), (12, 0xFFFFFFFF), (13, 0xFFFFFFFF), (14, 0xFFFFFFFF), (15, 0xFFFFFFFF)]),
    x.badField i (failsAt [
      (0, twBad (dW d 0) false), (1, if sub then dW d 1 != 0 else twBad (dW d 1) false),
      (2, ko == 0 || decide (343 < ko) || nbrDil d == 0 || nbrStr d == 0 || (sub && decide (1 < nbrStr d)))]),
    x.misaligned i (dD d 6) [(dW d 6, 8), (dW d 8, 8)],
    x.runTraps s i [Run.read true (dD d 4) (8 * ko), Run.store true (dD d 10) (if csr then 4 else 4 * ko),
      Run.store true (dD d 6) (if csr then dW d 8 + 8 * dW d 9 else (ko - 1) * dW d 8 + 8 * dW d 9)]]

def Ctx.svdwnTrap (x : Ctx) (_ : State) (i : Nat) (d : List W32) : Option Trap :=
  firstTrapOf [
    x.badField i (nonzeroAt d [(2, 0xFFFFFF00), (3, 0xFFFFFFFF), (6, 0xFFFFFFFF), (7, 0xFFFFFFFF)]),
    x.badField i (failsAt [(0, twBad (dW d 0) false), (1, twBad (dW d 1) false), (2, dW d 2 == 0)]),
    x.misaligned i (dD d 4) [(dW d 4, 4)]]

def Ctx.svmapTrap (x : Ctx) (_ : State) (i : Nat) (d : List W32) : Option Trap :=
  firstTrapOf [x.badField i (nonzeroAt d [(2, 0xFFFE0000)]), x.badField i (failsAt [(0, twBad (dW d 0) false)])]

def Ctx.svclrTrap (x : Ctx) (s : State) (i : Nat) (d : List W32) : Option Trap :=
  firstTrapOf [
    x.badField i (nonzeroAt d [(1, 0xFFFFFFFF), (7, 0xFFFFFFFF)]),
    x.badField i (failsAt [(0, twBad (dW d 0) true || twSz (dW d 0) == 0 || decide (128 < twSz (dW d 0))),
      (6, dW d 6 == 0 || decide (2 ^ 24 < dW d 6))]),
    x.misaligned i (dD d 2) [(dW d 2, 8)], x.misaligned i (dD d 4) [(dW d 4, 16)],
    x.runTraps s i [Run.store true (dD d 2) (8 * dW d 6), Run.store true (dD d 4) 16]]

/-- The runs of memory that a Surveyor command's descriptor lets it read (R255). -/
def surveyorSpans (opc : Nat) (d : List W32) : List Span :=
  let rd := fun (lo n : Nat) => ({ mem := true, lo := lo, n := n, write := false } : Span)
  if opc = 0x1C6 then
    let br := bitsOf (dW d 3) 7 0 + 1
    let ac := bitsOf (dW d 3) 19 8 + 1
    [rd (dD d 0) ((br - 1) * bitsOf (dW d 2) 23 0 + 8 * ac), rd (dD d 4) (8 * br), rd (dD d 6) (8 * ac), rd (dD d 8) (64 * (bitsOf (dW d 3) 25 20 + 1))]
  else if opc = 0x1C7 then [rd (dD d 2) (16 * dW d 1)]
  else if opc = 0x1C8 then [rd (dD d 2) (8 * dW d 1)]
  else if opc = 0x1C9 then [rd (dD d 4) (8 * nbrKo d)]
  else []

/-- A Surveyor command at issue: it goes to the unit of its table word. -/
def surveyorIssue (key : Nat) (f : FormR) (chk : Ctx → State → Nat → List W32 → Option Trap)
    (desc : Ctx → State → Nat → List W32 := fun x s i => x.descriptor s i) : State → Host.Outcome State Fault Refusal :=
  engIssue key f chk (fun x s i _ => .surveyor (unitOf (x.tableWord s i))) (fun x _ d => surveyorSpans x.key d) desc

/-- SVPT (R266). -/
def execSvpt (f : FormR) : State → Host.Outcome State Fault Refusal := surveyorIssue 0x1C6 f Ctx.svptTrap
/-- SVVOX (R267). -/
def execSvvox (f : FormR) : State → Host.Outcome State Fault Refusal := surveyorIssue 0x1C7 f Ctx.svvoxTrap
/-- SVQRY (R268). -/
def execSvqry (f : FormR) : State → Host.Outcome State Fault Refusal := surveyorIssue 0x1C8 f Ctx.svqryTrap
/-- SVNBR (R269). -/
def execSvnbr (f : FormR) : State → Host.Outcome State Fault Refusal := surveyorIssue 0x1C9 f Ctx.svnbrTrap
/-- SVDWN (R270). -/
def execSvdwn (f : FormR) : State → Host.Outcome State Fault Refusal := surveyorIssue 0x1CA f Ctx.svdwnTrap
/-- SVFREE (R264): the table word is operand a. -/
def execSvfree (f : FormR) : State → Host.Outcome State Fault Refusal :=
  surveyorIssue 0x1CC f (fun x _ i d => x.badField i (failsAt [(0, twBad (dW d 0) false)])) (fun x s i => [BitVec.ofNat 32 (x.tableWord s i)])
/-- SVCLR (R264). -/
def execSvclr (f : FormR) : State → Host.Outcome State Fault Refusal := surveyorIssue 0x1CD f Ctx.svclrTrap

/-- SVMAP (R271). -/
def execSvmap (f : FormR) : State → Host.Outcome State Fault Refusal :=
  issueTry 0x1CB (.r f) (fun x s => firstSome (fun i => x.svmapTrap s i (x.descriptor s i)) (x.inEffect s))
    (fun x s => (x.inEffect s).foldl (fun acc i =>
      x.askCmd s acc i (.surveyor (unitOf (dW (x.descriptor s i) 0))) (x.descriptor s i) 2 0) s)

/-! ## Units -/

/-- The die of a unit. -/
def svDie (u : Nat) : Nat := u / 2
/-- The unit of a command. -/
def EngCmd.unit (c : EngCmd) : Nat := match c.eng with
  | .surveyor u => u
  | .crier u => u
  | .dray _ => 0
def EngCmd.tw (c : EngCmd) : Nat := dW c.desc 0
/-- The word of the table that a command inserts into. -/
def EngCmd.outTw (c : EngCmd) : Nat := if wordOpc c.word = 0x1C9 ∨ wordOpc c.word = 0x1CA then dW c.desc 1 else dW c.desc 0

/-- The partition of a command's block. -/
def State.cmdPart (s : State) (c : EngCmd) : Nat := (s.blk c.bid).part
/-- The table that a command reads, and the one it inserts into. -/
def State.inTable (s : State) (c : EngCmd) : Table := (s.table (s.cmdPart c) c.tw).getD Table.blank
def State.outTable (s : State) (c : EngCmd) : Table := (s.table (s.cmdPart c) c.outTw).getD Table.blank

/-- Whether a command inserts into a table (R282). -/
def EngCmd.inserts (c : EngCmd) : Bool :=
  wordOpc c.word == 0x1C7 || wordOpc c.word == 0x1CA || (wordOpc c.word == 0x1C9 && wordMod c.word 0 0 == 0)

/-- The failures with which a command ends at unit 0 before it begins: a missing table (R264), the map of SVDWN (R270) and DET_ATOMIC (R282). -/
def State.svBeginFailure (s : State) (c : EngCmd) : Option Failure :=
  let opc := wordOpc c.word
  let part := s.cmdPart c
  let b := s.blk c.bid
  if opc = 0x1C6 ∨ opc = 0x1CD then none
  else if (s.table part c.tw).isNone then some { cause := .badFormat, info := 0 }
  else if c.inserts ∧ (s.table part c.outTw).isNone then some { cause := .badFormat, info := 1 }
  else
    match (if opc = 0x1CA then s.rangeFailure c.bid false true
        (rangeSegs (s.launch c.bid).ranges (dD c.desc 4) (4 * (s.inTable c).nv)) else none) with
    | some f => some f
    | none => match (s.outTable c).adder with
      | some (bid, gid) => if c.inserts ∧ s.det c.bid ∧ bid ≠ c.bid ∧ gid = b.gid then some { cause := .detAtomic } else none
      | none => none

/-- A failing check at a unit: an absent page suspends the block, and any other failure ends the command there (R258, R431). -/
def State.svFail (s : State) (c : EngCmd) (f : Failure) (unit : Nat) : UnitEnd :=
  if f.cause = .pageAbsent then .stop (some (s.suspendCmd c f unit))
  else .cut (s.modCmd c.id (fun y => { y with fault := some (c.trap f unit) }))

/-- An attempt at a unit's work, taken further when it is done. -/
def svTry {α : Type} (c : EngCmd) (unit : Nat) (d : Did α) (k : State → α → UnitEnd) : UnitEnd :=
  match d with
  | .wait => .stop none
  | .again s => .stop (some s)
  | .fail s f => s.svFail c f unit
  | .ok s v => k s v

/-- A unit done. -/
def svDone (s : State) : UnitEnd := .done s 1 1

/-- A voxel looked up in the output table and added where it is absent (R267, R373), with the writes that name its index; nothing is
changed before every page is translated. -/
def State.svInsert (s : State) (c : EngCmd) (unit : Nat) (k : W64) (extra : Nat → List (Run × List Byte)) : Did Nat :=
  let t := s.outTable c
  match t.look k with
  | .voxel v => match s.engWrite c unit (extra v) with
    | .wait => .wait
    | .again s => .again s
    | .fail s f => .fail s f
    | .ok s () => .ok s v
  | l => match t.mayInsert l with
    | none => .fail s { cause := .hashFull, info := c.outTw, info2 := t.nv }
    | some slot => match s.engWrite c unit ((Run.store true (t.vab.toNat + 8 * t.nv) 8, bytesOf 8 k.toNat) :: extra t.nv) with
      | .wait => .wait
      | .again s => .again s
      | .fail s f => .fail s f
      | .ok s () =>
        .ok ((s.modTable (s.cmdPart c) c.outTw (fun t => t.add slot k (c.bid, (s.blk c.bid).gid))).modCmd c.id (fun y => { y with mark := true })) t.nv

/-- Dropped points counted. -/
def State.svDropped (s : State) (c : EngCmd) (n : Nat) : State :=
  s.modTable (s.cmdPart c) c.outTw (fun t => { t with dropped := (t.dropped + n) % 2 ^ 32 })

/-- The word at an offset of some bytes. -/
def wordAt (l : List Byte) (o : Nat) : Nat := natOfBytes ((l.drop o).take 4)

/-! ### SVPT (R265, R266) -/

/-- The point of a pixel: its 8 bytes, the (sin, cos) of its elevation and azimuth, and its motion slice. -/
def svPoint (px el az slice : List Byte) : List Byte :=
  let v := Fmt.f16.decode (natOfBytes (px.take 2))
  let flags := natOfBytes ((px.drop 3).take 1)
  let valid := Nat.testBit flags 0 && !v.isNan && !v.isInf && !v.neg && !v.isZero
  let r := rne32 v.dy
  let rc := fMul Fmt.f32 .rne r (wordAt el 4)
  let x0 := fMul Fmt.f32 .rne rc (wordAt az 4)
  let y0 := fMul Fmt.f32 .rne rc (wordAt az 0)
  let z0 := fMul Fmt.f32 .rne r (wordAt el 0)
  let t := fun (n : Nat) => wordAt slice (16 + 4 * n)
  let xyz := (List.range 3).map (fun a => if valid then fLinear [(t (4 * a), x0), (t (4 * a + 1), y0), (t (4 * a + 2), z0)] [t (4 * a + 3)] else 0)
  xyz.flatMap (bytesOf 4) ++ (px.drop 2).take 1 ++ bytesOf 1 (2 * (flags / 2) + (if valid then 1 else 0)) ++ (px.drop 4).take 2

/-- Whether first columns begin at 0 and ascend strictly. -/
def slicesOk : List Nat → Bool
  | [] => false
  | x :: l => x == 0 && ((x :: l).zip l).all (fun p => decide (p.1 < p.2))

def State.svptUnit (s : State) (c : EngCmd) : UnitEnd :=
  let d := c.desc
  let br := bitsOf (dW d 3) 7 0 + 1
  let n := bitsOf (dW d 3) 25 20 + 1
  let col := c.units / br
  let b := c.units % br
  svTry c c.units (s.engRead c (svDie c.unit) [Run.read true (dD d 8) (64 * n), Run.read true (dD d 0 + b * bitsOf (dW d 2) 23 0 + 8 * col) 8,
      Run.read true (dD d 4 + 8 * b) 8, Run.read true (dD d 6 + 8 * col) 8]) (fun s l =>
    let tab := chunk 64 (64 * n) (l.headD [])
    let firsts := tab.map (fun t => wordAt t 0)
    if c.units = 0 ∧ slicesOk firsts = false then s.svFail c { cause := .badFormat, info := 8 } 0
    else
      let slice := ((tab.filter (fun t => decide (wordAt t 0 ≤ col))).getLast?).getD []
      svTry c c.units (s.engWrite c c.units [(Run.store true (dD d 10 + 16 * c.units) 16,
        svPoint ((l[1]?).getD []) ((l[2]?).getD []) ((l[3]?).getD []) slice)]) (fun s _ => svDone s))

/-! ### SVVOX, SVQRY and SVDWN (R267, R268, R270) -/

/-- floor((x − o)/w), exactly, of FP32 operands with x not NaN; none for an infinite x. -/
def voxCoord (x o w : Nat) : Option Int :=
  match Fmt.f32.decode x with
  | .fin n m e =>
    let d := Dy.sub (FVal.fin n m e).dy (dy32 o)
    let q := dy32 w
    let k := d.e - q.e
    some (if 0 ≤ k then d.m * (pow2Nat k : Int) / q.m else d.m / (q.m * (pow2Nat (-k) : Int)))
  | _ => none

/-- The voxel record of a point, or none where the point is dropped. -/
def voxOf (d : List W32) (pt : List Byte) : Option W64 :=
  let co := fun (a : Nat) => voxCoord (wordAt pt (4 * a)) (dW d (7 + a)) (dW d (4 + a))
  if Nat.testBit (natOfBytes ((pt.drop 13).take 1)) 0 = false then none
  else match co 0, co 1, co 2 with
    | some x, some y, some z => if voxFits x && voxFits y && voxFits z then some (voxRec x y z (dW d 10)) else none
    | _, _, _ => none

def State.svvoxUnit (s : State) (c : EngCmd) : UnitEnd :=
  let d := c.desc
  let i := c.units
  let pmap := fun (v : Nat) => if wordMod c.word 0 0 = 1 then [(Run.store true (dD d 12 + 4 * i) 4, bytesOf 4 v)] else []
  svTry c i (s.engRead c (svDie c.unit) [Run.read true (dD d 2 + 16 * i) 16]) (fun s l =>
    match voxOf d (l.headD []) with
    | none => svTry c i (s.engWrite c i (pmap 0xFFFFFFFF)) (fun s _ => svDone (s.svDropped c 1))
    | some k => svTry c i (s.svInsert c i k pmap) (fun s _ => svDone s))

def State.svqryUnit (s : State) (c : EngCmd) : UnitEnd :=
  let d := c.desc
  let q := c.units
  svTry c q (s.engRead c (svDie c.unit) [Run.read true (dD d 2 + 8 * q) 8]) (fun s l =>
    let v := match (s.inTable c).look (BitVec.ofNat 64 (natOfBytes (l.headD []))) with
      | .voxel v => v
      | _ => 0xFFFFFFFF
    svTry c q (s.engWrite c q [(Run.store true (dD d 4 + 4 * q) 4, bytesOf 4 v)]) (fun s _ => svDone s))

def State.svdwnUnit (s : State) (c : EngCmd) : UnitEnd :=
  let d := c.desc
  let k := ((s.inTable c).voxels[c.units]?).getD 0
  let st : Int := (bitsOf (dW d 2) 7 0 : Nat)
  let y := voxRec (voxAt k 0 / st) (voxAt k 1 / st) (voxAt k 2 / st) (voxBatch k)
  svTry c c.units (s.svInsert c c.units y (fun v => [(Run.store true (dD d 4 + 4 * c.units) 4, bytesOf 4 v)])) (fun s _ => svDone s)

/-! ### SVNBR (R269) -/

/-- The site that input k and an offset form: none where the stride does not divide, and none within where a coordinate does not fit. -/
def nbrSite (d : List W32) (k : W64) (o : List Int) : Option (Option W64) :=
  let r := (List.range 3).map (fun a => voxAt k a - nbrDil d * (o[a]?).getD 0)
  if r.any (fun v => decide (v % nbrStr d ≠ 0)) then none
  else
    let y := r.map (fun v => v / nbrStr d)
    some (if y.all voxFits then some (voxRec ((y[0]?).getD 0) ((y[1]?).getD 0) ((y[2]?).getD 0) (voxBatch k)) else none)

/-- The input that site k and an offset name under .sub. -/
def nbrSource (d : List W32) (k : W64) (o : List Int) : Option W64 :=
  let x := (List.range 3).map (fun a => voxAt k a + nbrDil d * (o[a]?).getD 0)
  if x.all voxFits then some (voxRec ((x[0]?).getD 0) ((x[1]?).getD 0) ((x[2]?).getD 0) (voxBatch k)) else none

/-- The offsets read from OFB. -/
def nbrOffsets (l : List Byte) : List (List Int) :=
  (chunk 8 l.length l).map (fun r => (List.range 3).map (fun a => signedOf 16 (natOfBytes ((r.drop (2 * a)).take 2))))

/-- NV of the input table when the command began, and the inputs whose sites have been formed. -/
def EngCmd.nv0 (c : EngCmd) : Nat := c.arg / 2 ^ 32 - 1
def EngCmd.formed (c : EngCmd) : Nat := c.arg % 2 ^ 32

/-- The sites of one input formed and inserted, offset by offset; `drop` candidates before these were out of range. -/
def State.nbrInput (s : State) (c : EngCmd) (k : W64) (first : Bool) (drop : Nat) : List (List Int) → UnitEnd
  | [] => .cut ((s.svDropped c drop).modCmd c.id (fun y => { y with arg := c.arg + 1 }))
  | o :: os => match nbrSite c.desc k o with
    | none => s.nbrInput c k first drop os
    | some none => s.nbrInput c k first (drop + 1) os
    | some (some y) => match s.svInsert c c.formed y (fun _ => []) with
      | .wait => if first then .stop none else .cut s
      | .again s => .stop (some s)
      | .fail s f => if f.cause = .pageAbsent then s.svFail c f c.formed else (s.svDropped c drop).svFail c f c.formed
      | .ok s _ => s.nbrInput c k false drop os

/-- Pair list j: (input, site) pairs in their order. -/
def State.nbrList (s : State) (c : EngCmd) (o : List Int) : List (Nat × Nat) :=
  let t := s.inTable c
  let vox := (t.voxels.take c.nv0).zipIdx
  if wordMod c.word 0 0 = 1 then vox.filterMap (fun p => match nbrSource c.desc p.1 o with
    | some k => (match t.look k with
      | .voxel v => if v < c.nv0 then some (v, p.2) else none
      | _ => none)
    | none => none)
  else vox.filterMap (fun p => match nbrSite c.desc p.1 o with
    | some (some k) => (match (s.outTable c).look k with
      | .voxel v => some (p.2, v)
      | _ => none)
    | _ => none)

/-- The bytes of an (N32, N32) record. -/
def pairBytes (p : Nat × Nat) : List Byte := bytesOf 4 p.1 ++ bytesOf 4 p.2

/-- Running sums from 0. -/
def sumsFrom (a : Nat) : List Nat → List Nat
  | [] => [a]
  | n :: l => a :: sumsFrom (a + n) l

/-- The sites of the output set. -/
def State.nbrSites (s : State) (c : EngCmd) : Nat := if wordMod c.word 0 0 = 1 then c.nv0 else (s.outTable c).nv

/-- The whole .csr map: the row pointers and the entries. -/
def State.csrMap (s : State) (c : EngCmd) (lists : List (List (Nat × Nat))) : List Byte × List Byte :=
  let rows := (List.range (s.nbrSites c)).map (fun y => lists.zipIdx.flatMap (fun l => (l.1.filter (fun p => p.2 == y)).map (fun p => (p.1, l.2))))
  ((sumsFrom 0 (rows.map List.length)).flatMap (bytesOf 4), (rows.flatten).flatMap pairBytes)

/-- The .csr map, or the fault that its capacity raises with the total written; where its entries and its row pointers both pass theirs, the record names the entries
(log entry 123). -/
def State.nbrCsr (s : State) (c : EngCmd) (lists : List (List (Nat × Nat))) : UnitEnd :=
  let d := c.desc
  let total := sumNat (lists.map List.length)
  let rp := 4 * (s.nbrSites c + 1)
  let cnt : Run × List Byte := (Run.store true (dD d 10) 4, bytesOf 4 total)
  let tooMany : Option Failure :=
    if dW d 9 < total then some { cause := .indexBounds, info := total, info2 := dW d 9 }
    else if dW d 8 < rp then some { cause := .indexBounds, info := rp, info2 := dW d 8 }
    else none
  match tooMany with
  | some f => svTry c 0 (s.engWrite c 0 [cnt]) (fun s _ => s.svFail c f 0)
  | none =>
    let m := s.csrMap c lists
    svTry c 0 (s.engWrite c 0 [cnt, (Run.store true (dD d 6) m.1.length, m.1), (Run.store true (dD d 6 + dW d 8) m.2.length, m.2)])
      (fun s _ => .done s 1 (nbrKo d))

/-- Pair list `units`, and before the first list the counts, or the fault that a list's capacity raises. -/
def State.nbrPairs (s : State) (c : EngCmd) (lists : List (List (Nat × Nat))) : UnitEnd :=
  let d := c.desc
  let j := c.units
  let cnt : List (Run × List Byte) := if j = 0 then [(Run.store true (dD d 10) (4 * nbrKo d), lists.flatMap (fun l => bytesOf 4 l.length))] else []
  match (if j = 0 then lists.zipIdx.find? (fun p => decide (dW d 9 < p.1.length)) else none) with
  | some p => svTry c 0 (s.engWrite c 0 cnt) (fun s _ => s.svFail c { cause := .indexBounds, info := p.1.length, info2 := dW d 9 } p.2)
  | none =>
    let l := (lists[j]?).getD []
    svTry c j (s.engWrite c j (cnt ++ [(Run.store true (dD d 6 + j * dW d 8) (8 * l.length), l.flatMap pairBytes)])) (fun s _ => svDone s)

/-- The bytes of a completed map. -/
def State.nbrLen (s : State) (c : EngCmd) (lists : List (List (Nat × Nat))) : Nat :=
  8 * sumNat (lists.map List.length) + (if wordMod c.word 1 1 = 1 then 4 * (s.nbrSites c + 1) else 0)

/-- A unit of SVNBR; the length of the map is kept from its first list (R271). -/
def State.svnbrUnit (s : State) (c : EngCmd) : UnitEnd :=
  let d := c.desc
  let at_ := if wordMod c.word 0 0 = 0 ∧ c.formed < c.nv0 then c.formed else c.units
  svTry c at_ (s.engRead c (svDie c.unit) [Run.read true (dD d 4) (8 * nbrKo d)]) (fun s l =>
    let offs := nbrOffsets (l.headD [])
    if wordMod c.word 0 0 = 0 ∧ c.formed < c.nv0 then s.nbrInput c (((s.inTable c).voxels[c.formed]?).getD 0) true 0 offs
    else
      let lists := offs.map (s.nbrList c)
      let s := if c.units = 0 then s.modCmd c.id (fun y => { y with memo := [s.nbrLen c lists] }) else s
      if wordMod c.word 1 1 = 1 then s.nbrCsr c lists else s.nbrPairs c lists)

/-! ### SVCLR (R264, R371) -/

/-- A command's table replaced. -/
def State.dropTable (s : State) (c : EngCmd) (new : List Table) : State :=
  let part := s.cmdPart c
  { s with tables := updAt (fun (l : List Table) => l.filter (fun t => !(t.part == part && t.tid == twTid c.tw)) ++ new) (unitOf c.tw) s.tables }

/-- The blocks that SVCLR takes: the lowest free ones, counting the table's own. -/
def State.svBlocks (s : State) (c : EngCmd) : List Nat :=
  let used := (((s.tables[unitOf c.tw]?).getD []).filter (fun t => !(t.part == s.cmdPart c && t.tid == twTid c.tw))).flatMap (fun t => t.blocks)
  ((List.range 128).filter (fun k => !used.contains k)).take (twSz c.tw)

def State.svclrUnit (s : State) (c : EngCmd) : UnitEnd :=
  let part := s.cmdPart c
  let old := s.table part c.tw
  let take := s.svBlocks c
  if take.length < twSz c.tw then s.svFail c { cause := .hashFull, info := c.tw, info2 := (old.map Table.nv).getD 0 } 0
  else
    let t : Table :=
      { part := part, tid := twTid c.tw, blocks := take, ents := [], voxels := [], g := ((old.map (fun t => t.g)).getD 0 + 1) % 2 ^ 32, vab := BitVec.ofNat 64 (dD c.desc 2),
        vmax := dW c.desc 6, srb := BitVec.ofNat 64 (dD c.desc 4), dropped := 0, cache := [], adder := none }
    .cut ((s.dropTable c [t]).modCmd c.id (fun y => { y with arg := 1 }))

/-! ### Every command -/

/-- A command begins: what it fixes then, or its fault. -/
def State.svBegin (s : State) (c : EngCmd) : UnitEnd :=
  match s.svBeginFailure c with
  | some f => s.svFail c f 0
  | none =>
    if wordOpc c.word = 0x1CD then s.svclrUnit c
    else .cut (s.modCmd c.id (fun y => { y with arg := ((s.inTable c).nv + 1) * 2 ^ 32 }))

/-- The next unit of a command. -/
def State.svUnit (s : State) (c : EngCmd) : UnitEnd :=
  let opc := wordOpc c.word
  if c.arg = 0 then s.svBegin c
  else if opc = 0x1C6 then s.svptUnit c
  else if opc = 0x1C7 then s.svvoxUnit c
  else if opc = 0x1C8 then s.svqryUnit c
  else if opc = 0x1C9 then s.svnbrUnit c
  else s.svdwnUnit c

/-- The units of a command for its count barrier and for the record of a status write (R257, R431). -/
def EngCmd.svCount (c : EngCmd) : Nat :=
  let opc := wordOpc c.word
  if opc = 0x1C6 then (bitsOf (dW c.desc 3) 7 0 + 1) * (bitsOf (dW c.desc 3) 19 8 + 1)
  else if opc = 0x1C7 ∨ opc = 0x1C8 then dW c.desc 1
  else if opc = 0x1C9 then nbrKo c.desc
  else if opc = 0x1CA then c.nv0
  else 0

/-- The steps of a command: its beginning stands for one, and a .csr map is one. -/
def EngCmd.svTotal (c : EngCmd) : Nat :=
  if c.arg = 0 then 1 else if wordOpc c.word = 0x1C9 ∧ wordMod c.word 1 1 = 1 then 1 else c.svCount

/-- An entry placed in a map cache (R374). -/
def Table.cacheMap (t : Table) (e : MapEnt) : Table :=
  let e := { e with used := t.cache.foldl (fun n y => Nat.max n (y.used + 1)) 0 }
  let rest := t.cache.filter (fun y => !(y.g == e.g && y.kid == e.kid && y.str == e.str && y.dil == e.dil && y.csr == e.csr))
  let rest := if rest.length < 8 then rest else match leastBy (fun y => y.used) rest with
    | some v => rest.filter (fun y => decide (y ≠ v))
    | none => rest
  { t with cache := rest ++ [e] }

/-- SVNBR.cache: the completed map enters the input table's cache (R271). -/
def State.svCache (s : State) (c : EngCmd) : State :=
  let d := c.desc
  s.modTable (s.cmdPart c) c.tw (fun t =>
    let e : MapEnt :=
      { g := t.g, kid := dW d 3, str := (nbrStr d).toNat, dil := (nbrDil d).toNat, csr := wordMod c.word 1 1 == 1,
        mb := BitVec.ofNat 64 (dD d 6), len := c.memo.headD 0, used := 0 }
    t.cacheMap e)

/-- SVMAP answers (R271, R374). -/
def State.svAnswer (s : State) (c : EngCmd) : State :=
  let d := c.desc
  let hit := (s.inTable c).cache.find? (fun e => e.g == dW d 3 && e.kid == dW d 1 && e.str == bitsOf (dW d 2) 7 0 && e.dil == bitsOf (dW d 2) 15 8
    && e.csr == Nat.testBit (dW d 2) 16)
  let mb : W64 := (hit.map (fun e => e.mb)).getD 0
  let s := match hit with
    | some e => s.modTable (s.cmdPart c) c.tw (fun t => t.cacheMap e)
    | none => s
  s.modSl c.bid c.slice (fun sl => match sl.pend.find? (fun p => p.op == c.id && Pend.held p) with
    | some p => sl.deliver c.id (p.writes.zipIdx.map (fun w => (w.1.dest, if w.2 % 2 = 0 then mb.extractLsb' 0 32 else mb.extractLsb' 32 32)))
    | none => sl)

/-- The status record written when a command that changes a table completes (R263, R431); the generation rises if a voxel was added. A failure of the write is deferred
beside an earlier fault of the command. -/
def State.svStatus (s : State) (c : EngCmd) : Option State :=
  let t := s.outTable c
  let t1 := if c.mark then t.bump else t
  let change := fun (s : State) => s.modTable (s.cmdPart c) c.outTw (fun t => if c.mark then t.bump else t)
  match s.engWrite c c.svCount [(Run.store true t.srb.toNat 16, t1.status)] with
  | .wait => none
  | .again s => some s
  | .fail s f =>
    if f.cause = .pageAbsent then some (s.suspendCmd c f c.svCount)
    else
      let s := change s
      let s := match c.fault with
        | some t => s.deferCmd c t
        | none => s
      some ((s.modCmd c.id (fun y => { y with fault := some (c.trap f c.svCount) })).finishCmd c)
  | .ok s () => some ((change s).finishCmd c)

/-- The end of a command whose units are done or that met a fault. -/
def State.svFin (s : State) (c : EngCmd) : Option State :=
  let opc := wordOpc c.word
  let ok := c.fault.isNone
  if opc = 0x1CB then some ((if ok then s.svAnswer c else s.modSl c.bid c.slice (fun sl => sl.deliverNone c.id)).finishCmd c)
  else if opc = 0x1CC then
    some ((if ok then s.dropTable c [] else s).finishCmd c)
  else
    let s := if opc = 0x1C9 ∧ wordMod c.word 2 2 = 1 ∧ ok then s.svCache c else s
    if (c.inserts ∨ opc = 0x1CD) ∧ c.arg ≠ 0 ∧ (s.table (s.cmdPart c) c.outTw).isSome then s.svStatus c
    else some (s.finishCmd c)

/-! ## Events -/

/-- SURVEYOR_COMMAND_START (R370): the oldest queued command of a unit that performs none. -/
def State.surveyorStart (s : State) (u : Nat) : Option State :=
  let mine := s.queued (.surveyor u)
  if mine.any (fun c => decide (c.stage = .active) && s.cmdRuns c) then none
  else match leastBy (fun (c : EngCmd) => c.iss) (mine.filter (fun c => decide (c.stage = .queued) && s.cmdRuns c && s.mayRedo c.bid c.id)) with
    | some c => some (s.modCmd c.id (fun y => { y with stage := .active }))
    | none => none

def execSurveyorCommandStart (u : Nat) (s : State) : Host.Outcome State Fault Refusal := .next ((s.surveyorStart u).getD s)

/-- SURVEYOR_BATCH_COMPLETE (R258, R263, R370): the next batch of up to 256 units of the command that a unit performs. -/
def State.surveyorBatch (s : State) (u : Nat) : Option State :=
  match (s.queued (.surveyor u)).find? (fun c => decide (c.stage = .active) && s.cmdRuns c) with
  | none => none
  | some c =>
    if s.acquirePending c then none
    else match s.engFence c with
      | some r => r
      | none => s.unitLoop (fun _ c => c.svTotal) State.svUnit (fun _ => 1) State.svFin c.id true 256 0 257

def execSurveyorBatchComplete (u : Nat) (s : State) : Host.Outcome State Fault Refusal := .next ((s.surveyorBatch u).getD s)

/-- A step of a unit. -/
def State.surveyorStep (s : State) (u : Nat) : Option State :=
  match s.surveyorStart u with
  | some s => some s
  | none => s.surveyorBatch u

end Sys2Proof.Machine
end

