-- ==== Sys2Proof/Machine/Frames.lean ====
section
/-! DEFINITION. The layout of trap records and context frames: what is written, and what a restored block takes back (R336, R337, R339, R340,
R342 to R345; log entries 16 and 17). -/

namespace Sys2Proof.Machine

/-- Bytes of a structure of `n` bytes from its fields: offset, bytes and value of each; every other byte is zero. -/
def layout (n : Nat) (l : List (Nat × Nat × Nat)) : List Byte := bytesOf n (sumNat (l.map (fun f => f.2.2 % 2 ^ (8 * f.2.1) * 2 ^ (8 * f.1))))

/-! ## Trap records (R336) -/

/-- The 128 bytes of a trap record. -/
def recordBytes (r : TrapRec) : List Byte :=
  let t := r.trap
  layout 128 [(0x00, 8, r.seq), (0x08, 1, t.cause.code), (0x09, 1, t.kind), (0x0A, 1, r.part), (0x0B, 1, r.core), (0x0C, 4, r.bnum),
    (0x10, 8, r.lra.toNat), (0x18, 8, t.pc.toNat), (0x20, 8, t.tpc.toNat), (0x28, 1, t.slc), (0x29, 1, t.thr), (0x2C, 4, t.unit), (0x30, 8, t.ea),
    (0x38, 12, t.word.toNat), (0x44, 4, t.info), (0x48, 8, t.info2), (0x50, 16, t.ext.toNat), (0x60, 8, r.cfa), (0x68, 8, r.clk)]

/-- Every cause. -/
def allCauses : List Cause :=
  [.illegalOpcode, .illegalEncoding, .illegalType, .regRange, .regDeadlock, .priv, .badFormat, .pageAbsent, .rangeUndeclared, .accessRights,
   .attrRequest, .aliasAttr, .woRewrite, .pvForeign, .misaligned, .sparseMeta, .rowptrOrder, .countResidue, .indexBounds, .hashFull,
   .mergeProtocol, .redSaturate, .detTimer, .detAtomic, .eccUncorrectable, .directoryLost, .peerLinkDown, .trap, .brk, .watchdog]

/-- The fields of a trap that a saved record gives back; a cause code that names none leaves the cause as it was. -/
def trapOfBytes (t : Trap) (l : List Byte) : Trap :=
  { cause := (allCauses.find? (fun c => c.code == field l 8 1)).getD t.cause, kind := field l 9 1, slc := field l 0x28 1, thr := field l 0x29 1 % 4,
    unit := field l 0x2C 4, ea := field l 0x30 8, info := field l 0x44 4, info2 := field l 0x48 8, pc := BitVec.ofNat 64 (field l 0x18 8),
    tpc := BitVec.ofNat 64 (field l 0x20 8), word := BitVec.ofNat 96 (field l 0x38 12), ext := BitVec.ofNat 128 (field l 0x50 16) }

/-! ## Pending records (R345) -/

/-- A pending record: a result of a slice under its register and bit positions, a deferred trap of a slice or of the block, a Loom operation, an MXV
call, a drain, or an engine command. -/
inductive PRec where
  | result (slice pend : Nat) (cls reg : Nat) (mask : W32)
  | deferred (slice n : Nat)
  | blockDeferred (n : Nat)
  | loom (id : Nat)
  | mxv (id : Nat)
  | drain (id : Nat)
  | engine (id : Nat)
  deriving DecidableEq, Repr

/-- The class, register and position of an element (R345). -/
def RegDest.cls : RegDest → Nat
  | .lane .. => 0
  | .uni _ => 1
  | .pred .. => 2
def RegDest.reg : RegDest → Nat
  | .lane r _ => r
  | .uni r => r
  | .pred n _ => n
def RegDest.posn : RegDest → Nat
  | .lane _ t => t
  | .uni _ => 0
  | .pred _ t => t
def regDest (cls reg t : Nat) : RegDest := if cls = 0 then .lane reg t else if cls = 1 then .uni reg else .pred reg t

def RegWrite.hasKey (w : RegWrite) (cls reg : Nat) (mask : W32) : Bool := w.dest.cls == cls && w.dest.reg == reg && w.mask == mask

/-- A result whose value is known: one at a distance count, or one that its operation has delivered. -/
def Pend.known (p : Pend) : Bool := !Pend.held p || p.ready

/-- The pending-result records of a slice: the number of the result, and a register and bit positions that it writes; a result of several registers has
one for each (R345). -/
def Slice.resultKeys (sl : Slice) : List (Nat × Nat × Nat × W32) :=
  sl.pend.zipIdx.flatMap (fun p =>
    if p.1.known then (firstKeys (p.1.writes.map (fun w => (w.dest.cls, w.dest.reg, w.mask)))).map (fun k => (p.2, k)) else [])

/-- The pending records of a slice: results, then deferred traps. -/
def Slice.records (sl : Slice) (i : Nat) : List PRec :=
  sl.resultKeys.map (fun k => .result i k.1 k.2.1 k.2.2.1 k.2.2.2) ++ (List.range sl.deferred.length).map (.deferred i)

/-- The saved operations of a block in issue order: Loom operations and drains, MXV calls and engine commands. An ATSUB is not saved (R259). -/
def State.savedOps (s : State) (b : Block) : List (Nat × PRec) :=
  let l := b.loomQ.map (fun o => (o.iss, if o.stage = .draining then PRec.drain o.id else .loom o.id)) ++
    (s.mxvs.filter (fun c => c.bid == b.bid)).map (fun c => (c.iss, .mxv c.id)) ++
    (s.cmds.filter (fun c => c.bid == b.bid && decide (wordOpc c.word ≠ 0x1CF))).map (fun c => (c.iss, .engine c.id))
  (List.range s.iss).flatMap (fun k => l.filter (fun p => p.1 == k))

/-- Every pending record of a block in saved order. -/
def State.records (s : State) (b : Block) : List PRec :=
  b.slices.zipIdx.flatMap (fun p => p.1.records p.2) ++ (List.range b.blkDef.length).map .blockDeferred ++ (s.savedOps b).map (fun p => p.2)

def PRec.kind : PRec → Nat
  | .result .. => 1
  | .deferred .. | .blockDeferred _ => 2
  | .loom _ | .mxv _ => 3
  | .drain _ => 4
  | .engine _ => 5

/-- The slice that a record's head names. -/
def State.recSlice (s : State) (b : Block) : PRec → Nat
  | .result i .. => i
  | .deferred i _ => i
  | .blockDeferred n => ((b.blkDef[n]?).map (fun d => d.trap.slc)).getD 0
  | .loom id | .drain id => ((b.loomQ.find? (fun o => o.id == id)).map (fun o => o.slice)).getD 0
  | .mxv id => ((s.mxvs.find? (fun c => c.id == id)).map (fun c => c.slice)).getD 0
  | .engine id => ((s.cmd id).map (fun c => c.slice)).getD 0

/-- Words as bytes. -/
def wordBytes (l : List W32) : List Byte := l.flatMap (fun w => bytesOf 4 w.toNat)

/-- An instruction word and a descriptor of 16 registers. -/
def headBytes (word : W96) (desc : List W32) : List Byte := bytesOf 16 word.toNat ++ (wordBytes desc ++ List.replicate 64 0).take 64

/-- The body of a pending result. -/
def resultBytes (p : Pend) (cls reg : Nat) (mask : W32) : List Byte :=
  let ws := p.writes.filter (fun w => w.hasKey cls reg mask)
  let posn := sumNat ((List.range 4).map (fun t => if ws.any (fun w => w.dest.posn == t) then 2 ^ t else 0))
  let due := match p.due with
    | .count n => n * 2 ^ 14
    | .flag f => 15 * 2 ^ 14 + f * 2 ^ 18
  bytesOf 4 (reg + 2 ^ 8 * cls + 2 ^ 10 * posn + due) ++ bytesOf 4 mask.toNat ++
    (List.range 4).flatMap (fun t => bytesOf 4 (((ws.find? (fun w => w.dest.posn == t)).map (fun w => w.val.toNat)).getD 0))

/-- The record of a deferred trap not yet raised. -/
def State.deferredBytes (s : State) (b : Block) (d : Deferred) : List Byte :=
  recordBytes { seq := 0, part := b.part, core := 0xFF, bnum := b.bnum, lra := (s.grid b.gid).lr.lra, cfa := b.cfa, clk := 0, bid := none, logged := true,
                trap := d.trap }

/-- The members of an operation as a slice mask. -/
def memberMask (l : List Token) : Nat := l.foldl (fun m t => if Nat.testBit m t.slice then m else m + 2 ^ t.slice) 0

/-- The body of a record (R345), its fields packed in the order listed. -/
def State.recBody (s : State) (b : Block) : PRec → List Byte
  | .result i n cls reg mask => match (b.sl i).pend[n]? with
    | some p => resultBytes p cls reg mask
    | none => []
  | .deferred i n => match (b.sl i).deferred[n]? with
    | some d => s.deferredBytes b d
    | none => []
  | .blockDeferred n => match b.blkDef[n]? with
    | some d => s.deferredBytes b d
    | none => []
  | .loom id => match b.loomQ.find? (fun o => o.id == id) with
    | some o => headBytes o.word o.desc ++ bytesOf 32 (memberMask o.members) ++ bytesOf 4 0
    | none => []
  | .mxv id => match s.mxvs.find? (fun c => c.id == id) with
    | some c => headBytes c.word c.desc ++ bytesOf 32 (memberMask [c.tok]) ++ bytesOf 4 c.rows ++ (match c.seg with
      | some g => bytesOf 4 g.first ++ bytesOf 4 g.last ++ bytesOf 4 g.kpos ++ wordBytes (mgets 0 g.acc 0 1024)
      | none => [])
    | none => []
  | .drain id => match b.loomQ.find? (fun o => o.id == id) with
    | some o => bytesOf 16 o.word.toNat ++ (wordBytes o.desc ++ List.replicate 32 0).take 32 ++ bytesOf 8 o.key.toNat ++
        (if wordOpc o.word = 0x189 then (wordBytes o.vals ++ List.replicate 512 0).take 512 ++ bytesOf 4 o.row else []) ++
        wordBytes (mgets 0 o.buf 0 (cornerRows o.desc * cornerCols o.desc))
    | none => []
  | .engine id => match s.cmd id with
    | some c => headBytes c.word c.desc ++ bytesOf 4 (c.units + 2 ^ 32 - 1) ++ bytesOf 1 (c.tag.getD 0xFF) ++ bytesOf 1 (c.cb.getD 0xFF) ++ bytesOf 1 c.tok.flag
    | none => []

/-- A record with its head, padded to 16 bytes. -/
def State.recFull (s : State) (b : Block) (r : PRec) : List Byte :=
  let body := s.recBody b r
  let n := (body.length + 15) / 16
  layout 16 [(0, 1, r.kind), (1, 1, s.recSlice b r), (2, 2, n + 1)] ++ body ++ List.replicate (16 * n - body.length) 0

/-- Each record with its offset in the pending area. -/
def State.recOffsets (s : State) (b : Block) : Nat → List PRec → List (Nat × PRec)
  | _, [] => []
  | o, r :: l => (o, r) :: s.recOffsets b (o + (s.recFull b r).length) l

/-! ## Areas (R342 to R344) -/

def Block.nsl (b : Block) : Nat := b.slices.length
/-- Bench granules, count-barrier granules included. -/
def Block.bgr (b : Block) : Nat := b.bsize / 256 + 4
def Block.oreg (b : Block) : Nat := 4096 + 1024 * b.nsl
def Block.oben (b : Block) : Nat := b.oreg + 4096 * b.nsl
def Block.otil (b : Block) : Nat := b.oben + 256 * b.bgr
def Block.opnd (b : Block) : Nat := b.otil + 65536 * b.tcount

/-- The word of a quorum register, and the two bits of a tag (R342). -/
def Quorum.bits (q : Quorum) : Nat := q.decl + 2 ^ 11 * q.signed + (if q.phase then 2 ^ 22 else 0)
def Tag.bits (t : Tag) : Nat := if t.ready then 2 else if 0 < t.pending then 1 else 0

/-- The header and block area (R342). -/
def State.headerBytes (s : State) (b : Block) (st : Nat) : List Byte :=
  let g := s.grid b.gid
  let held := sumNat (b.slices.map (fun sl => sl.alloc)) + b.reserve
  layout 4096 ([(0x00, 8, g.lr.kaddr.toNat), (0x08, 8, g.lr.lra.toNat), (0x10, 4, b.bnum), (0x14, 2, b.nsl), (0x16, 1, b.held.toNat), (0x17, 1, st),
      (0x18, 4, held), (0x1C, 4, b.bgr), (0x48, 8, b.trseq), (0x50, 4, (s.records b).length), (0x60, 8, b.oreg), (0x68, 8, b.oben),
      (0x70, 8, b.otil), (0x78, 8, b.opnd), (0x150, 4, b.reserve % 2 ^ 16 + 2 ^ 16 * b.claimQ.length)] ++
    (List.range 16).map (fun n => (0x100 + 4 * n, 4, (b.quorum n).bits)) ++
    [(0x140, 16, sumNat ((List.range 64).map (fun n => (b.tag n).bits * 4 ^ n)))] ++
    (List.range 128).map (fun n => (0x200 + 4 * n, 4, b.idxAt n)) ++
    b.claimQ.zipIdx.map (fun e => (0x400 + 2 * e.2, 2, e.1.1 + 2 ^ 8 * e.1.2)))

/-- The WAIT field of a held slice (R343); only a slice that waits in CLAIM has a place in the claim queue, and any other reads 0 there (log entry 111). -/
def Block.waitBits (b : Block) (i : Nat) : Nat :=
  match (b.sl i).wait with
  | none => 0
  | some w =>
    let r := match w.kind with
      | .quorum q => (q, 0)
      | .phase cb ph => (cb, ph.toNat)
      | .claim n => (0, n)
      | .regang _ site _ _ _ => (site, 0)
      | .rotation _ site _ => (site, 0)
      | _ => (0, 0)
    (wordOpc w.word) % 2 ^ 8 + 2 ^ 8 * r.1 + 2 ^ 16 * r.2 + 2 ^ 32 * ((b.claimQ.findIdx? (fun e => e.1 == i)).getD 0)

/-- The record of a slice (R343). -/
def Block.sliceBytes (b : Block) (i opr : Nat) : List Byte :=
  let sl := b.sl i
  let mask := sl.mstk.reverse
  layout 1024 ([(0x000, 8, sl.pc.toNat), (0x008, 4, sl.issueC.toNat), (0x00C, 4, sl.dcnt.toNat), (0x011, 1, sl.live.toNat + 16 * sl.act.toNat),
      (0x012, 1, sl.mstk.length), (0x013, 1, sl.alloc), (0x014, 1, sl.ycnt), (0x018, 8, b.waitBits i), (0x020, 4, sl.tsm.toNat),
      (0x024, 4, sl.qarm.toNat + 2 ^ 16 * sl.qdone.toNat), (0x028, 6, sl.flg.toNat), (0x038, 4, sl.prd.toNat),
      (0x210, 4, sl.resultKeys.length + 2 ^ 16 * sl.deferred.length), (0x214, 4, opr), (0x218, 1, sl.mxp.toNat)] ++
    (List.range 8).map (fun n => (0x030 + n, 1, (sl.strand[n]?).getD 0xFF)) ++
    (List.range 16).map (fun n => (0x040 + 4 * n, 4, (mget 0 sl.pass n).toNat)) ++
    mask.zipIdx.map (fun e => (0x080 + 8 * e.2, 8, e.1.toNat)) ++
    (List.range 64).map (fun n => (0x100 + 4 * n, 4, (sl.uni n).toNat)) ++
    (List.range 4).map (fun t => (0x200 + 4 * t, 4, (mget 0xFFFFFFFF sl.item t).toNat)))

/-- The registers within a slice's allocation (R344). -/
def Slice.regBytes (sl : Slice) : List Byte := wordBytes (mgets 0 sl.v 0 (32 * sl.alloc))

/-- The share and the count barriers (R344). -/
def Block.benchBytes (b : Block) : List Byte :=
  mgets 0 b.bench 0 b.bsize ++ (List.range 64).flatMap (fun n =>
    let c := b.cb n
    layout 16 [(0, 4, c.c), (4, 4, c.e), (8, 2, c.n.toNat), (10, 1, if c.p then 1 else 0)])

/-- The frame of a block: offsets and bytes. -/
def State.frameImage (s : State) (b : Block) (st : Nat) : List (Nat × List Byte) :=
  let recs := s.recOffsets b 0 (s.records b)
  let opr := fun (i : Nat) => ((recs.find? (fun r => s.recSlice b r.2 == i)).map (fun r => r.1)).getD 0
  [(0, s.headerBytes b st)] ++
    (List.range b.nsl).flatMap (fun i => [(4096 + 1024 * i, b.sliceBytes i (opr i)), (b.oreg + 4096 * i, (b.sl i).regBytes)]) ++
    [(b.oben, b.benchBytes)] ++
    (bitsSet 8 b.held.toNat).map (fun t => (b.otil + 65536 * t, wordBytes (b.tile t))) ++
    recs.map (fun r => (b.opnd + r.1, s.recFull b r.2))

/-- A frame written at its home under the context key identifier of its partition (R302, R333, R334). -/
def State.writeFrame (s : State) (b : Block) (st : Nat) : State :=
  (s.frameImage b st).foldl (fun s c => s.homeWrite (s.part b.part).ckid (b.cfa + c.1) c.2) s

/-! ## What a frame gives back (R340) -/

/-- n bytes of a block's frame. -/
def State.frameRead (s : State) (b : Block) (o n : Nat) : List Byte := s.homeBytes (s.part b.part).ckid (b.cfa + o) n

/-- A slice record that refuses the resume: an allocation outside 1 to 32, a depth above 16, an active mask outside the live mask, or a program
counter that is not a multiple of 4. An ended slice holds no units, and its allocation was saved as 0. -/
def sliceRefused (ended : Bool) (l : List Byte) : Bool :=
  let a := field l 0x13 1 % 64
  let m := field l 0x11 1
  (decide (a = 0) && !ended) || decide (32 < a) || decide (16 < field l 0x12 1 % 32) || decide ((m / 16) &&& (m % 16) ≠ m / 16) || decide (field l 0 8 % 4 ≠ 0)

/-- A wait with the resource and the n or ph of a record; operands that the record does not hold stay. -/
def WaitKind.load (k : WaitKind) (r n : Nat) : WaitKind :=
  match k with
  | .quorum _ => .quorum (r % 16)
  | .phase _ _ => .phase (r % 64) (BitVec.ofNat 16 n)
  | .claim _ => .claim n
  | .regang addr _ pass bound any => .regang addr r pass bound any
  | .rotation addr _ pass => .rotation addr r pass
  | k => k

/-- The wait of an instruction whose operands a record holds whole: QWAIT, BAR, CBWAIT and CLAIM. -/
def waitNamed (op r n : Nat) : Option WaitKind :=
  if op = 0x42 ∨ op = 0x43 then some (.quorum (r % 16))
  else if op = 0x4A then some (.phase (r % 64) (BitVec.ofNat 16 n))
  else if op = 0x4C then some (.claim n)
  else none

/-- A slice's wait as its WAIT field stands (R340, R343): an opcode of 0 releases it. -/
def Slice.waitFrom (sl : Slice) (x : Nat) : Option Wait :=
  let op := bitsOf x 7 0
  let r := bitsOf x 15 8
  let n := bitsOf x 31 16
  if op = 0 then none
  else match sl.wait with
    | some w => if wordOpc w.word % 2 ^ 8 = op then some { w with kind := w.kind.load r n }
      else match waitNamed op r n with
        | some k => some { w with kind := k, word := BitVec.ofNat 96 (0x100 + op), met := false }
        | none => some w
    | none => (waitNamed op r n).map (fun k => { kind := k, word := BitVec.ofNat 96 (0x100 + op), met := false })

/-- The fields of a slice's record and its registers. -/
def Slice.load (sl : Slice) (l regs : List Byte) : Slice :=
  let w := fun (o n : Nat) => BitVec.ofNat n (field l o (n / 8))
  let a := field l 0x13 1 % 64
  let items := (List.range 4).map (fun t => BitVec.ofNat 32 (field l (0x200 + 4 * t) 4))
  { sl with
    pc := w 0 64, issueC := w 8 32, cFull := sl.cFull && decide (w 8 32 = 0xFFFFFFFF), dcnt := w 0x0C 32, live := BitVec.ofNat 4 (field l 0x11 1), act := BitVec.ofNat 4 (field l 0x11 1 / 16),
    alloc := a, ycnt := field l 0x14 1, tsm := w 0x20 32, qarm := BitVec.ofNat 16 (field l 0x24 4), qdone := BitVec.ofNat 16 (field l 0x24 4 / 2 ^ 16),
    flg := BitVec.ofNat 48 (field l 0x28 6), prd := BitVec.ofNat 28 (field l 0x38 4), mxp := BitVec.ofNat 3 (field l 0x218 1),
    strand := ((List.range 8).map (fun n => field l (0x30 + n) 1)).filter (fun n => n != 0xFF),
    pass := mofList 0 0 ((List.range 16).map (fun n => BitVec.ofNat 32 (field l (0x40 + 4 * n) 4))),
    mstk := ((List.range (field l 0x12 1 % 32)).map (fun n => BitVec.ofNat 64 (field l (0x80 + 8 * n) 8))).reverse,
    k := mofList 0 0 ((List.range 64).map (fun n => BitVec.ofNat 32 (field l (0x100 + 4 * n) 4))),
    item := mofList 0xFFFFFFFF 0 items,
    v := mofList 0 0 ((wordsOf regs).take (32 * a)),
    wait := sl.waitFrom (field l 0x18 4) }

/-- The block area, bench and tiles. -/
def Block.loadArea (b : Block) (l bench : List Byte) (tiles : Nat → List Byte) : Block :=
  let claims := field l 0x152 2
  let b := { b with
    reserve := field l 0x150 2,
    claimQ := (List.range claims).map (fun n => let e := field l (0x400 + 2 * n) 2; (e % 2 ^ 8, bitsOf e 13 8)),
    idx := mofList 0xFFFFFFFF 0 ((List.range 128).map (fun n => BitVec.ofNat 32 (field l (0x200 + 4 * n) 4))),
    bench := mofList 0 0 (bench.take b.bsize) }
  let b := (List.range 16).foldl (fun (b : Block) n =>
    let x := field l (0x100 + 4 * n) 4
    b.setQuorum n { b.quorum n with decl := bitsOf x 10 0, signed := bitsOf x 21 11, phase := bitOf x 22 }) b
  let b := (List.range 64).foldl (fun (b : Block) n =>
    let x := bitsOf (field l 0x140 16) (2 * n + 1) (2 * n)
    let t := b.tag n
    b.setTag n (if x = 2 then ⟨0, true⟩ else if x = 1 then ⟨max 1 t.pending, false⟩ else ⟨0, false⟩)) b
  let b := (List.range 64).foldl (fun (b : Block) n =>
    let c := (bench.drop (b.bsize + 16 * n)).take 16
    b.setCb n { c := field c 0 4, e := field c 4 4, n := BitVec.ofNat 16 (field c 8 2), p := bitOf (field c 10 1) 0 }) b
  (bitsSet 8 b.held.toNat).foldl (fun b t => b.setTile t (wordsOf (tiles t))) b

/-- A pending result as its record stands. -/
def Pend.load (p : Pend) (l : List Byte) : Pend :=
  let x := field l 0 4
  let m := BitVec.ofNat 32 (field l 4 4)
  { p with
    due := if bitsOf x 17 14 = 15 then .flag (bitsOf x 21 18) else .count (bitsOf x 17 14),
    writes := (bitsSet 4 (bitsOf x 13 10)).map (fun t =>
      ({ dest := regDest (bitsOf x 9 8) (bitsOf x 7 0) t, mask := m, val := BitVec.ofNat 32 (field l (8 + 4 * t) 4) } : RegWrite)) }

/-- A pending record as it stands in a frame: KIND and slice of its head, and its body. -/
structure SavedRec where
  kind  : Nat
  slice : Nat
  body  : List Byte
  deriving DecidableEq, Repr

/-- n records of the pending area from an offset on, each as long as its head says. -/
def State.recsFrom (s : State) (b : Block) (o : Nat) : Nat → List SavedRec
  | 0 => []
  | n + 1 =>
    let h := s.frameRead b (b.opnd + o) 16
    let len := max 1 (field h 2 2)
    { kind := field h 0 1, slice := field h 1 1, body := s.frameRead b (b.opnd + o + 16) (16 * (len - 1)) } :: s.recsFrom b (o + 16 * len) n

/-- One result of the records that stand in its place: those of one distance or flag are one result. -/
def Pend.join (p : Pend) (l : List (List Byte)) : List Pend :=
  let ps := l.map p.load
  ((firstKeys (ps.map (fun q => q.due))).map (fun d => { p with due := d, writes := (ps.filter (fun q => decide (q.due = d))).flatMap (fun q => q.writes) })).filter
    (fun q => !q.writes.isEmpty)

/-- The pending results and deferred traps of a slice as the NPR and NDT records from OPR on stand (R340, R343, R345): each is reinstated in the place of the saved one whose
record it was, and one beyond those behind them. -/
def Slice.loadRecords (sl : Slice) (recs : List SavedRec) : Slice :=
  let saved := sl.resultKeys.map (fun k => k.1)
  let rs := ((recs.filter (fun r => r.kind == 1)).zipIdx).map (fun r => ((saved[r.2]?).getD sl.pend.length, r.1.body))
  let fresh : Pend := { seq := sl.seq, due := .count 1, op := 0, ready := true, writes := [] }
  let ds := (recs.filter (fun r => r.kind == 2)).zipIdx
  { sl with
    pend := (List.range (sl.pend.length + 1)).flatMap (fun n =>
      let p := (sl.pend[n]?).getD fresh
      if p.known then p.join ((rs.filter (fun r => r.1 == n)).map (fun r => r.2)) else [p]),
    deferred := ds.map (fun d => match sl.deferred[d.2]? with
      | some e => { e with trap := trapOfBytes e.trap d.1.body }
      | none => { seq := sl.seq, flag := 15, trap := trapOfBytes { cause := .trap } d.1.body }) }

/-- The members that a slice mask names; a slice that was none joins with the flag of the others. -/
def loadMembers (l : List Token) (mask : Nat) : List Token :=
  (bitsSet 256 mask).map (fun i => ((l.find? (fun t => t.slice == i)).orElse (fun _ => l.head?.map (fun t => { t with slice := i }))).getD { slice := i, flag := 15, id := 0 })

/-- The operation that a record stands for: what every kind of it has in common (log entry 16). -/
structure SavedOp where
  id   : Nat
  iss  : Nat
  seq  : Nat
  pc   : W64
  word : W96
  desc : List W32
  toks : List Token
  deriving DecidableEq, Repr

/-- The operation of a saved record; none of a result or a deferred trap. -/
def State.savedOp (s : State) (b : Block) : PRec → Option SavedOp
  | .loom id | .drain id => (b.loomQ.find? (fun o => o.id == id)).map (fun o =>
      { id := id, iss := o.iss, seq := o.seq, pc := o.pc, word := o.word, desc := o.desc, toks := o.members })
  | .mxv id => (s.mxvs.find? (fun c => c.id == id)).map (fun c =>
      { id := id, iss := c.iss, seq := c.seq, pc := c.pc, word := c.word, desc := c.desc, toks := [c.tok] })
  | .engine id => (s.cmd id).map (fun c => { id := id, iss := c.iss, seq := c.seq, pc := c.pc, word := c.word, desc := c.desc, toks := [c.tok] })
  | _ => none

/-- The words of the descriptor of a record of an instruction word: as many as the saved operation has, or the instruction takes. -/
def SavedOp.descOf (o : SavedOp) (w : W96) (l : List Byte) : List W32 :=
  let n := if wordOpc w = wordOpc o.word then o.desc.length
    else ((opRow? (opKey (wordOpc w) (w.extractLsb' 13 6))).map (fun r => r.oa.dlen)).getD 0
  (wordsOf ((l.drop 16).take 64)).take n

/-- A Loom operation or a drain as a record stands; what no record holds is that of the saved operation. -/
def SavedOp.asLoom (o : SavedOp) (old : Option LoomOp) (seed : W64) (r : SavedRec) : LoomOp :=
  let w := BitVec.ofNat 96 (field r.body 0 12)
  let d := o.descOf w r.body
  let p : LoomOp := { (old.getD (LoomOp.make r.slice o.seq o.pc w d o.toks [] seed)) with
    id := o.id, iss := o.iss, slice := r.slice, word := w, desc := d, spans := loomSpans w d }
  if r.kind = 3 then { p with stage := .queued, members := loadMembers o.toks (field r.body 80 32) }
  else
    let x := wordOpc w = 0x189
    { p with
      stage := .draining, key := BitVec.ofNat 64 (field r.body 48 8),
      vals := if x then (wordsOf ((r.body.drop 56).take 512)).take 128 else p.vals, row := if x then field r.body 568 4 else p.row,
      buf := mofList 0 0 (wordsOf ((r.body.drop (if x then 572 else 56)).take (4 * (cornerRows d * cornerCols d)))) }

/-- An MXV call as a record stands. -/
def SavedOp.asMxv (o : SavedOp) (old : Option MxvCall) (bid : Nat) (r : SavedRec) : MxvCall :=
  let w := BitVec.ofNat 96 (field r.body 0 12)
  let d := o.descOf w r.body
  let c : MxvCall := old.getD (
    { id := o.id, iss := o.iss, bid := bid, slice := r.slice, seq := o.seq, pc := o.pc, word := w, desc := d,
      tok := { slice := r.slice, flag := 15, id := o.id }, bar := 0, regs := [], stage := 0, mill := false, rows := 0, seg := none, fault := none, spans := [] })
  { c with
    slice := r.slice, word := w, desc := d, spans := mxvSpans w d, rows := field r.body 112 4,
    tok := (loadMembers o.toks (field r.body 80 32)).headD { slice := r.slice, flag := 15, id := o.id },
    seg := c.seg.map (fun g => { g with first := field r.body 116 4, last := field r.body 120 4, kpos := field r.body 124 4,
                                        acc := mofList 0 0 (wordsOf ((r.body.drop 128).take 4096)) }) }

/-- The engine of a command's word and descriptor, and the spans it holds; a Crier command keeps those it has. -/
def engineOf (w : W96) (d : List W32) (old : Option EngCmd) : Eng × List Span :=
  let opc := wordOpc w
  if opc < 0x1C6 then (match old with
    | some { eng := .dray c, .. } => .dray c
    | _ => .dray 0, drayHeld w d)
  else if opc < 0x1CE then (.surveyor (unitOf (dW d (if opc = 0x1C6 then 12 else 0))), surveyorSpans opc d)
  else ((old.map (fun c => c.eng)).getD (.crier (crierOf (bitsOf (dW d 0) 5 0))), (old.map (fun c => c.spans)).getD [])

/-- An engine command as a record stands. -/
def SavedOp.asCmd (o : SavedOp) (old : Option EngCmd) (bid : Nat) (r : SavedRec) : EngCmd :=
  let w := BitVec.ofNat 96 (field r.body 0 12)
  let d := o.descOf w r.body
  let e := engineOf w d old
  let c : EngCmd := old.getD (
    { id := o.id, iss := o.iss, eng := e.1, bid := bid, slice := r.slice, seq := o.seq, pc := o.pc, word := w, desc := d, tag := none, cb := none,
      tok := { slice := r.slice, flag := 15, id := o.id }, stage := .queued, units := 0, part := 0, fault := none, phases := [], spans := [], bar := 0, arg := 0, mark := false })
  { c with
    eng := e.1, slice := r.slice, word := w, desc := d, spans := e.2, units := (field r.body 80 4 + 1) % 2 ^ 32,
    tag := if field r.body 84 1 = 0xFF then none else some (field r.body 84 1 % 64), cb := if field r.body 85 1 = 0xFF then none else some (field r.body 85 1 % 64),
    tok := { c.tok with slice := r.slice, flag := field r.body 86 1 % 16 } }

/-- A list in issue order with an element put in its place. -/
def putIss {α : Type} (iss : α → Nat) (x : α) (l : List α) : List α :=
  l.filter (fun y => decide (iss y < iss x)) ++ [x] ++ l.filter (fun y => decide (iss x < iss y))

/-- One pending record of the block taken back as it stands in the frame; those of a slice come with its record. Its KIND and its instruction word decide what
is performed; a record whose word its KIND does not hold performs nothing, and its flags are lowered (log entry 16). -/
def State.loadRec (s : State) (bid : Nat) (k : PRec) (r : SavedRec) : State :=
  match k with
  | .result .. | .deferred .. => s
  | .blockDeferred n =>
    if r.kind = 2 then s.modBlk bid (fun b => { b with blkDef := updAt (fun d => { d with trap := trapOfBytes d.trap r.body }) n b.blkDef }) else s
  | k =>
    match s.savedOp (s.blk bid) k with
    | none => s
    | some o =>
      let b := s.blk bid
      let opc := wordOpc (BitVec.ofNat 96 (field r.body 0 12))
      let oldL := b.loomQ.find? (fun p => p.id == o.id)
      let oldM := s.mxvs.find? (fun c => c.id == o.id)
      let oldC := s.cmd o.id
      let s := { s.modBlk bid (fun b => { b with loomQ := b.loomQ.filter (fun p => p.id != o.id) }) with
        mxvs := s.mxvs.filter (fun c => c.id != o.id), cmds := s.cmds.filter (fun c => c.id != o.id) }
      if (r.kind = 3 ∧ 0x180 ≤ opc ∧ opc ≤ 0x189) ∨ (r.kind = 4 ∧ (opc = 0x188 ∨ opc = 0x189)) then
        s.modBlk bid (fun b => { b with loomQ := putIss LoomOp.iss (o.asLoom oldL (s.launch bid).seed r) b.loomQ })
      else if r.kind = 3 ∧ opc = 0x18A then { s with mxvs := putIss MxvCall.iss (o.asMxv oldM bid r) s.mxvs }
      else if r.kind = 5 ∧ 0x1C0 ≤ opc ∧ opc ≤ 0x1D4 then { s with cmds := putIss EngCmd.iss (o.asCmd oldC bid r) s.cmds }
      else s.settleTokens bid o.toks

/-- The records of a block that its frame holds, each with what stands there now. -/
def State.savedRecs (s : State) (b : Block) : List (PRec × SavedRec) := (s.records b).zip (s.recsFrom b 0 (s.records b).length)

/-- Whether a block's frame refuses the resume (R340): a field outside its range, or a pending record of unknown kind, which KIND 0 and 6 to 255 are (R345). -/
def State.frameRefused (s : State) (b : Block) : Bool :=
  (List.range b.nsl).any (fun i => sliceRefused (b.sl i).ended (s.frameRead b (4096 + 1024 * i) 1024)) ||
    (s.savedRecs b).any (fun r => r.2.kind == 0 || decide (5 < r.2.kind))

/-- A slice as its frame stands: its record, its registers and its pending records. -/
def State.loadSlice (s : State) (b : Block) (i : Nat) (sl : Slice) : Slice :=
  let l := s.frameRead b (4096 + 1024 * i) 1024
  let n := field l 0x210 4
  (sl.load l (s.frameRead b (b.oreg + 4096 * i) 4096)).loadRecords (s.recsFrom b (field l 0x214 4) (n % 2 ^ 16 + n / 2 ^ 16))

/-- A block as its frame stands (R340). -/
def State.loadFrame (s : State) (bid : Nat) : State :=
  let b := s.blk bid
  let recs := s.savedRecs b
  let area := s.frameRead b 0 4096
  let bench := s.frameRead b b.oben (256 * b.bgr)
  let b1 := b.loadArea area bench (fun t => s.frameRead b (b.otil + 65536 * t) 65536)
  let b2 := { b1 with slices := b.slices.mapIdx (fun i sl => s.loadSlice b i sl) }
  recs.foldl (fun s r => s.loadRec bid r.1 r.2) (s.modBlk bid (fun _ => b2))

/-- The DISP byte of a block's frame (R339). -/
def State.frameDisp (s : State) (b : Block) : Nat := field (s.frameRead b 0x20 1) 0 1

end Sys2Proof.Machine
end

