-- ==== Sys2Proof/Machine/Blocks.lean ====
section
/-! DEFINITION. The Foreman's blocks: cores and partitions, admission and placement, stops, saves and restores, retirement, trap records and the
watchdog (R18 to R20, R28 to R31, R39, R206, R215, R302, R316 to R319, R326, R332 to R341). -/

namespace Sys2Proof.Machine

/-! ## What a core has free (R31) -/

/-- The cores a partition holds, ascending (R316). -/
def State.heldCores (s : State) (p : Nat) : List Nat := (List.range s.cores.length).filter (fun c => decide ((s.core c).holder = some p))
/-- Those of them that are not being taken from it: only they admit its blocks and host its grids. -/
def State.ownCores (s : State) (p : Nat) : List Nat := (s.heldCores p).filter (fun c => (s.core c).promised.isNone)

/-- The gang slots free in a section. -/
def Section.freeSlots (x : Section) : Nat := (x.slots.filter (fun y => y.gangs.isEmpty)).length

/-- What a block takes of a core: units, granules, tiles and gang slots. -/
structure Need where
  units : Nat
  gran  : Nat
  tiles : Nat
  gangs : Nat
  deriving DecidableEq, Repr

/-- A block is admitted only when all it takes is free at once (R31). -/
def State.fits (s : State) (core : Nat) (n : Need) : Bool :=
  let l := s.residents core
  decide (l.length < 16) && decide (sumNat (l.map (fun b => b.units)) + n.units ≤ 8192) &&
    decide (sumNat (l.map (fun b => b.bsize / 256 + 4)) + n.gran ≤ 8192) && decide (sumNat (l.map (fun b => b.tcount)) + n.tiles ≤ 8) &&
    decide (n.gangs ≤ sumNat ((s.core core).secs.map Section.freeSlots))

/-- The gangs of a launch's block: consecutive slices of one stage, eight at a time (R16, R19). -/
def stageGangs (first : Nat) : List StageRec → List (List Nat)
  | [] => []
  | t :: l => chunk 8 t.slc ((List.range t.slc).map (fun k => first + k)) ++ stageGangs (first + t.slc) l
def Launch.gangs (l : Launch) : List (List Nat) := stageGangs 0 l.stages

/-- What a new block takes, and what a saved one takes again (R319). -/
def Launch.need (l : Launch) : Need := { units := l.units, gran := l.granules, tiles := l.tc, gangs := l.gangs.length }
def Block.need (b : Block) : Need :=
  { units := b.units, gran := b.bsize / 256 + 4, tiles := b.tcount, gangs := (firstKeys (b.gangs.map (fun g => g.1))).length }

/-- The lowest place of a frame in a partition's context area (R333). -/
def State.framePlace (s : State) (p len : Nat) : Option Nat :=
  let a := s.part p
  (((List.range (a.len / 65536)).map (fun k => a.ctx + 65536 * k)).find? (fun x =>
    decide (x + len ≤ a.ctx + a.len) && s.frames.all (fun f => decide (x + len ≤ f.base) || decide (f.base + f.len ≤ x))))

/-! ## Extents at admission (R326) -/

/-- One page extends the newest extent of a table, or makes a new one. -/
def mergeExtent (l : List Extent) (e : Extent) : List Extent :=
  match l.getLast? with
  | some x =>
    if x.abs = e.abs ∧ x.attr = e.attr ∧ x.rd = e.rd ∧ x.w = e.w ∧ x.kid = e.kid ∧ x.ps = e.ps ∧ x.rix = e.rix ∧ e.vb = x.vb + x.npg + 1 ∧
        (x.abs = true ∨ e.pf = x.pf + x.npg + 1) ∧ x.npg + 1 < 2 ^ 28 then l.dropLast ++ [{ x with npg := x.npg + 1 }]
    else l ++ [e]
  | none => [e]

/-- Whether a range governs some byte of a page (R325). -/
def governs (ranges : List RangeRec) (rix page : Nat) : Bool :=
  (rangeSegs ranges page 65536).any (fun g => g.rix == some rix)

/-- n pages of a range walked for a block, until its table is full; a page that a lower range governs is not its own,
and one that fails otherwise than by absence is left to the access that meets it (R326). -/
def State.fillPages (s : State) (bid rix : Nat) (r : RangeRec) (page : Nat) : Nat → State
  | 0 => s
  | n + 1 =>
    let b := s.blk bid
    if 1024 ≤ b.extents.length then s
    else if !governs (s.launch bid).ranges rix (65536 * page) then s.fillPages bid rix r (page + 1) n
    else match s.walk b.part (65536 * page) false with
      | .error f =>
        (if f.cause = .pageAbsent then s.modBlk bid (fun b => { b with extents := mergeExtent b.extents (absentExtent page rix r) }) else s).fillPages
          bid rix r (page + 1) n
      | .ok l =>
        (if l.attr ≠ r.attr then s
          else ((s.keepWalk (65536 * page) 3 (s.root b.part)).touchLeaf l).modBlk bid (fun b =>
            { b with extents := mergeExtent b.extents (l.extent page rix r) })).fillPages bid rix r (page + 1) n

/-- The extents of a block filled from its declared ranges (R326). -/
def State.fillExtents (s : State) (bid : Nat) : State :=
  ((s.launch bid).ranges.zipIdx).foldl (fun s p => s.fillPages bid p.2 p.1 (p.1.vb / 65536) ((p.1.vb + p.1.len - 1) / 65536 + 1 - p.1.vb / 65536)) s

/-! ## Placement (R319, R321) -/

/-- The section with the most free slots, the lowest of equals. -/
def Core.bestSection (c : Core) : Option Nat := leastBy (fun k => 16 - ((c.secs[k]?).map Section.freeSlots).getD 0) (List.range c.secs.length)

/-- The slot of a section that takes more sub-gangs of a block where no slot is free: the one of its own placed in this rotation with the fewest. -/
def Section.joinSlot (x : Section) (bid : Nat) : Option Nat :=
  leastBy (fun n => ((x.slots[n]?).map (fun y => y.gangs.length)).getD 0)
    ((List.range x.slots.length).filter (fun n => ((x.slots[n]?).map (fun y => y.fresh && y.gangs.all (fun g => g.bid == bid))).getD false))

/-- A gang with its sub-gangs placed in the lowest-numbered free slot of a section; a section that had no gang begins at the device's time. Where the
section has no slot left, the sub-gangs share one of the block's (log entry 91). -/
def State.placeIn (s : State) (core k bid : Nat) (subs : List (List Nat)) : State :=
  let gs := subs.map (fun l => ({ bid := bid, slices := l } : Gang))
  let s := s.modSec core k (fun x =>
    let x := if x.slots.any (fun y => !y.gangs.isEmpty) then x else { x with time := max x.time s.clock }
    match x.slots.findIdx? (fun y => y.gangs.isEmpty) with
    | some n => x.modSlot n (fun _ => { gangs := gs, cur := 0, fresh := true })
    | none => match x.joinSlot bid with
      | some n => x.modSlot n (fun y => { y with gangs := y.gangs ++ gs })
      | none => x)
  s.forSlices bid subs.flatten (fun _ sl => { sl with sec := k })

/-- Gangs placed together in the section with the most free slots. -/
def State.placeGangs (s : State) (core bid : Nat) (l : List (List (List Nat))) : State :=
  match (s.core core).bestSection with
  | none => s
  | some k => l.foldl (fun s subs => s.placeIn core k bid subs) s
/-- One gang placed. -/
def State.placeGang (s : State) (core bid : Nat) (subs : List (List Nat)) : State := s.placeGangs core bid [subs]

/-! ## Admission (R17, R19, R25, R28 to R31, R333) -/

/-- The live positions of a slice of a block of T threads (R15). -/
def livePositions (t i : Nat) : BitVec 4 := BitVec.ofNat 4 (sumNat ((List.range 4).map (fun p => if 4 * i + p < t then 2 ^ p else 0)))

/-- The slices of a block at dispatch (R16, R17, R195). -/
def Launch.slices (l : Launch) : List Slice :=
  let strands := l.gangs
  let entry := (l.stages.zipIdx).flatMap (fun t => List.replicate t.1.slc (t.2, t.1))
  entry.zipIdx.map (fun e =>
    let m := livePositions l.threads e.2
    { Slice.blank with pc := l.kaddr + BitVec.ofNat 64 e.1.2.ent, stage := e.1.1, live := m, act := m, alloc := e.1.2.a,
                       strand := (strands.find? (fun g => g.contains e.2)).getD [e.2] })

/-- A new block of a grid on a core. -/
def State.newBlock (s : State) (g : Grid) (bnum core cfa : Nat) : Block :=
  let l := g.lr
  { Block.blank with bid := s.nextId, gid := g.gid, part := l.part, bnum := bnum, loc := .resident core, lcore := if l.det then bnum % l.lc else core, cfa := cfa,
                     nthr := l.threads, slices := l.slices, reserve := l.rsv, units := l.units, bsize := (l.bench + 255) / 256 * 256, tcount := l.tc,
                     held := BitVec.ofNat 8 (2 ^ l.tc - 1),
                     wdog := s.refTime }

/-- The Foreman gives a core to a partition (R316). -/
def State.hold (s : State) (core part : Nat) : State := s.modCore core (fun c => { c with holder := some part })

/-- The next block of a grid taken: of its logical core in a deterministic launch. -/
def Grid.taken (g : Grid) (bnum core : Nat) : Grid :=
  if g.lr.det then { g with nextL := updAt (fun n => n + g.lr.lc) (bnum % g.lr.lc) g.nextL, lastCore := some core }
  else { g with nextB := bnum + 1, lastCore := some core }

/-- A new block admitted onto a core: its frame reserved and zeroed, its slices placed, its extents filled (R302, R319, R326, R333). -/
def State.admitNew (s : State) (g : Grid) (bnum core cfa : Nat) : State :=
  let b := s.newBlock g bnum core cfa
  let len := g.lr.frameBytes
  let fr : Frame := { bid := b.bid, part := b.part, base := cfa, len := len }
  let s := { s with blocks := s.blocks ++ [b], nextId := s.nextId + 1, frames := s.frames ++ [fr] }
  let s := (s.homeWrite (s.part b.part).ckid cfa (List.replicate len 0)).hold core b.part
  let s := (s.modGrid g.gid (fun y => y.taken bnum core)).l1Acquire core
  (g.lr.gangs.foldl (fun (s : State) l => s.placeGang core b.bid [l]) s).fillExtents b.bid

/-! ## Which block comes next (R317, R318) -/

/-- A block that the Foreman may place: a new one, or a saved one. -/
inductive Cand where
  | new (bnum : Nat)
  | saved (bid : Nat)
  deriving DecidableEq, Repr

/-- The blocks of a grid that await restore: saved, resumed, and with no record of theirs held (R335, R338). -/
def State.awaiting (s : State) (g : Grid) : List Block :=
  s.blocks.filter (fun b => b.gid == g.gid && decide (b.loc = .saved) && b.resume && !s.recs.any (fun r => decide (r.bid = some b.bid)))

/-- The next block among some awaiting restore and some new ones (R317). -/
def nextCand (saved : List Block) (new : List Nat) : Option Cand :=
  match leastBy (fun (b : Block) => b.bnum) saved with
  | some b => some (.saved b.bid)
  | none => (leastBy (fun n => n) new).map .new

/-- Whether a host has reserved its places for a logical core of a grid, or other launches leave room to (R206; log entry 92). -/
def State.reservable (s : State) (g : Grid) (l core : Nat) : Bool :=
  (s.core core).wqres.contains (g.gid, l) ||
    (s.core core).wq.all (fun q => decide ((q.filter (fun e => decide (e.lcore = none))).length + s.reservedEntries core + g.lr.wqShare ≤ 1024))

/-- The queue entries of a logical core of a grid moved, in order, to a host. -/
def State.moveEntries (s : State) (gid l host : Nat) : State :=
  let mine := fun (e : WqEntry) => e.gid == gid && decide (e.lcore = some l)
  (List.range 4).foldl (fun s q =>
    let es := s.cores.flatMap (fun c => (c.queue q).filter mine)
    let s := { s with cores := s.cores.map (fun (c : Core) => c.setQueue q ((c.queue q).filter (fun e => !mine e))) }
    s.modCore host (fun c => c.setQueue q (c.queue q ++ es))) s

/-- A core without its reservation for a logical core of a grid. -/
def Core.unreserve (gid l : Nat) (c : Core) : Core := { c with wqres := c.wqres.filter (fun r => r != (gid, l)) }

/-- A host that can reserves its places for a logical core, and the entries move to it; another waits, and they stay (R206). -/
def State.reserve (s : State) (g : Grid) (l core : Nat) : State :=
  if (s.core core).wqres.contains (g.gid, l) || s.reservable g l core = false then s
  else (({ s with cores := s.cores.map (Core.unreserve g.gid l) }).modCore core (fun c => { c with wqres := c.wqres ++ [(g.gid, l)] })).moveEntries g.gid l core

/-- What a candidate takes, and whether its frame has a place. -/
def State.candNeed (s : State) (g : Grid) : Cand → Need
  | .new _ => g.lr.need
  | .saved bid => (s.blk bid).need
def State.candFrame (s : State) (g : Grid) : Cand → Bool
  | .new _ => (s.framePlace g.lr.part g.lr.frameBytes).isSome
  | .saved _ => true

/-- Whether a core admits a candidate. -/
def State.admits (s : State) (g : Grid) (core : Nat) (c : Cand) : Bool := s.fits core (s.candNeed g c) && s.candFrame g c

/-- The candidate of a grid that is not deterministic. -/
def State.freeCand (s : State) (g : Grid) : Option Cand := nextCand (s.awaiting g) (if g.nextB < g.lr.blocks then [g.nextB] else [])

/-- Cores in ascending order, beginning after the one that admitted the grid's previous block (R317). -/
def rotateAfter (last : Option Nat) (l : List Nat) : List Nat :=
  match last with
  | some c => l.filter (fun k => decide (c < k)) ++ l.filter (fun k => decide (k ≤ c))
  | none => l

/-- The candidate of a host of a deterministic grid, among the blocks of the logical cores whose places it can reserve (R206, R318). -/
def State.hostCand (s : State) (g : Grid) (core : Nat) : Option Cand :=
  let mine := fun (l : Nat) => decide (g.hosts[l]? = some core) && s.reservable g l core
  nextCand ((s.awaiting g).filter (fun b => mine b.lcore))
    ((g.nextL.zipIdx.filter (fun n => decide (n.1 < g.lr.blocks) && mine n.2)).map (fun n => n.1))

/-- The placement that a head grid allows: candidate and core. -/
def State.gridPick (s : State) (g : Grid) : Option (Cand × Nat) :=
  let cores := s.ownCores g.lr.part
  if g.ended then none
  else if g.lr.det then
    (if g.started then firstSome (fun c => match s.hostCand g c with
        | some k => if s.admits g c k then some (k, c) else none
        | none => none) (cores.filter (fun c => g.hosts.contains c))
      else none)
  else match s.freeCand g with
    | some k => ((rotateAfter g.lastCore cores).find? (fun c => s.admits g c k)).map (fun c => (k, c))
    | none => none

/-- The head grid of a ready queue. -/
def State.headGrid (s : State) (rq : Nat) : Option Grid :=
  match (s.ready[rq]?).getD [] with
  | gid :: _ => s.grids.find? (fun g => g.gid == gid)
  | [] => none

/-- The placement that comes next in a partition: the highest-priority ready queue whose head grid has a block that some core admits (R317). -/
def State.pick (s : State) (part : Nat) : Option (Grid × Cand × Nat) :=
  firstSome (fun i => match s.headGrid (4 * part + i) with
    | some g => (s.gridPick g).map (fun p => (g, p.1, p.2))
    | none => none) (List.range 4)

/-! ## Restore (R302, R318, R319, R335, R340) -/

/-- The gangs saved, slot by slot; slices that no longer share a program counter part (R20). -/
def State.savedGangs (s : State) (b : Block) : List (List (List Nat)) :=
  (firstKeys (b.gangs.map (fun g => g.1))).map (fun k =>
    (b.gangs.filter (fun g => g.1 == k)).flatMap (fun g => (Gang.byPc s { bid := b.bid, slices := g.2 }).map (fun y => y.slices)))

/-- Whether a strand joins a slice of one slot with one of another. -/
def Block.joined (b : Block) (x y : List (List Nat)) : Bool := x.flatten.any (fun i => y.flatten.any (fun j => (b.sl i).strand.contains j))

/-- Slots that strands join, together: a strand's slices stand in one section (R18, R20, R195; log entry 91). -/
def Block.groups (b : Block) : List (List (List Nat)) → List (List (List (List Nat)))
  | [] => []
  | x :: l =>
    let gs := b.groups l
    let near := fun (g : List (List (List Nat))) => g.any (fun y => b.joined x y)
    ((x :: l).filter (fun y => decide (y = x) || (gs.filter near).any (fun g => g.contains y))) :: gs.filter (fun g => !near g)

/-- A Dray command of a restored block belongs to its new core. -/
def EngCmd.moved (bid core : Nat) (c : EngCmd) : EngCmd :=
  if c.bid = bid then { c with absent := false, eng := match c.eng with
    | .dray _ => .dray core
    | e => e } else c

/-- An MXV call of a restored block goes on with its new core's registers, behind the accesses issued before it (R246); a segment on the Loom is accepted
anew, and a Mill segment's rows are decided again (R248, R302). -/
def MxvCall.moved (bid : Nat) (k : Core) (c : MxvCall) : MxvCall :=
  if c.bid = bid then { c with stage := if c.stage < 2 then 0 else 2, bar := 0, mill := false, regs := [k.mxvbat, k.mxvres, k.mxvq], xwin := none, absent := false,
                               seg := c.seg.bind (fun g => if g.mill then none else some { g with turn := 0 }) } else c

/-- A command of a saved block waits again. -/
def EngCmd.requeued (bid : Nat) (c : EngCmd) : EngCmd := if c.bid = bid then { c with stage := .queued } else c

/-- The slots of a core without a block's gangs. -/
def Core.withoutGangs (bid : Nat) (c : Core) : Core :=
  { c with secs := c.secs.map (fun x => { x with slots := x.slots.map (fun y => y.replace (fun g => if g.bid = bid then [] else [g])) }) }

/-- A core without the pins of some Loom operations. -/
def Core.withoutPins (ops : List Nat) (c : Core) : Core := { c with pins := c.pins.filter (fun p => !ops.contains p.op) }

/-- Whether a command waits for instructions of its block: ATNEXT and ATMRG. -/
def EngCmd.asks (c : EngCmd) : Bool := decide (wordOpc c.word = 0x1D0 ∨ wordOpc c.word = 0x1D3)

/-- The operations of a list of works, in issue order, that do not wait for a command that asks, each with its identity. -/
def freeWorks : List Work → List (Nat × Bool × Work) → List Nat
  | _, [] => []
  | held, (id, asks, w) :: l => if asks || held.any (fun p => w.after p) then freeWorks (w :: held) l else id :: freeWorks held l

/-- The pending records performed before any instruction of a restored block, in saved order; a command that waits for its block's own
instructions, and what waits for it in turn, is resumed beside these (R248, R259, R335; log entry 95). -/
def State.redoOf (s : State) (b : Block) : List Nat :=
  freeWorks [] ((s.savedOps b).filterMap (fun p => match p.2 with
    | .loom id | .drain id => (b.loomQ.find? (fun o => o.id == id)).map (fun o => (id, false, o.asWork))
    | .mxv id => (s.mxvs.find? (fun c => c.id == id)).map (fun c => (id, false, (c.asWork).headD { iss := 0, spans := [], must := false, absent := false }))
    | .engine id => (s.cmd id).map (fun c => (id, c.asks, c.asWork))
    | _ => none))

/-- A restored drain takes its turn at the drain buffer after those of its new core (R353), and an operation that met an absent page is tried again. -/
def LoomOp.moved (turn : Nat) (o : LoomOp) : LoomOp :=
  let o := { o with absent := false }
  if o.stage = .draining then { o with turn := turn } else o

/-- An operation that was accepted and could not complete is saved whole, as one that waits (R248). -/
def LoomOp.requeued (o : LoomOp) : LoomOp := if o.live then { o with stage := .queued, lines := [], entered := [], turn := 0 } else o

/-- What a memory instruction that waits in a saved block still has to reach, translated again at its restore; one whose page is absent by then waits, and
suspends its block (R331, R334). -/
def State.reachAgain (s : State) (bid i : Nat) (m : Mop) : State :=
  (m.accs.zipIdx.filter (fun p => !p.1.done && !m.kind.bench && decide (m.stage ≠ 5))).foldl (fun s p =>
    match s.walk (s.blk bid).part p.1.ea false with
    | .ok l => s.modMop bid i m.id (fun y =>
        { y with accs := updAt (fun a => { a with pa := 65536 * l.pf + a.ea % 65536, kid := l.kid, attr := l.attr }) p.2 y.accs })
    | .error f => (s.modMop bid i m.id (fun y => { y with absent := true })).suspend bid i 0 m.pc m.word f) (s.modMop bid i m.id (fun y => { y with absent := false }))
def State.reachMops (s : State) (bid : Nat) : State :=
  (s.blk bid).slices.zipIdx.foldl (fun s p => p.1.mops.foldl (fun s m => s.reachAgain bid p.2 m) s) s

/-- A saved block back on a core: its work goes on there. -/
def State.restoreOn (s : State) (bid core : Nat) : State :=
  let s := s.modBlk bid (fun b =>
    { b with loc := .resident core, lcore := if (s.grid b.gid).lr.det then b.lcore else core, stop := none, resume := false, bar := 0,
             wdog := s.refTime - b.wdog, gangs := [], redo := s.redoOf b, loomQ := b.loomQ.map (LoomOp.moved s.nextId) })
  let k := s.core core
  let s := { s with nextId := s.nextId + 1, cmds := s.cmds.map (EngCmd.moved bid core), mxvs := s.mxvs.map (MxvCall.moved bid k) }
  (s.hold core (s.blk bid).part).l1Acquire core

/-- The removal of everything a block has outside memory: gangs, commands, calls, pins, subscriptions, PV ownership and its frame. -/
def State.removeBlock (s : State) (bid : Nat) : State :=
  let b := s.blk bid
  let ops := b.loomQ.map (fun o => o.id)
  let s := s.freeSubs bid
  let s := { s with
    cores := s.cores.map (fun (c : Core) => (c.withoutPins ops).withoutGangs bid)
    cmds := s.cmds.filter (fun c => c.bid != bid)
    mxvs := s.mxvs.filter (fun c => c.bid != bid)
    pv := s.pv.filter (fun p => p.2.1 != bid)
    frames := s.frames.filter (fun f => f.bid != bid)
    blocks := s.blocks.filter (fun y => y.bid != bid) }
  s.freeCores

/-- A grid ends (R339 END, R403): every saved block of it is gone, every resident one stops and is gone once it has drained. -/
def State.endGrid (s : State) (gid : Nat) : State :=
  let s := s.modGrid gid (fun g => { g with ended := true })
  (s.blocks.filter (fun b => b.gid == gid)).foldl (fun s b => if b.loc = .saved then s.removeBlock b.bid else s.preempt b.bid) s

/-- A pre-empted block's frame is taken back as it stands; a resumed block's was when the resume was accepted (R340). -/
def State.takeBack (s : State) (bid : Nat) : Option State :=
  let b := s.blk bid
  if b.frState ≠ 1 then some s else if s.frameRefused b then none else some (s.loadFrame bid)

/-- A saved block restored onto a core. -/
def State.restoreBlock (s : State) (g : Grid) (bid core : Nat) : State :=
  match s.takeBack bid with
  | none => s.endGrid g.gid
  | some s =>
    let gangs := s.savedGangs (s.blk bid)
    let s := (s.restoreOn bid core).modGrid g.gid (fun y => { y with lastCore := some core })
    ((((s.blk bid).groups (gangs.filter (fun l => !l.isEmpty))).foldl (fun s l => s.placeGangs core bid l) s).fillExtents bid).reachMops bid

/-- The logical core of a candidate of a deterministic grid (R318). -/
def State.candCore (s : State) (g : Grid) : Cand → Nat
  | .new bnum => bnum % max 1 g.lr.lc
  | .saved bid => (s.blk bid).lcore

/-- A candidate placed, its host having reserved its logical core's places (R206). -/
def State.placeCand (s : State) (g : Grid) (c : Cand) (core : Nat) : State :=
  let s := if g.lr.det then s.reserve g (s.candCore g c) core else s
  match c with
  | .new bnum => match s.framePlace g.lr.part g.lr.frameBytes with
    | some cfa => s.admitNew g bnum core cfa
    | none => s
  | .saved bid => s.restoreBlock g bid core

/-- BLOCK_ADMISSION (R317 to R319): the partition's next placement, where it is a new block. -/
def State.blockAdmit (s : State) (part : Nat) : Option State :=
  match s.pick part with
  | some (g, .new n, core) => some (s.placeCand g (.new n) core)
  | _ => none

def execBlockAdmission (part : Nat) (s : State) : Host.Outcome State Fault Refusal := .next ((s.blockAdmit part).getD s)

/-- BLOCK_RESTORE (R335): the partition's next placement, where it is this saved block on this core. -/
def State.blockRestore (s : State) (bid core : Nat) : Option State :=
  match s.pick (s.blk bid).part with
  | some (g, .saved k, c) => if k = bid ∧ c = core then some (s.placeCand g (.saved bid) core) else none
  | _ => none

def execBlockRestore (bid core : Nat) (s : State) : Host.Outcome State Fault Refusal := .next ((s.blockRestore bid core).getD s)

/-! ## Deterministic grids (R206, R318) -/

/-- The logical cores of a deterministic grid bound to the cores its partition holds, each host reserving what it can. -/
def State.bindGrid (s : State) (g : Grid) : State :=
  let cores := s.ownCores g.lr.part
  let hosts := (List.range g.lr.lc).map (fun l => (cores[l % cores.length]?).getD 0)
  hosts.zipIdx.foldl (fun s h => s.reserve g h.2 h.1) (s.modGrid g.gid (fun y => { y with hosts := hosts, started := true }))

/-- DET_GRID_START (R206, R318): a deterministic grid at the head of its ready queue starts once its partition holds a core. -/
def State.detStart (s : State) (rq : Nat) : Option State :=
  match s.headGrid rq with
  | some g => if g.lr.det && !g.started && !g.ended && !(s.ownCores g.lr.part).isEmpty then some (s.bindGrid g) else none
  | none => none

def execDetGridStart (rq : Nat) (s : State) : Host.Outcome State Fault Refusal := .next ((s.detStart rq).getD s)

/-- A host taken from its partition: its logical cores are bound, ascending, to the remaining cores cyclically, and a grid left without a core waits for
one (R318). -/
def State.rebind (s : State) (part core : Nat) : State :=
  let rest := (s.ownCores part).filter (fun c => c != core)
  (s.grids.filter (fun g => g.lr.part == part && g.started && g.hosts.contains core)).foldl (fun s g =>
    if rest.isEmpty then s.modGrid g.gid (fun y => { y with started := false, hosts := [] })
    else
      let moved := (g.hosts.zipIdx.filter (fun h => h.1 == core)).map (fun h => h.2)
      moved.zipIdx.foldl (fun s m =>
        let host := (rest[m.2 % rest.length]?).getD 0
        (s.modGrid g.gid (fun y => { y with hosts := updAt (fun _ => host) m.1 y.hosts })).reserve g m.1 host) s) s

/-! ## Cores and partitions (R316) -/

/-- The head grid through which a partition wants a core, with the candidate that no core it holds can admit; none for a deterministic grid not
started, which a partition without a core wants one for. -/
def State.wish (s : State) (p : Nat) : Option (Nat × Grid × Option Cand) :=
  if (s.part p).limit ≤ (s.heldCores p).length then none
  else firstSome (fun i => match s.headGrid (4 * p + i) with
    | none => none
    | some g =>
      if g.ended then none
      else if g.lr.det then (if !g.started && (s.heldCores p).isEmpty then some (i, g, none) else none)
      else match s.freeCand g with
        | some k => if s.candFrame g k && !(s.ownCores p).any (fun c => s.fits c (s.candNeed g k)) then some (i, g, some k) else none
        | none => none) (List.range 4)

/-- A free core given to a partition: its block is admitted, or its deterministic grid starts. -/
def State.giveCore (s : State) (p core : Nat) (w : Nat × Grid × Option Cand) : State :=
  let s := s.hold core p
  match w.2.2 with
  | some k => s.placeCand w.2.1 k core
  | none => s.bindGrid w.2.1

/-- The lowest-numbered free core that is not taken for a partition. -/
def State.freeCore (s : State) : Option Nat :=
  (List.range s.cores.length).find? (fun c => decide ((s.core c).holder = none) && (s.core c).promised.isNone)

/-- The partition of a list that comes first under an order. -/
def firstUnder (lt : Nat → Nat → Bool) : List Nat → Option Nat
  | [] => none
  | x :: l => match firstUnder lt l with
    | some y => if lt y x then some y else some x
    | none => some x

/-- A core taken for a partition is given to it once its blocks are saved, where it still wants one (R316). -/
def State.grantTaken (s : State) (core p : Nat) : State :=
  let s := s.modCore core (fun k => { k with promised := none })
  match s.wish p with
  | some w => s.giveCore p core w
  | none => s

/-- A core taken from a partition for another: its logical cores are bound elsewhere, and every block on it is pre-empted. -/
def State.takeCore (s : State) (frm dest core : Nat) : State :=
  let s := (s.modCore core (fun k => { k with promised := some dest })).rebind frm core
  ((s.residents core).foldl (fun s b => s.preempt b.bid) s).freeCores

/-- The next decision of R316. -/
def State.grantNext (s : State) : Option State :=
  let held := fun (p : Nat) => (s.heldCores p).length
  let guar := fun (p : Nat) => (s.part p).guar
  let want := (List.range 16).filter (fun p => (s.wish p).isSome)
  let u := want.filter (fun p => decide (held p < guar p))
  match firstUnder (fun a b => decide (held a * guar b < held b * guar a)) u with
  | some p => match s.freeCore with
    | some c => (s.wish p).map (s.giveCore p c)
    | none =>
      match firstUnder (fun a b => decide (held a - guar a > held b - guar b) || (decide (held a - guar a = held b - guar b) && decide (b < a)))
          ((List.range 16).filter (fun q => decide (guar q < held q))) with
        | none => none
        | some q =>
          match firstUnder (fun a b => let la := (s.residents a).length
              let lb := (s.residents b).length
              decide (la < lb) || (decide (la = lb) && decide (b < a))) (s.heldCores q) with
          | none => none
          | some c => some (s.takeCore q p c)
  | none => match s.freeCore with
    | none => none
    | some c =>
      let pri := fun (p : Nat) => ((s.wish p).map (fun w => w.1)).getD 4
      match firstUnder (fun a b => decide (pri a < pri b) || (decide (pri a = pri b) && decide (held a < held b))) want with
      | some p => (s.wish p).map (s.giveCore p c)
      | none => none

/-- CORE_GRANT_DECISION (R316): one decision at a time, so that none is made while a core is being emptied for a partition. -/
def State.coreGrant (s : State) : Option State :=
  match (List.range s.cores.length).find? (fun c => (s.core c).promised.isSome) with
  | some c => if (s.core c).holder.isSome then none else some (s.grantTaken c ((s.core c).promised.getD 0))
  | none => s.grantNext

def execCoreGrantDecision (s : State) : Host.Outcome State Fault Refusal := .next (s.coreGrant.getD s)

/-! ## What is under way (R299, R332) -/

/-- The first handler of a queue that can go on. -/
def firstStep {α : Type} (l : List α) (go : Nat → Option State) : Option State := firstSome go (List.range l.length)

/-- A step of the memory system on its way (R288, R365, R366, R391). -/
def State.memoryStep (s : State) : Option State :=
  firstSome (fun f => f ()) [
    fun _ => firstStep s.ackQ s.dirAck,
    fun _ => firstStep s.recQ s.dirRecall,
    fun _ => firstStep s.dirQ s.dirRequest,
    fun _ => firstStep s.netw s.l2Receive,
    fun _ => firstStep s.atomQ s.atomNth,
    fun _ => firstStep s.addQ s.foldNth,
    fun _ => firstStep s.partQ s.foldPart]

/-- An operation of a slice that can go on (R117, R168). -/
def State.sliceStep (s : State) (bid i : Nat) : Option State :=
  firstSome (fun (m : Mop) => if m.kind = .divide then some (s.endOp bid i m (some m.values)) else s.mopStep bid i m) (s.sl bid i).mops

/-- Whether part of a block's drain has ended: work of it met an absent page, or a merge waits for other blocks (R334; log entry 47). -/
def State.stuck (s : State) (b : Block) : Bool :=
  b.loomQ.any (fun o => o.absent) || b.slices.any (fun sl => sl.mops.any (fun m => m.absent)) || s.mxvs.any (fun c => c.bid == b.bid && c.absent) ||
    s.cmds.any (fun c => c.bid == b.bid && (c.absent || (decide (wordOpc c.word = 0x1D3) && (s.crierCmd c).isNone)))

/-- Whether an accepted operation waits for a bench granule (R166, R231). -/
def State.loomHeld (s : State) (b : Block) (o : LoomOp) : Bool :=
  o.spans.any (fun p => !p.mem && s.engineHeld b.bid o.iss p.lo p.n p.write)

/-- Whether what remains of a stopping block's drain waits for work whose drain has ended: it stays as it stands, and goes on after the restore. -/
def State.behind (s : State) (b : Block) : Bool :=
  s.stuck b && s.memoryStep.isNone && (List.range b.nsl).all (fun i => (s.sliceStep b.bid i).isNone) &&
    b.loomQ.all (fun o => if o.isLopf then (s.lopfStep b.core b o).isNone else !o.live || s.loomHeld b o)

/-- Whether a stopping block has drained (R248, R259, R332): its memory instructions, accepted Loom operations, LOPFs, Mill segments and the Crier's posts,
frees and merges have completed; queued operations, drains, Loom segments and Dray and Surveyor commands stand as they are. -/
def State.drained (s : State) (b : Block) : Bool :=
  let calls := s.mxvs.filter (fun c => c.bid == b.bid)
  ((b.slices.all (fun sl => sl.mops.isEmpty) && b.loomQ.all (fun o => !o.live && !o.isLopf) && calls.all (fun c => !(c.seg.map (fun g => g.mill)).getD false)) ||
      s.behind b) &&
    calls.all (fun c => (s.mxvStep c).isNone) &&
    (s.cmds.filter (fun c => c.bid == b.bid)).all (fun c => decide (c.stage ≠ .finished) && (match c.eng with
      | .crier _ => (s.crierCmd c).isNone
      | _ => true))

/-- Whether the writes sent before a bound have been performed at .dev, those of the die that the block may have seen among them (R299). -/
def State.flushed (s : State) (core bar : Nat) : Bool := s.released core 3 bar

/-- Whether the cycle of the event that stopped a block is over on its core, so that no other event of that cycle can displace it (R332). -/
def State.settled (s : State) (b : Block) : Bool :=
  match b.stop with
  | some { state := _, trap := some _, cycle := n } =>
    (s.core b.core).secs.all (fun x => decide (n < x.time) || x.slots.all (fun y => y.gangs.isEmpty))
  | _ => true

/-- BLOCK_STOP (R302, R332): a stopped block that has drained has the dirty bytes of its core's L1 written back; the deferred trap that stopped it is
consumed. -/
def State.blockStopStep (s : State) (bid : Nat) : Option State :=
  let b := s.blk bid
  match b.loc with
  | .saved => none
  | .resident core =>
    if b.stop.isNone || b.bar != 0 || s.settled b = false || s.drained b = false then none
    else
      let s := (match b.stop.bind (fun st => st.trap) with
        | some t => s.consume bid t
        | none => s).l1FlushAll core
      some (s.modBlk bid (fun b => { b with bar := s.nextId }))

def execBlockStop (bid : Nat) (s : State) : Host.Outcome State Fault Refusal := .next ((s.blockStopStep bid).getD s)

/-! ## Save and retirement (R292, R302, R316, R329, R334) -/

/-- The gangs of a block on its core, slot by slot in the order of their lowest slice. -/
def State.gangsOf (s : State) (b : Block) (core : Nat) : List (Nat × List Nat) :=
  let slots := (s.core core).secs.flatMap (fun x => x.slots.map (fun y => (y.gangs.filter (fun g => g.bid == b.bid)).map (fun g => g.slices)))
  let low := fun (l : List (List Nat)) => (l.flatten).foldl min 256
  ((List.range b.nsl).flatMap (fun i => slots.filter (fun l => !l.isEmpty && low l == i))).zipIdx.flatMap (fun p => p.1.map (fun l => (p.2, l)))

/-- The dirty state of every extent of a block flushed, and the extents gone (R326, R329). -/
def State.dropExtents (s : State) (bid : Nat) : State :=
  let b := s.blk bid
  let s := b.extents.foldl (fun s e => let r := s.flushExtent b.part e
    { r.1 with dlost := r.1.dlost + r.2 }) s
  s.modBlk bid (fun b => { b with extents := [] })

/-- The lines of a block's PV frames dropped from its core's L1 (R302). -/
def State.dropPv (s : State) (bid core : Nat) : State :=
  let fr := (s.pv.filter (fun p => p.2.1 == bid)).map (fun p => p.1)
  s.modCore core (fun c => { c with l1 := c.l1.filter (fun x => !fr.contains (128 * x.line / 65536)) })

/-- BLOCK_SAVE (R302, R334, R342): a drained block written back leaves its core, and its frame is written. A block of an ended grid is gone instead
(R339). -/
def State.blockSave (s : State) (bid : Nat) : Option State :=
  let b := s.blk bid
  match b.loc, b.stop with
  | .resident core, some st =>
    if b.bar = 0 ∨ s.drained b = false ∨ s.flushed core b.bar = false then none
    else if (s.grid b.gid).ended then some (((s.dropExtents bid).dropPv bid core).removeBlock bid)
    else
      let gangs := s.gangsOf b core
      let s := (((s.dropExtents bid).dropPv bid core).saveSubs bid)
      let ops := b.loomQ.map (fun o => o.id)
      let s := { s with cmds := s.cmds.map (EngCmd.requeued bid), cores := s.cores.map (fun (c : Core) => (c.withoutPins ops).withoutGangs bid) }
      let s := s.modBlk bid (fun b =>
        { b with loc := .saved, loomQ := b.loomQ.map LoomOp.requeued, resume := decide (st.state = 1), frState := st.state, bar := 0, gangs := gangs, wdog := s.refTime - b.wdog })
      some ((s.writeFrame (s.blk bid) st.state).freeCores)
  | _, _ => none

def execBlockSave (bid : Nat) (s : State) : Host.Outcome State Fault Refusal := .next ((s.blockSave bid).getD s)

/-- The first count barrier that is not at rest (R215). -/
def Block.residue (b : Block) : Option Nat := (List.range 64).find? (fun n => decide ((b.cb n).c ≠ 0) || (b.cb n).p)

/-- A block's COUNT_RESIDUE at retirement: a record with no frame, and the chain ends with ST 3 (R215, R332). -/
def State.residueTrap (s : State) (b : Block) : State :=
  match b.residue with
  | none => s
  | some n =>
    (s.addRecord (some { b with cfa := 0 })
      { cause := .countResidue, kind := 2, info := 0x80 + n, info2 := (b.cb n).c + (if (b.cb n).p then 2 ^ 32 else 0) }).modGrid b.gid
      (fun g => { g with failed := true })

/-- Whether a block has nothing left to do (R39). -/
def State.blockDone (s : State) (b : Block) : Bool :=
  b.stop.isNone && b.slices.all (fun sl => sl.ended && sl.mops.isEmpty) && b.loomQ.isEmpty && !s.cmds.any (fun c => c.bid == b.bid) &&
    !s.mxvs.any (fun c => c.bid == b.bid)

/-- The L2 slices that a block's slices have touched (R45). -/
def Block.touched (b : Block) : W32 := b.slices.foldl (fun m sl => m ||| sl.tsm) 0

/-- BLOCK_RETIRE (R39, R215, R292, R302, R316): a block with nothing left to do has its core's L1 written back; once that is performed it returns what it
holds, after the check of its count barriers. -/
def State.blockRetire (s : State) (bid : Nat) : Option State :=
  let b := s.blk bid
  match b.loc with
  | .saved => none
  | .resident core =>
    if s.blockDone b = false then none
    else if b.bar = 0 then
      let s := (s.l1FlushAll core).drainUnits b.touched
      some (s.modBlk bid (fun b => { b with bar := s.nextId }))
    else if s.flushed core b.bar = false then none
    else
      let s := ((s.residueTrap b).dropExtents bid).dropPv bid core
      let s := s.modGrid b.gid (fun g => { g with retired := g.retired + 1 })
      some (s.removeBlock bid)

def execBlockRetire (bid : Nat) (s : State) : Host.Outcome State Fault Refusal := .next ((s.blockRetire bid).getD s)

/-! ## The trap log (R409) -/

/-- n bytes of the MRAM. -/
def State.mramRead (s : State) (a n : Nat) : List Byte := mgets 0 s.mram a n
def State.mramWrite (s : State) (a : Nat) (l : List Byte) : State := { s with mram := mputs 0 s.mram a l }

/-- CHK of a record: bytes 0–7 of SHAKE256 over bytes 0x00–0x6F. -/
def recordCheck (l : List Byte) : Nat := (Config.shake256 (l.take 112)).toNat % 2 ^ 64

/-- The SEQ of a slot that is valid (R409). -/
def State.slotSeq (s : State) (i : Nat) : Option Nat :=
  let l := s.mramRead (128 * i) 128
  if field l 0x70 1 = 0xA5 ∧ field l 0x78 8 = recordCheck l ∧ field l 0 8 ≠ 0 then some (field l 0 8) else none

/-- The valid slot of greatest SEQ, and its SEQ. -/
def State.lastSlot (s : State) : Option (Nat × Nat) :=
  (List.range 2048).foldl (fun acc i => match s.slotSeq i, acc with
    | some q, some (_, m) => if m < q then some (i, q) else acc
    | some q, none => some (i, q)
    | none, _ => acc) none

/-- The 8-byte writes of a commit in their order: CMT withdrawn, bytes 0x00–0x6F and 0x78–0x7F, CMT. -/
def State.commitWrites (s : State) (r : TrapRec) : List (Nat × List Byte) :=
  let slot := match s.lastSlot with
    | some (i, _) => (i + 1) % 2048
    | none => 0
  let l := recordBytes r
  let a := 128 * slot
  [(a + 0x70, bytesOf 8 0)] ++ (List.range 14).map (fun k => (a + 8 * k, (l.drop (8 * k)).take 8)) ++
    [(a + 0x78, bytesOf 8 (recordCheck l)), (a + 0x70, bytesOf 8 0xA5)]

/-- The first n writes of a commit. -/
def State.commitFirst (s : State) (r : TrapRec) (n : Nat) : State := ((s.commitWrites r).take n).foldl (fun s w => s.mramWrite w.1 w.2) s

/-! ## Trap records (R338) -/

/-- Whether a record is the physical function's. -/
def TrapRec.device (r : TrapRec) : Bool := r.trap.kind == 3

/-- The ring of a record. -/
def State.recRing (s : State) (r : TrapRec) : Ring := if r.device then s.host.pfTrap else (s.page r.part).trap
def State.modRecRing (s : State) (r : TrapRec) (f : Ring → Ring) : State :=
  if r.device then { s with host := { s.host with pfTrap := f s.host.pfTrap } } else s.modPage r.part (fun p => { p with trap := f p.trap })

/-- Whether a record may be written: no earlier record waits for its ring, and the block it stopped has been saved or is gone. -/
def State.recReady (s : State) (n : Nat) (r : TrapRec) : Bool :=
  !(s.recs.take n).any (fun y => y.device == r.device && (r.device || y.part == r.part)) &&
    !s.blocks.any (fun b => decide (r.bid = some b.bid) && decide (b.loc ≠ .saved) && b.trseq == r.seq)

/-- TRAP_RECORD_WRITE (R338, R409): record n is committed to the trap log where its cause asks for it, and then written to its ring, which it waits for
while the ring is full. No commit begins after PWRFAIL_N. -/
def State.recWrite (s : State) (n : Nat) : Option State :=
  match s.recs[n]? with
  | none => none
  | some r =>
    if s.recReady n r = false then none
    else if r.logged = false then
      (if s.host.pwrfail then none
        else some { (s.commitFirst r 17) with recs := updAt (fun y => { y with logged := true }) n s.recs })
    else
      let k := s.recRing r
      if (k.tail + 2 ^ 32 - k.head) % 2 ^ 32 = k.size then none
      else
        let a := k.base + 128 * (k.tail % max 1 k.size)
        match (if r.device then .ok (s.homeWrite 0 a (recordBytes r)) else s.writeVirt r.part a (recordBytes r)) with
        | .error _ => none
        | .ok s1 =>
          some (({ s1.modRecRing r (fun k => { k with tail := (k.tail + 1) % 2 ^ 32 }) with recs := s1.recs.eraseIdx n }).raiseMsi
            (if r.device then 0 else r.part + 1) k.vec)

def execTrapRecordWrite (n : Nat) (s : State) : Host.Outcome State Fault Refusal := .next ((s.recWrite n).getD s)

/-! ## The watchdog (R341) -/

/-- The microseconds for which no slice of a block has issued. -/
def State.idleTime (s : State) (b : Block) : Nat := (s.refTime - b.wdog) / (1000 * nanosecond)

/-- The address and word that a slice stands at: a held slice's waiting instruction, or its next instruction. -/
def State.standsAt (s : State) (core part : Nat) (sl : Slice) : W64 × W96 :=
  match sl.wait with
  | some w => (sl.pc - 12, w.word)
  | none => (sl.pc, match (s.fetch core part sl.pc.toNat).2 with
    | .ok w => w
    | .error _ => 0)

/-- WATCHDOG_EXPIRY (R341): a resident block none of whose slices has issued for %wdog microseconds stops. -/
def State.watchdog (s : State) (bid : Nat) : Option State :=
  let b := s.blk bid
  match b.loc, b.slices.findIdx? (fun sl => !sl.ended) with
  | .resident core, some i =>
    if s.mayTrap bid = false || s.wdogLim = 0 || decide (s.idleTime b < s.wdogLim.toNat) then none
    else
      let at_ := s.standsAt core b.part (b.sl i)
      some (s.blockTrap bid { cause := .watchdog, slc := i, pc := at_.1, tpc := at_.1, word := at_.2, info := wordOpc at_.2, info2 := s.idleTime b })
  | _, _ => none

def execWatchdogExpiry (bid : Nat) (s : State) : Host.Outcome State Fault Refusal := .next ((s.watchdog bid).getD s)

end Sys2Proof.Machine
end

