-- ==== Sys2Proof/Machine/Packed.lean ====
section
/-! DEFINITION. The packed integer, dot-product and predicate instructions of group 0x0C0 (R144 to R147). -/

namespace Sys2Proof.Machine

/-- The mode of VADD and VSUB in MOD[1:0] (R144): wrap, saturate, or halve an exact value. -/
def packedMode (ty : Ty) (mode w : Nat) (exact half : Int) : Int :=
  if mode = 0 then exact else if mode = 1 then clampInt (typeMin ty w) (typeMax ty w) exact else half / 2

/-- VADD (R144). -/
def execVadd (f : FormR) : State → Host.Outcome State Fault Refusal :=
  intInstr2 0x0C0 (fun x w a b => packedMode x.ty (x.mod 1 0) w (a + b) (a + b + 1)) f
/-- VSUB (R144). -/
def execVsub (f : FormR) : State → Host.Outcome State Fault Refusal :=
  intInstr2 0x0C1 (fun x w a b => packedMode x.ty (x.mod 1 0) w (a - b) (a - b)) f

/-- The lesser and the greater of two integers. -/
def minI (a b : Int) : Int := if b < a then b else a
def maxI (a b : Int) : Int := if a < b then b else a

/-- VMIN (R145): destructive. -/
def execVmin (f : FormR) : State → Host.Outcome State Fault Refusal :=
  regOp 0x0C2 f (fun x s i t =>
    [intOp2 x.ty (fun _ p q => minI p q) (x.d s i t) (intOp2 x.ty (fun _ p q => minI p q) (x.a s i t) (x.b s i t))])
/-- VMAX (R145): destructive. -/
def execVmax (f : FormR) : State → Host.Outcome State Fault Refusal :=
  regOp 0x0C3 f (fun x s i t =>
    [intOp2 x.ty (fun _ p q => maxI p q) (x.d s i t) (intOp2 x.ty (fun _ p q => maxI p q) (x.a s i t) (x.b s i t))])

/-- |a_j − b_j| of every element. -/
def absDiffs (ty : Ty) (a b : W32) : List Nat :=
  List.zipWith (fun p q => (elemInt ty ty.width p - elemInt ty ty.width q).natAbs) (elems ty.width a) (elems ty.width b)

/-- VABSD (R145): with MOD[0] the differences are added to the destination. -/
def execVabsd (f : FormR) : State → Host.Outcome State Fault Refusal :=
  regOp 0x0C4 f (fun x s i t =>
    let l := absDiffs x.ty (x.a s i t) (x.b s i t)
    [if x.md.getLsbD 0 then x.d s i t + BitVec.ofNat 32 (sumNat l) else packElems x.ty.width l])

/-- The dot product of R146. -/
def dotWord (ty : Ty) (w : Nat) (mix sat : Bool) (a b d : W32) : W32 :=
  let rd := fun (sg : Bool) (e : Nat) => if sg then signedOf w e else ((e % 2 ^ w : Nat) : Int)
  let s := d.toInt + (List.zipWith (fun p q => rd ty.signed p * rd (ty.signed != mix) q) (elems w a) (elems w b)).foldl (· + ·) 0
  BitVec.ofInt 32 (if sat then clampInt (-(2 ^ 31)) (2 ^ 31 - 1) s else s)

/-- VDOT4 (R146): destructive. -/
def execVdot4 (f : FormR) : State → Host.Outcome State Fault Refusal :=
  regOp 0x0C5 f (fun x s i t => [dotWord x.ty 8 (x.md.getLsbD 0) (x.md.getLsbD 1) (x.a s i t) (x.b s i t) (x.d s i t)])
/-- VDOT2 (R146): destructive. -/
def execVdot2 (f : FormR) : State → Host.Outcome State Fault Refusal :=
  regOp 0x0C6 f (fun x s i t => [dotWord x.ty 16 (x.md.getLsbD 0) (x.md.getLsbD 1) (x.a s i t) (x.b s i t) (x.d s i t)])

/-! ## Predicates (R147) -/

/-- A predicate instruction on OA and OB. -/
def predInstr (key : Nat) (g : Bool → Bool → Bool) (f : FormR) : State → Host.Outcome State Fault Refusal :=
  regOp key f (fun x s i t => [predWord (g (s.srcPred x.bid i t x.f.oa) (s.srcPred x.bid i t x.f.ob))])

/-- PAND (R147). -/
def execPand (f : FormR) : State → Host.Outcome State Fault Refusal := predInstr 0x0C7 (fun a b => a && b) f
/-- POR (R147). -/
def execPor (f : FormR) : State → Host.Outcome State Fault Refusal := predInstr 0x0C8 (fun a b => a || b) f
/-- PXOR (R147). -/
def execPxor (f : FormR) : State → Host.Outcome State Fault Refusal := predInstr 0x0C9 (fun a b => a != b) f
/-- PNOT (R147). -/
def execPnot (f : FormR) : State → Host.Outcome State Fault Refusal := predInstr 0x0CA (fun a _ => !a) f
/-- PMOV (R147). -/
def execPmov (f : FormR) : State → Host.Outcome State Fault Refusal := predInstr 0x0CB (fun a _ => a) f
/-- P2V (R147): p7 reads true. -/
def execP2v (f : FormR) : State → Host.Outcome State Fault Refusal :=
  regOp 0x0CC f (fun x s i t =>
    [BitVec.ofNat 32 (sumNat ((List.range 8).map (fun n => if (s.sl x.bid i).pred n t then 2 ^ n else 0)))])
/-- V2P (R147): the predicates p0 to p6 that b selects take the bits of a. -/
def execV2p (f : FormR) : State → Host.Outcome State Fault Refusal :=
  issueAll 0x0CD (.r f) (fun x s => x.put s (fun _ _ => []) (fun i t =>
    ((List.range 7).filter (fun n => (x.b s i t).getLsbD n)).map
      (fun n => { dest := .pred n t, mask := 0xFFFFFFFF, val := predWord ((x.a s i t).getLsbD n) })))

end Sys2Proof.Machine
end

