-- ==== Sys2Proof/Machine/CrossThread.lean ====
section
/-! DEFINITION. The cross-thread instructions and the generator instructions of group 0x0C0 (R148 to R155, R200). -/

namespace Sys2Proof.Machine

/-- The served slices in a slice's strand, over which gang positions are numbered (R148, R200). -/
def Ctx.crowd (x : Ctx) (s : State) (i : Nat) : List Nat := x.v.slices.filter (fun j => (s.sl x.bid i).strand.contains j)

/-- The gang position of a thread of a slice's crowd. -/
def Ctx.gpos (x : Ctx) (s : State) (i t : Nat) : Nat := 4 * (x.crowd s i).idxOf i + t

/-- The participants of a slice's crowd in ascending gang position: position, slice, thread (R148). -/
def Ctx.people (x : Ctx) (s : State) (i : Nat) : List (Nat × Nat × Nat) :=
  ((x.crowd s i).mapIdx (fun k j => (x.parts s j).map (fun t => (4 * k + t, j, t)))).flatten

/-- Whether a position of a slice holds no thread (R15); one that REFILL has filled is no longer vacant (R204), until the thread it
holds has exited (log entry 121). -/
def State.vacant (s : State) (bid i t : Nat) : Bool := decide ((s.blk bid).nthr ≤ threadNo i t) && !(s.sl bid i).live.getLsbD t

/-- The word of OA at a gang position, or the thread's own where the position does not exist or is vacant (R149). -/
def Ctx.fetchPos (x : Ctx) (s : State) (i t : Nat) (g : Int) : W32 :=
  let crowd := x.crowd s i
  if 0 ≤ g ∧ g < 4 * (crowd.length : Int) then
    let j := (crowd[g.toNat / 4]?).getD i
    let u := g.toNat % 4
    if s.vacant x.bid j u then x.a s i t else x.a s j u
  else x.a s i t

/-- SHFL (R149). -/
def execShfl (f : FormR) : State → Host.Outcome State Fault Refusal :=
  regOp 0x0CE f (fun x s i t =>
    let b := (x.b s i t).toNat
    let g := x.gpos s i t
    let m := x.mod 1 0
    [x.fetchPos s i t (if m = 0 then (b : Int) else if m = 1 then (g : Int) - b else if m = 2 then ((g + b : Nat) : Int)
      else ((Nat.xor g b : Nat) : Int))])

/-- BCAST (R150). -/
def execBcast (f : FormR) : State → Host.Outcome State Fault Refusal :=
  regOp 0x0D4 f (fun x s i t => [x.fetchPos s i t ((x.b s i t).toNat : Int)])

/-- VOTE (R151): all, any, uni, or the ballot of positions. -/
def execVote (f : FormR) : State → Host.Outcome State Fault Refusal :=
  regOp 0x0CF f (fun x s i _ =>
    let ps := (x.people s i).map (fun p => (p.1, s.srcPred x.bid p.2.1 p.2.2 x.f.oa))
    let m := x.mod 1 0
    [if m = 0 then predWord (ps.all (fun p => p.2))
      else if m = 1 then predWord (ps.any (fun p => p.2))
      else if m = 2 then predWord (ps.all (fun p => p.2) || ps.all (fun p => !p.2))
      else BitVec.ofNat 32 (sumNat (ps.map (fun p => if p.2 then 2 ^ p.1 else 0)))])

/-- MATCH (R152). -/
def execMatchLanes (f : FormR) : State → Host.Outcome State Fault Refusal :=
  regOp 0x0D0 f (fun x s i t =>
    [BitVec.ofNat 32 (sumNat ((x.people s i).map (fun p => if x.a s p.2.1 p.2.2 = x.a s i t then 2 ^ p.1 else 0)))])

/-- RANK (R152). -/
def execRank (f : FormR) : State → Host.Outcome State Fault Refusal :=
  regOp 0x0D2 f (fun x s i t =>
    [BitVec.ofNat 32 ((x.people s i).filter (fun p => decide (p.1 < x.gpos s i t) && decide (x.a s p.2.1 p.2.2 = x.a s i t))).length])

/-- The addition of PRFX: modulo 2^32, or RNE in FP32 (R153). -/
def prefixAdd (ty : Ty) (a b : W32) : W32 :=
  if ty = .f32 then BitVec.ofNat 32 (fAdd Fmt.f32 .rne false a.toNat b.toNat) else a + b

/-- The running sum over a list of words; none before the first, which enters unrounded, a NaN of FP32 being quiet (R71, R85, R153). -/
def prefixSum (ty : Ty) : List W32 → Option W32
  | [] => none
  | w :: ws => some (ws.foldl (prefixAdd ty) (if ty = .f32 then BitVec.ofNat 32 (quietF32 w.toNat) else w))

/-- PRFX (R153): inclusive, or exclusive with MOD[0]. -/
def execPrfx (f : FormR) : State → Host.Outcome State Fault Refusal :=
  regOp 0x0D1 f (fun x s i t =>
    let g := x.gpos s i t
    let ws := ((x.people s i).filter (fun p => decide (p.1 < g) || (!x.md.getLsbD 0 && decide (p.1 = g)))).map (fun p => x.a s p.2.1 p.2.2)
    [(prefixSum x.ty ws).getD 0])

/-- The lesser or greater of two words of a type, folded in ascending position (R154). -/
def extremum (ty : Ty) (isMax : Bool) (a b : W32) : W32 :=
  if ty = .f32 then BitVec.ofNat 32 (fMinMax Fmt.f32 isMax a.toNat b.toNat)
  else if isMax then (if elemInt ty 32 a.toNat < elemInt ty 32 b.toNat then b else a)
  else (if elemInt ty 32 b.toNat < elemInt ty 32 a.toNat then b else a)

/-- REDG (R154): a sum of products, or an extremum, whose fold begins with the first word against itself so that a lone NaN is quiet (R85). -/
def execRedg (f : FormR) : State → Host.Outcome State Fault Refusal :=
  regOp 0x0D3 f (fun x s i _ =>
    let ps := x.people s i
    [if x.mod 1 0 = 0 then
      (if x.ty = .f32 then
        BitVec.ofNat 32 (accBlock 0 (blockValue false scaleOne scaleOne
          (ps.map (fun p => (Fmt.f32.decode (x.a s p.2.1 p.2.2).toNat, Fmt.f32.decode (x.b s p.2.1 p.2.2).toNat)))))
      else (ps.map (fun p => x.a s p.2.1 p.2.2 * x.b s p.2.1 p.2.2)).foldl (· + ·) 0)
    else match ps.map (fun p => x.a s p.2.1 p.2.2) with
      | [] => 0
      | w :: ws => (w :: ws).foldl (extremum x.ty (decide (x.mod 1 0 = 2))) w])

/-- RNGK (R155). -/
def execRngk (f : FormR) : State → Host.Outcome State Fault Refusal :=
  regOp 0x0D5 f (fun x s i t =>
    [mGen (srKey (s.launch x.bid).seed ((x.b s i t).toNat % 2 ^ 16)) (x.src64 s i t x.f.oa)])
/-- HSHK (R155). -/
def execHshk (f : FormR) : State → Host.Outcome State Fault Refusal :=
  regOp 0x0D6 f (fun x s i t => [mGen (x.src64 s i t x.f.oa) ((x.b s i t).zeroExtend 64)])

end Sys2Proof.Machine
end

