-- ==== Sys2Proof/Machine/Host.lean ====
section
/-! DEFINITION. The host, the peers, firmware, power and the trap log: rings and registers, commands, BAR2, peer links, throttle steps and power
(R6, R264, R306, R330, R335, R339, R340, R385, R396, R398 to R410). -/

namespace Sys2Proof.Machine

/-- A host or platform event happens only while the device has power. -/
def State.whilePowered (s : State) (f : State → State) : Host.Outcome State Fault Refusal := .next (if s.host.powered then f s else s)
def State.modHost (s : State) (f : HostRegs → HostRegs) : State := { s with host := f s.host }

/-! ## Rings (R402, R403) -/

/-- A tail write: the entries from the old tail are posted, or it is refused. -/
def Ring.doorbell (r : Ring) (t : Nat) : Ring :=
  if r.size < (t + 2 ^ 32 - r.head) % 2 ^ 32 then { r with err := if bitOf r.err 0 then r.err else r.err + 1 } else { r with tail := t }
/-- A write of the 64-bit base and the 32-bit size: the ring is empty, with no error. -/
def Ring.setup (r : Ring) (base size : Nat) : Ring := { r with base := base % 2 ^ 64, size := size % 2 ^ 32, head := 0, tail := 0, err := 0 }

/-- QUEUE_DOORBELL (R310, R402): queue 64 + n is queue n posted by the physical function, whose launches are privileged (log entry 50). -/
def State.queueDoorbell (s : State) (queue tail : Nat) : State :=
  let q := queue % 64
  let t := tail % 2 ^ 32
  let r := s.queueRing q
  let r1 := r.doorbell t
  let s1 := s.modQueue q (fun _ => r1)
  if r1.tail ≠ t then s1
  else
    let old := (r.tail + 2 ^ 32 - r.head) % 2 ^ 32
    let new := (t + 2 ^ 32 - r.head) % 2 ^ 32
    let kept := s.host.pfPosts.filter (fun p => p.1 != q || decide ((p.2 + 2 ^ 32 - r.head) % 2 ^ 32 < min old new))
    let added := (List.range (new - old)).map (fun k => (q, (r.tail + k) % 2 ^ 32))
    s1.modHost (fun h => { h with pfPosts := kept ++ (if 64 ≤ queue then added else []) })

def execQueueDoorbell (queue tail : Nat) (s : State) : Host.Outcome State Fault Refusal := s.whilePowered (fun s => s.queueDoorbell queue tail)

/-- QUEUE_RING_SETUP (R402). -/
def execQueueRingSetup (queue base size : Nat) (s : State) : Host.Outcome State Fault Refusal :=
  s.whilePowered (fun s => (s.modQueue (queue % 64) (fun r => r.setup base size)).modHost (fun h =>
    { h with pfPosts := h.pfPosts.filter (fun p => p.1 != queue % 64) }))

/-- COMMAND_DOORBELL (R403). -/
def execCommandDoorbell (tail : Nat) (s : State) : Host.Outcome State Fault Refusal :=
  s.whilePowered (fun s => s.modHost (fun h => { h with ring := h.ring.doorbell (tail % 2 ^ 32) }))

/-- COMMAND_RING_SETUP (R403): a command that the ring holds is no longer performed. -/
def execCommandRingSetup (base size : Nat) (s : State) : Host.Outcome State Fault Refusal :=
  s.whilePowered (fun s => { s.modHost (fun h => { h with ring := h.ring.setup base size, saving := none }) with retiring := none, shooting := none })

/-! ## Registers without a row of their own (R400, R402, R403) -/

/-- A trap ring's register written: base and size empty the ring, TRTAIL is read-only. -/
def Ring.trapWrite (r : Ring) (off v : Nat) : Ring :=
  if off = 0x100 then r.setup v r.size
  else if off = 0x108 then { r with size := v % 2 ^ 32, head := 0, tail := 0, err := 0 }
  else if off = 0x10C then { r with head := v % 2 ^ 32 }
  else if off = 0x114 then { r with vec := v % 2 ^ 32 }
  else r

/-- A partition page's register written; read-only registers and those with rows of their own stay. -/
def PartPage.regWrite (p : PartPage) (off v : Nat) : PartPage :=
  if off < 0x100 ∧ off % 0x40 = 0x14 then { p with queues := updAt (fun r => { r with vec := v % 2 ^ 32 }) (off / 0x40) p.queues }
  else if 0x100 ≤ off ∧ off < 0x118 then { p with trap := p.trap.trapWrite off v }
  else if off = 0x120 then { p with vapb := v }
  else if 0x200 ≤ off ∧ off < 0x220 ∧ off % 8 = 0 then { p with nonce := p.nonce.take (off - 0x200) ++ bytesOf 8 v ++ p.nonce.drop (off - 0x200 + 8) }
  else if off = 0x220 then { p with repaddr := v }
  else p

/-- REGISTER_WRITE (R400, R402, R403): function 0 is PF BAR0, n + 1 the BAR0 of VF n, and 17 stands for the PF's own trap ring (log entry 51). -/
def State.registerWrite (s : State) (fn off value : Nat) : State :=
  let v := value % 2 ^ 64
  if fn = 0 then
    (if off = 0x08 then s.modHost (fun h => { h with fwlen := v % 2 ^ 32 })
      else if off = 0x48 then s.modHost (fun h => { h with hwbase := v })
      else if off = 0x50 then s.modHost (fun h => { h with apbase := v })
      else if off = 0x1014 then s.modHost (fun h => { h with ring := { h.ring with vec := v % 2 ^ 32 } })
      else if 0x10000 ≤ off ∧ off < 0x20000 then s.modPage ((off - 0x10000) / 0x1000) (fun p => p.regWrite (off % 0x1000) v)
      else s)
  else if fn ≤ 16 then s.modPage (fn - 1) (fun p => p.regWrite off v)
  else if fn = 17 then s.modHost (fun h => { h with pfTrap := h.pfTrap.trapWrite off v })
  else s

def execRegisterWrite (fn off value : Nat) (s : State) : Host.Outcome State Fault Refusal := s.whilePowered (fun s => s.registerWrite fn off value)

/-! ## What the host reads in BAR0 (R399, R400, R402, R403, R409) -/

/-- The control page (R400). -/
def State.controlPage (s : State) : List Byte :=
  let h := s.host
  layout 0x800 [(0x00, 1, h.fwst), (0x01, 1, h.fwrsn), (0x02, 1, h.fwch), (0x08, 4, h.fwlen), (0x10, 1, h.step), (0x11, 1, h.stepcap + boolBit h.thcrit 3),
    (0x14, 2, wrapTo 16 h.temp), (0x18, 4, h.pwr), (0x20, 4, h.thev), (0x28, 8, h.cecc), (0x30, 8, h.lrty), (0x38, 8, h.dcor),
    (0x40, 4, natOfBytes (h.links.map (BitVec.ofNat 8))), (0x48, 8, h.hwbase), (0x50, 8, h.apbase)] ++ (List.range 0x800).map Config.certByte

/-- A ring's registers from an offset: base, size, head, tail and vector (R402, R403). -/
def Ring.fields (r : Ring) (o : Nat) : List (Nat × Nat × Nat) := [(o, 8, r.base), (o + 8, 4, r.size), (o + 0x0C, 4, r.head), (o + 0x10, 4, r.tail), (o + 0x14, 4, r.vec)]

/-- A partition page (R402). -/
def PartPage.bytes (p : PartPage) : List Byte :=
  layout 0x1000 (p.queues.zipIdx.flatMap (fun q => q.1.fields (0x40 * q.2) ++ [(0x40 * q.2 + 0x18, 4, q.1.err)]) ++ p.trap.fields 0x100 ++
    [(0x120, 8, p.vapb), (0x128, 8, p.aperr), (0x200, 32, natOfBytes p.nonce), (0x220, 8, p.repaddr), (0x22C, 4, p.atst)])

/-- n bytes of the PF's BAR0, or of a VF's, which is its partition page (R399). -/
def State.barRead (s : State) (fn off n : Nat) : List Byte :=
  let page : List Byte × Nat :=
    if fn ≠ 0 then ((s.page (fn - 1)).bytes, 0)
    else if off < 0x1000 then (s.controlPage, 0)
    else if off < 0x2000 then (layout 0x1000 (s.host.ring.fields 0 ++ [(0x18, 4, s.host.ring.err)]), 0x1000)
    else if 0x10000 ≤ off ∧ off < 0x20000 then ((s.page ((off - 0x10000) / 0x1000)).bytes, off / 0x1000 * 0x1000)
    else if 0x40000 ≤ off ∧ off < 0x80000 then (mgets 0 s.mram (off - 0x40000) n, off)
    else ([], off)
  (page.1.drop (off - page.2)).take n

/-! ## Commands (R403) -/

/-- What a command comes to: it waits, is done, or is refused with a reason. -/
inductive CmdEnd where
  | wait (s : Option State)
  | done (s : State)
  | refused (s : State) (rsn : Nat)

/-- The defined bits of a command's body: first bit and width. -/
def bodyFields (op : Nat) : List (Nat × Nat) :=
  if op = 1 then [(0, 256)]
  else if op = 2 then [(0, 64), (64, 4)]
  else if op = 3 then [(0, 4), (64, 64), (128, 64), (192, 38), (232, 6)]
  else if op = 4 then [(0, 64), (64, 64)]
  else if op = 5 then [(0, 6), (64, 64)]
  else if op = 6 then [(0, 6)]
  else if op = 7 then [(0, 6), (64, 64), (128, 64)]
  else if op = 8 ∨ op = 9 then [(0, 4)]
  else if op = 10 then [(0, 5)]
  else []

/-- Whether every reserved bit of an entry is zero. -/
def entryOk (op : Nat) (l : List Byte) : Bool :=
  let body := field l 0 32
  decide (sumNat ((bodyFields op).map (fun f => body / 2 ^ f.1 % 2 ^ f.2 * 2 ^ f.1)) = body) && decide (field l 0x21 7 = 0) && decide (field l 0x2A 22 = 0)

/-- The entry at the head of the command ring. -/
def State.cmdAddr (s : State) : Nat := s.host.ring.base + 64 * (s.host.ring.head % max 1 s.host.ring.size)
def State.cmdEntry (s : State) : List Byte := (s.recallSpan s.cmdAddr 64).homeBytes 0 s.cmdAddr 64
/-- Bytes written into the entry at the head, behind the partials of its line (R367). -/
def State.cmdWrite (s : State) (o : Nat) (l : List Byte) : State := (s.recallSpan s.cmdAddr 64).homeWrite 0 (s.cmdAddr + o) l
def State.cmdPosted (s : State) : Bool := s.host.powered && decide (0 < s.host.ring.size) && s.host.ring.head != s.host.ring.tail

/-- The end of the command at the head, of which nothing is under way any more: its status written at .sys, the next entry, and CRVEC. -/
def State.cmdEnd (s : State) (st rsn : Nat) : State :=
  let s := s.cmdWrite 0x28 (bytesOf 2 (st + 2 ^ 8 * rsn))
  let s := { s.modHost (fun h => { h with ring := { h.ring with head := (h.ring.head + 1) % 2 ^ 32 }, saving := none }) with shooting := none, retiring := none }
  s.raiseMsi 0 s.host.ring.vec

/-- The command at the head refused; a shoot-down's ST is written in its own field also (R330, R403). -/
def State.cmdRefused (s : State) (op rsn : Nat) : State :=
  (if op = 1 then s.cmdWrite 0x18 (bytesOf 1 2) else s).cmdEnd 2 rsn

/-- The command at the head performed, where its OP is among those given: one with a reserved bit set is refused with RSN 0x01. -/
def State.command (s : State) (ops : Nat → Bool) (f : State → List Byte → CmdEnd) : Option State :=
  if s.cmdPosted = false then none
  else
    let l := s.cmdEntry
    let op := field l 0x20 1
    if ops op = false then none
    else if entryOk op l = false then some (s.cmdRefused op 0x01)
    else match f s l with
      | .wait r => r
      | .done s1 => some (s1.cmdEnd 1 0)
      | .refused s1 rsn => some (s1.cmdRefused op rsn)

/-! ## Shoot-down (R330) -/

/-- The frames that an extent maps pages lo to lo + n - 1 to. -/
def Extent.frames (e : Extent) (lo n : Nat) : List Nat :=
  if e.abs then [] else
    let a := max lo e.vb
    (List.range (min (lo + n) (e.vb + e.npg + 1) - a)).map (fun k => e.pf + (a - e.vb) + k)

/-- The frames of a range in the selected partitions: those that extents of resident blocks map it to, and those whose leaves stand. -/
def State.rangeFrames (s : State) (sel : Nat → Bool) (lo n : Nat) : List Nat :=
  (s.blocks.filter (fun b => sel b.part)).flatMap (fun b => b.extents.flatMap (fun e => e.frames lo n)) ++
    ((List.range 16).filter sel).flatMap (fun p => (List.range n).filterMap (fun k => (s.leafFrame (65536 * (lo + k)) 3 (s.root p)).map (fun l => l.2)))
/-- Whether a page of the range has no valid leaf, so that blocks which are saved or gone may have left lines of a frame that nothing names any more (R331). -/
def State.rangeOpen (s : State) (sel : Nat → Bool) (lo n : Nat) : Bool :=
  (List.range 16).any (fun p => sel p && (List.range n).any (fun k => (s.leafFrame (65536 * (lo + k)) 3 (s.root p)).isNone))

/-- Whether an access to an address and under a key that `hit` names has been translated and is not yet performed at .dev, the reads of pinned lines among
them. -/
def State.underWay (s : State) (hit : Nat → Nat → Bool) : Bool :=
  (s.netw ++ s.l2w).any (fun w => hit (128 * w.line) w.kid) || s.addQ.any (fun a => hit a.pa a.kid) ||
    s.cores.any (fun c => c.pins.any (fun p => hit (128 * p.line) p.kid)) ||
    s.blocks.any (fun b => b.slices.any (fun sl => sl.mops.any (fun m => !m.kind.bench && m.accs.any (fun a => !a.done && hit a.pa a.kid))))

/-- A line of a core's L1 written back, and dropped where `drop` says. -/
def State.l1Back (s : State) (core : Nat) (drop : Bool) (x : L1Line) : State :=
  if drop then s.flushL1 core x.line else s.writeBackL1 core x (BitVec.allOnes 128)

/-- The lines of every core's L1 that `hit` names written back, and dropped where `drop` says. -/
def State.l1BackAll (s : State) (drop : Bool) (hit : L1Line → Bool) : State :=
  (List.range s.cores.length).foldl (fun s c => ((s.core c).l1.filter hit).foldl (fun s x => s.l1Back c drop x) s) s

/-- The extents of blocks that `hit` names flushed and discarded, with the dirty states dropped counted (R326, R329). -/
def State.discardExtents (s : State) (hit : Block → Extent → Bool) : State :=
  s.blocks.foldl (fun s b =>
    let s := (b.extents.filter (hit b)).foldl (fun s e => let r := s.flushExtent b.part e
      { r.1 with dlost := r.1.dlost + r.2 }) s
    s.modBlk b.bid (fun b => { b with extents := b.extents.filter (fun e => !hit b e) })) s

/-- The fetch translations that `hit` names discarded. -/
def State.discardFetch (s : State) (hit : ITrans → Bool) : State :=
  { s with cores := s.cores.map (fun c => { c with itlb := c.itlb.filter (fun t => !hit t) }) }

/-- What the L1s and the L2s still hold of a range once its accesses are performed: with L1W every clean copy is dropped, with L2W dirty lines go to the L3 with
the partials of their slots. Where a page has no leaf any more, lines of every frame go, which a cache may write back or drop at any time (R288, R331; log entry 72). -/
def State.rangeCaches (s : State) (c : Nat) (fr : List Nat) (all : Bool) : State :=
  let hit := fun (line : Nat) => all || fr.contains (128 * line / 65536)
  let s := if bitOf c 5 && all then { s with cores := s.cores.map (fun k => { k with l1 := k.l1.filter (fun x => x.dirty != 0) }) } else s
  if bitOf c 6 then
    let s := ((s.partials ++ s.partQ).filter (fun p => hit p.line)).foldl (fun s p => s.recallLine p.line p.kid) s
    (s.l2.filter (fun x => hit x.line)).foldl State.writeBackL2 s
  else s

/-- A shoot-down (R330): from its first step on blocks make no new access through extents that overlap the range; the dirty bytes of the range go to memory, and once
every access under way is performed its extents and fetch translations are discarded. -/
def State.shootdown (s : State) (l : List Byte) : CmdEnd :=
  let vb := field l 0 8
  let len := field l 8 8
  let c := field l 0x10 8
  let sel := shootsPart c
  if decide (2 ^ 7 ≤ c) || decide (len = 0) || len % 65536 != 0 || vb % 65536 != 0 || decide (2 ^ 52 < vb + len) then .refused s 0x02
  else
    let lo := vb / 65536
    let n := len / 65536
    if s.shooting ≠ some (lo, n, c) then .wait (some { s with shooting := some (lo, n, c) })
    else
      let fr := s.rangeFrames sel lo n
      let mine := fun (x : L1Line) => fr.contains (128 * x.line / 65536) && (x.dirty != 0 || bitOf c 5)
      if s.cores.any (fun k => k.l1.any mine) then .wait (some (s.l1BackAll (bitOf c 5) mine))
      else if s.underWay (fun pa _ => fr.contains (pa / 65536)) then .wait none
      else
        let s := s.rangeCaches c fr (s.rangeOpen sel lo n)
        let s := s.discardExtents (fun b e => sel b.part && e.meetsPages lo n)
        let s := s.discardFetch (fun t => sel t.part && decide (lo ≤ t.page) && decide (t.page < lo + n))
        .done ({ s with walkCache := [], dlost := 0 }.cmdWrite 0x18 (bytesOf 8 (1 + 2 ^ 8 * min s.dlost (2 ^ 32 - 1))))

/-- CMD_SHOOTDOWN (R330). -/
def State.cmdShootdown (s : State) : Option State := s.command (fun op => op == 1) State.shootdown
def execCmdShootdown (s : State) : Host.Outcome State Fault Refusal := .next (s.cmdShootdown.getD s)

/-! ## The other commands (R335, R339, R340, R396, R403, R404) -/

/-- A resume (R335, R339, R340): the frame is taken back as it stands, END or a refusing field ends the grid. A block whose resume needs no command, or was
accepted already, is left as it is (log entry 52). -/
def State.resume (s : State) (l : List Byte) : CmdEnd :=
  match s.blocks.find? (fun b => decide (b.loc = .saved) && b.part == bitsOf (field l 8 8) 3 0 && b.cfa == field l 0 8) with
  | none => .refused s 0x04
  | some b =>
    if b.resume then .done s
    else
      let disp := s.frameDisp b
      if 2 ≤ disp ∨ s.frameRefused b then .done (s.endGrid b.gid)
      else .done ((s.loadFrame b.bid).modBlk b.bid (fun b => b.resumeDisp disp))

/-- CMD_RESUME (R335). -/
def State.cmdResume (s : State) : Option State := s.command (fun op => op == 2) State.resume
def execCmdResume (s : State) : Host.Outcome State Fault Refusal := .next (s.cmdResume.getD s)

/-- A partition's table entry set (R316, R323, R333). -/
def State.setPart (s : State) (l : List Byte) : CmdEnd :=
  let p := bitsOf (field l 0 8) 3 0
  let w := field l 0x18 8
  let e : Part := { root := field l 8 8, ctx := field l 0x10 8, len := bitsOf w 31 0, guar := bitsOf w 37 32, limit := bitsOf w 45 40, ckid := (s.part p).ckid }
  let old := s.part p
  let busy := s.blocks.any (fun b => b.part == p) || s.parked.any (fun k => k.part == p)
  if e.limit < e.guar ∨ 32 < e.limit ∨ 32 < sumNat ((List.range 16).map (fun q => if q = p then e.guar else (s.part q).guar)) then .refused s 0x02
  else if busy && (old.root != e.root || old.ctx != e.ctx || old.len != e.len) then .refused s 0x03
  else .done { s with parts := updAt (fun _ => e) p s.parts, walkCache := [] }

/-- CMD_PARTITION (R403). -/
def State.cmdPartition (s : State) : Option State := s.command (fun op => op == 3) State.setPart
def execCmdPartition (s : State) : Host.Outcome State Fault Refusal := .next (s.cmdPartition.getD s)

/-- The frame attribute table set (R290): its base is a multiple of 64 KiB. -/
def State.setAttrTable (s : State) (l : List Byte) : CmdEnd :=
  if field l 0 8 % 65536 ≠ 0 then .refused s 0x02
  else if !s.blocks.isEmpty then .refused s 0x03
  else .done ({ s with fatb := field l 0 8, fn := field l 8 8 } : State).dropWo

/-- CMD_ATTRIBUTE_TABLE (R403). -/
def State.cmdAttributeTable (s : State) : Option State := s.command (fun op => op == 4) State.setAttrTable
def execCmdAttributeTable (s : State) : Host.Outcome State Fault Refusal := .next (s.cmdAttributeTable.getD s)

/-- A key loaded (R395, R403): 64 bytes of material read once from host memory, which nothing constrains (log entry 9). -/
def State.loadKey (s : State) (l : List Byte) : CmdEnd :=
  let k := bitsOf (field l 0 8) 5 0
  if s.keys.any (fun e => e.1 == k) then .refused s 0x03
  else .done { s with keys := s.keys ++ [(k, (List.range 64).map (fun i => s.hostByte (field l 8 8 + i)))], free := s.free + 1 }

/-- CMD_LOAD_KEY (R403). -/
def State.cmdLoadKey (s : State) : Option State := s.command (fun op => op == 5) State.loadKey
def execCmdLoadKey (s : State) : Host.Outcome State Fault Refusal := .next (s.cmdLoadKey.getD s)

/-- A key identifier retired (R396): from the command's first step on walks under it fail and new accesses under it wait; once the accesses already translated under
it are performed, its lines are written back and dropped, its directory entries freed and the key unloaded, so that those that waited fail. Extents under it are
discarded then (log entry 53). -/
def State.retireKey (s : State) (l : List Byte) : CmdEnd :=
  let k := bitsOf (field l 0 8) 5 0
  if !s.keys.any (fun e => e.1 == k) then .refused s 0x04
  else if s.retiring ≠ some k then .wait (some { s.discardFetch (fun t => t.kid == k) with retiring := some k })
  else if s.underWay (fun _ kid => kid == k) || s.dirQ.any (fun r => r.kid == k) || s.recQ.any (fun r => r.kid == k) || s.ackQ.any (fun r => r.kid == k) then .wait none
  else
    let s := s.discardExtents (fun _ e => !e.abs && e.kid == k)
    let s := ((s.partials ++ s.partQ).filter (fun p => p.kid == k)).foldl (fun s p => s.recallLine p.line k) s
    let s := (s.l2.filter (fun x => x.kid == k)).foldl (fun s x => (s.writeBackL2 x).dropL2 x.sl x.line k) s
    let s := (s.l3.filter (fun x => x.kid == k)).foldl (fun s x => s.evictL3 x.line k) s
    .done { s with dir := s.dir.filter (fun e => e.kid != k), keys := s.keys.filter (fun e => e.1 != k), retiring := none }

/-- CMD_RETIRE_KEY (R396). -/
def State.cmdRetireKey (s : State) : Option State := s.command (fun op => op == 6) State.retireKey
def execCmdRetireKey (s : State) : Host.Outcome State Fault Refusal := .next (s.cmdRetireKey.getD s)

/-- A peer window opened on a link that is up (R403, R404). -/
def State.openWindow (s : State) (l : List Byte) : CmdEnd :=
  let w := bitsOf (field l 0 8) 3 0
  let link := bitsOf (field l 0 8) 5 4
  let base := field l 8 8
  let len := field l 0x10 8
  if base % 2 ^ 30 ≠ 0 ∨ len % 2 ^ 30 ≠ 0 ∨ 2 ^ 40 < len then .refused s 0x02
  else if (s.host.links[link]?).getD 0 ≠ 2 ∨ ((s.windows[w]?).getD Window.closed).opened then .refused s 0x03
  else .done { s with windows := updAt (fun _ => { opened := true, link := link, base := base, len := len, down := false }) w s.windows }

/-- CMD_OPEN_WINDOW (R404). -/
def State.cmdOpenWindow (s : State) : Option State := s.command (fun op => op == 7) State.openWindow
def execCmdOpenWindow (s : State) : Host.Outcome State Fault Refusal := .next (s.cmdOpenWindow.getD s)

/-- Whether an address lies in a peer window that `p` names. -/
def State.inWindow (s : State) (p : Nat → Window → Bool) (pa : Nat) : Bool :=
  isPeer pa && match s.windows[windowOf pa]? with
    | some w => p (windowOf pa) w
    | none => false

/-- The extents and fetch translations over the windows that `p` names discarded in every block (R404, R405). -/
def State.discardWindows (s : State) (p : Nat → Window → Bool) : State :=
  let hit := fun (f : Nat) => s.inWindow p (65536 * f)
  (s.discardExtents (fun _ e => !e.abs && (List.range (e.npg + 1)).any (fun k => hit (e.pf + k)))).discardFetch (fun t => hit t.pf)

/-- A window closed once its outstanding requests have completed (R404). -/
def State.closeWindow (s : State) (l : List Byte) : CmdEnd :=
  let w := bitsOf (field l 0 8) 3 0
  if !((s.windows[w]?).getD Window.closed).opened then .refused s 0x04
  else if s.underWay (fun pa _ => s.inWindow (fun k _ => k == w) pa) then .wait none
  else
    let s := s.discardWindows (fun k _ => k == w)
    .done { s with windows := updAt (fun _ => Window.closed) w s.windows }

/-- CMD_CLOSE_WINDOW (R404). -/
def State.cmdCloseWindow (s : State) : Option State := s.command (fun op => op == 8) State.closeWindow
def execCmdCloseWindow (s : State) : Host.Outcome State Fault Refusal := .next (s.cmdCloseWindow.getD s)

/-- A partition reset (R398, R403): its grids end, its parked launches' chains end with ST 3, its queues and work queues are emptied, its Surveyor tables
freed, its Crier streams closed and its PV ownerships ended. Its resident blocks are gone once they have drained. -/
def State.resetPartition (s : State) (p : Nat) : State :=
  let grids := s.grids.filter (fun g => g.lr.part == p)
  let s := grids.foldl (fun s g => (s.endGrid g.gid).wqDrop g.gid) s
  let parked := s.parked.filter (fun k => k.part == p)
  let s := parked.foldl (fun s k => s.endChain k.grid 3 0) { s with parked := s.parked.filter (fun k => k.part != p) }
  let s := s.modPage p (fun y => { y with queues := y.queues.map (fun r => { r with head := r.tail }) })
  let s := s.modHost (fun h => { h with pfPosts := h.pfPosts.filter (fun q => q.1 / 4 != p) })
  let subs := (s.criers.flatMap (fun k => k.subs)).filter (fun y => y.part == p)
  let s := subs.foldl (fun s y => s.endSub y.id) s
  { s with
    tables := s.tables.map (fun l => l.filter (fun t => t.part != p))
    criers := s.criers.map (fun k => { k with streams := k.streams.filter (fun t => t.part != p) })
    pv := s.pv.filter (fun o => (s.grid o.2.2).lr.part != p) }

/-- The reset is complete when the partition has no block; its chains then end. -/
def State.resetCmd (s : State) (p : Nat) : CmdEnd :=
  let s := s.resetPartition p
  if s.blocks.any (fun b => b.part == p) then .wait none
  else .done ((s.grids.filter (fun g => g.lr.part == p)).foldl (fun s g => (s.gridRetire g.gid).getD s) s)

/-- CMD_RESET_PARTITION (R403). Where blocks are left to drain it begins, and ends on a later turn. -/
def State.cmdResetPartition (s : State) : Option State :=
  s.command (fun op => op == 9) (fun s l =>
    let p := bitsOf (field l 0 8) 3 0
    match s.resetCmd p with
    | .wait _ => .wait (if (s.grids.any (fun g => g.lr.part == p && !g.ended)) then some (s.resetPartition p) else none)
    | e => e)
def execCmdResetPartition (s : State) : Host.Outcome State Fault Refusal := .next (s.cmdResetPartition.getD s)

/-- Every block on a core pre-empted (R332, R334): done once each of them has been saved or is gone. -/
def State.preemptCore (s : State) (l : List Byte) : CmdEnd :=
  match s.host.saving with
  | none =>
    let bs := s.residents (bitsOf (field l 0 8) 4 0)
    .wait (some ((bs.foldl (fun s b => s.preempt b.bid) s).modHost (fun h => { h with saving := some (bs.map (fun b => b.bid)) })))
  | some bids =>
    if s.blocks.any (fun b => bids.contains b.bid && decide (b.loc ≠ .saved) && b.stop.isSome) then .wait none
    else .done (s.modHost (fun h => { h with saving := none }))

/-- CMD_PREEMPT (R403). -/
def State.cmdPreempt (s : State) : Option State := s.command (fun op => op == 10) State.preemptCore
def execCmdPreempt (s : State) : Host.Outcome State Fault Refusal := .next (s.cmdPreempt.getD s)

/-- The trap log cleared: CMT 0 in every slot (R409). -/
def State.clearLog (s : State) : State := (List.range 2048).foldl (fun s i => s.mramWrite (128 * i + 0x70) (bytesOf 8 0)) s

/-- CMD_CLEAR_TRAP_LOG (R409). -/
def State.cmdClearTrapLog (s : State) : Option State := s.command (fun op => op == 11) (fun s _ => .done s.clearLog)
def execCmdClearTrapLog (s : State) : Host.Outcome State Fault Refusal := .next (s.cmdClearTrapLog.getD s)

/-- CMD_RESERVED (R403): a reserved OP is refused. -/
def State.cmdReserved (s : State) : Option State := s.command (fun op => op == 0 || decide (12 ≤ op)) (fun s _ => .refused s 0x01)
def execCmdReserved (s : State) : Host.Outcome State Fault Refusal := .next (s.cmdReserved.getD s)

/-- The command at the head of the ring, one at a time in ring order (R403). -/
def State.commandStep (s : State) : Option State :=
  if s.cmdPosted = false then none
  else firstSome (fun f => f ()) [
    fun _ => s.cmdShootdown, fun _ => s.cmdResume, fun _ => s.cmdPartition, fun _ => s.cmdAttributeTable, fun _ => s.cmdLoadKey, fun _ => s.cmdRetireKey,
    fun _ => s.cmdOpenWindow, fun _ => s.cmdCloseWindow, fun _ => s.cmdResetPartition, fun _ => s.cmdPreempt, fun _ => s.cmdClearTrapLog,
    fun _ => s.cmdReserved]

/-- VF_FUNCTION_LEVEL_RESET (R398). -/
def execVfFunctionLevelReset (vf : Nat) (s : State) : Host.Outcome State Fault Refusal :=
  s.whilePowered (fun s => if vf < 16 then s.resetPartition vf else s)

/-! ## Accesses of the host and of peers at the L3 home (R305, R399, R404) -/

/-- Bytes read at a physical address; an address that nothing backs reads as nothing known (log entry 54). -/
def State.physRead (s : State) (kid pa n : Nat) : List Byte :=
  (List.range n).map (fun i => if s.backedBytes ≤ pa + i then s.remoteByte 0 (pa + i) else lineByte (s.devLine (lineOf (pa + i)) kid).1 ((pa + i) % 128))
/-- Bytes written at a physical address; those that nothing backs are dropped. -/
def State.physWrite (s : State) (kid pa : Nat) (l : List Byte) : State :=
  let n := s.backedBytes - pa
  { (if n = 0 ∨ l.isEmpty then s else (s.recallSpan pa l.length).homeWrite kid pa (l.take n)) with free := s.free + 1 }

/-- What a host read or a peer read was answered. -/
def State.answered (s : State) (l : List Byte) : State := s.modHost (fun h => { h with answer := l })

/-- The image area (R399). -/
def imageBytes : Nat := 2 ^ 24
/-- n bytes of all ones, which a read of nothing returns. -/
def allOnes (n : Nat) : List Byte := List.replicate n 0xFF

/-- An access of the PF's BAR2: the image area while FWST is 1, and otherwise device memory from APBASE. -/
def State.pfAccess (s : State) (off len : Nat) (write : Bool) (data : Nat) : State :=
  if s.host.fwst = 1 then
    (if write then s.modHost (fun h => { h with image := mputs 0 h.image off ((bytesOf len data).take (imageBytes - off)) })
      else s.answered ((List.range len).map (fun i => if off + i < imageBytes then mget 0 s.host.image (off + i) else 0xFF)))
  else if write then s.physWrite 0 (s.host.apbase + off) (bytesOf len data)
  else
    let s := s.recallSpan (s.host.apbase + off) len
    { s.answered (s.physRead 0 (s.host.apbase + off) len) with free := s.free + 1 }

/-- A failing access of a VF's BAR2 counted. -/
def State.apFailed (s : State) (p : Nat) : State := s.modPage p (fun y => { y with aperr := satAdd 64 y.aperr 1 })

/-- An access of a VF's BAR2: a virtual address of its partition from VAPB, with the leaf's rights. One that its walk, its rights or a lost peer
window stops fails (R399, R405); the partials of the lines it reaches are folded first (R367). -/
def State.vfAccess (s : State) (p off len : Nat) (write : Bool) (data : Nat) : State :=
  let va := (s.page p).vapb + off
  let failed := if write then s.apFailed p else (s.apFailed p).answered (allOnes len)
  match s.walkSpan p va len write with
  | .error _ => failed
  | .ok ps =>
    if (s.spanDown ps).isSome then failed
    else
      let s := ps.foldl (fun s x => s.recallSpan x.1 x.2.1) s
      if write then (s.writeVirt p va (bytesOf len data)).toOption.getD s
      else { s.answered (((s.readVirt p va len).toOption.getD [])) with free := s.free + 1 }

/-- HOST_BAR2_ACCESS (R399): function 0 is the PF, n + 1 VF n; an access beyond the BAR is none. -/
def execHostBar2Access (fn off len : Nat) (write : Bool) (data : Nat) (s : State) : Host.Outcome State Fault Refusal :=
  s.whilePowered (fun s =>
    if fn = 0 then (if off + len ≤ 2 ^ 34 then s.pfAccess off len write data else s)
    else if fn ≤ 16 ∧ off + len ≤ 2 ^ 32 then s.vfAccess (fn - 1) off len write data
    else s)

/-- An atomic of n bytes performed at the L3 home: the value found answers, and `f` of it is written (R172, R404). -/
def State.physAtomic (s : State) (kid pa n : Nat) (f : Nat → Nat) : State :=
  let s := s.recallSpan pa n
  let l := s.physRead kid pa n
  (s.physWrite kid pa (bytesOf n (f (natOfBytes l)))).answered l

/-- An addend of a peer folded at once into a declared slot of the L3 home (R97, R366); a saturation is charged at the peer, whose slice issued it. -/
def State.physAdd (s : State) (kid pa : Nat) (x : W32) : State :=
  let pa := pa - pa % 16
  let s := s.recallSpan pa 16
  match RedSlot.ofBytes (s.physRead kid pa 16) with
  | none => s
  | some r =>
    let f := foldPartial r.i (({ q := 0, nan := false, x := 0, count := 0, charge := Source.blank } : PartEl).fold r.a x.toNat)
    s.physWrite kid pa ({ r with i := f.1, stk := r.stk || f.2 } : RedSlot).bytes

/-- A peer's request performed at this device's L3 home, under its own key for the identifier; under one with no key loaded it performs nothing and is answered
with nothing known (R172, R395, R404; log entry 120). -/
def State.peerRequest (s : State) (pa kid len : Nat) (req : PeerReq) (data : Nat) : State :=
  if !s.keys.any (fun k => k.1 == kid) then
    { s.answered ((List.range len).map (fun i => s.remoteByte 0 (pa + i))) with free := s.free + 1 }
  else match req with
    | .read =>
      let s := s.recallSpan pa len
      { s.answered (s.physRead kid pa len) with free := s.free + 1 }
    | .write => s.physWrite kid pa (bytesOf len data)
    | .atomic ty op => s.physAtomic kid pa (if ty.is64 then 8 else 4) (fun m => atomicValue ty op m data)
    | .cas a => s.physAtomic kid pa len (fun m => if m = a then data else m)
    | .add => s.physAdd kid pa (BitVec.ofNat 32 data)

/-- PEER_INCOMING_REQUEST (R172, R404): a request under a key that is under retirement waits for the end of it (R396). -/
def execPeerIncomingRequest (pa kid len : Nat) (req : PeerReq) (data : Nat) (s : State) : Host.Outcome State Fault Refusal :=
  s.whilePowered (fun s =>
    if s.retiring = some kid then s.modHost (fun h => { h with waiting := h.waiting ++ [(pa, kid, len, req, data)] })
    else s.peerRequest pa kid len req data)

/-- The first waiting request of a peer whose key is not under retirement, performed. -/
def State.peerStep (s : State) : Option State :=
  (s.host.waiting.find? (fun r => decide (s.retiring ≠ some r.2.1))).map (fun r =>
    (s.modHost (fun h => { h with waiting := h.waiting.erase r })).peerRequest r.1 r.2.1 r.2.2.1 r.2.2.2.1 r.2.2.2.2)

/-! ## Peer links (R385, R404, R405) -/

/-- A link declared down: its windows, its extents, PLINK and PF vector 0. Requests outstanding on it end with PEER_LINK_DOWN when they are performed. -/
def State.linkDown (s : State) (link : Nat) : State :=
  if (s.host.links[link]?).getD 0 = 0 then s
  else
    let s := { s with windows := s.windows.map (fun (w : Window) => if w.opened ∧ w.link = link then { w with down := true } else w) }
    let s := s.discardWindows (fun _ w => w.opened && w.link == link)
    (s.modHost (fun h => { h with links := updAt (fun _ => 0) link h.links })).raiseMsi 0 0

/-- PEER_REQUEST_TIMEOUT (R405). -/
def execPeerRequestTimeout (link : Nat) (s : State) : Host.Outcome State Fault Refusal := s.whilePowered (fun s => s.linkDown link)
/-- PEER_RESET_SIGNAL (R405). -/
def execPeerResetSignal (link : Nat) (s : State) : Host.Outcome State Fault Refusal := s.whilePowered (fun s => s.linkDown link)
/-- PEER_LINK_RETRAIN (R398, R405): a link that is down begins to train, and one that trains comes up, with PF vector 0 (log entry 74); its windows stay down. -/
def execPeerLinkRetrain (link : Nat) (s : State) : Host.Outcome State Fault Refusal :=
  s.whilePowered (fun s =>
    if (s.host.links[link]?).getD 2 = 2 then s
    else (s.modHost (fun h => { h with links := updAt (fun n => n + 1) link h.links })).raiseMsi 0 0)

/-- The element of a list of lists that stands n-th when they are joined: its list and its place there, or how far n lies beyond the end. -/
def spotIn : Nat → Nat → List Nat → Nat ⊕ (Nat × Nat)
  | _, n, [] => .inl n
  | k, n, m :: l => if n < m then .inr (k, n) else spotIn (k + 1) (n - m) l

/-- The bytes of a data flit of a line, and its words. -/
def flitMask (f : Nat) : LineMask := spanMask (32 * f) 32
def flitPois (f : Nat) : Pois := { unit := 0, word := anyWords (flitMask f) }

/-- The i-th line in the operand buffers of a block's operations poisoned. -/
def Block.poisonLine (b : Block) (i : Nat) (p : Pois) : Block :=
  match spotIn 0 i (b.loomQ.map (fun o => o.lines.length)) with
  | .inl _ => b
  | .inr (m, j) => { b with loomQ := updAt (fun o => { o with lines := updAt (fun d => (d.1, d.2.1, d.2.2.or p)) j o.lines }) m b.loomQ }

/-- Data flit f of the n-th line payload on the fabric poisoned (R385): of a write on its way, of the line that an L2 slice took, of the write-back that the L3 took, of
partials on their way, of the response that a core's L1, its instruction cache or its Loom's operand buffer took, and beyond these of the next response to a
read (log entry 55). -/
def State.poisonPacket (s : State) (n f : Nat) : State :=
  let ops := s.blocks.map (fun b => sumNat (b.loomQ.map (fun o => o.lines.length)))
  match spotIn 0 n ([s.netw.length, s.l2.length, s.l3.length, s.partQ.length] ++ s.cores.map (fun c => c.l1.length) ++ s.cores.map (fun c => c.icache.length) ++ ops) with
  | .inl _ => { s with lostRead := true }
  | .inr (k, i) =>
    let cores := s.cores.length
    if k = 0 then { s with netw := updAt (fun w => { w with poison := w.poison ||| (w.mask &&& flitMask f) }) i s.netw }
    else if k = 1 then { s with l2 := updAt (fun x => { x with poison := x.poison.or (flitPois f) }) i s.l2 }
    else if k = 2 then { s with l3 := updAt (fun x => { x with poison := x.poison.or (flitPois f) }) i s.l3 }
    else if k = 3 then { s with partQ := updAt (fun p => { p with bad := true }) i s.partQ }
    else if k < 4 + cores then s.modCore (k - 4) (fun c =>
      { c with l1 := updAt (fun x => { x with poison := x.poison ||| (flitMask f &&& sectorBytes x.valid &&& ~~~x.dirty) }) i c.l1 })
    else if k < 4 + 2 * cores then s.modCore (k - 4 - cores) (fun c => { c with icache := updAt (fun x => { x with lost := x.lost ||| (1#4 <<< f) }) i c.icache })
    else
      { s with blocks := updAt (fun b => b.poisonLine i (flitPois f)) (k - 4 - 2 * cores) s.blocks }

/-- FLIT_RETRY (R385, R405): a flit of peer link n (n below 4), or data flit (n - 4) mod 4 of payload (n - 4) / 4 on the fabric, fails its check `fails` times; each is
retried up to 4 times. A fifth failure poisons the flit's 32 bytes, and on a peer link declares the link down (log entry 55). -/
def execFlitRetry (n fails : Nat) (s : State) : Host.Outcome State Fault Refusal :=
  s.whilePowered (fun s =>
    let s := s.modHost (fun h => { h with lrty := satAdd 64 h.lrty (min fails 4) })
    if fails ≤ 4 then s
    else if n < 4 then s.linkDown n
    else s.poisonPacket ((n - 4) / 4) ((n - 4) % 4))

/-- POWER_ON (R406, R409): SEQ resumes after the greatest logged. -/
def execPowerOn (s : State) : Host.Outcome State Fault Refusal :=
  .next (if s.host.powered then s
    else { s.modHost (fun h => { h with powered := true, fwst := 1 }) with seqNo := match s.lastSlot with
      | some (_, q) => q + 1
      | none => 1 })

/-- n bytes of the image area. -/
def State.imageRead (s : State) (o n : Nat) : List Byte := mgets 0 s.host.image o n

/-- The digest of an image: its bytes 0 to 0x77F + BLEN (R406). -/
def State.imageDigest (s : State) (blen : Nat) : BitVec 512 := Config.shake256 (s.imageRead 0 (0x780 + blen))

/-- The first of the checks 0x01 to 0x05 that the image fails. -/
def State.imageFailure (s : State) : Option Nat :=
  let h := s.imageRead 0 64
  let blen := field h 12 4
  let key := s.imageRead 0x40 1793
  if field h 0 2 ≠ 0x4B48 ∨ field h 2 2 ≠ 0 ∨ field h 10 2 ≠ 0 ∨ field h 16 48 ≠ 0 then some 0x01
  else if s.host.fwlen ≠ 0x780 + blen + 1280 ∨ blen % 64 ≠ 0 ∨ imageBytes < s.host.fwlen then some 0x02
  else if Config.shake256 key ≠ Config.fusedKeyDigest then some 0x03
  else if field h 8 2 < Config.fusedSvnFloor.toNat then some 0x04
  else if Config.falconVerify key (s.imageDigest blen) (s.imageRead (0x780 + blen) 1280) = false then some 0x05
  else none

/-- A failure: FWRSN, the image area cleared and FWST 1. -/
def HostRegs.failed (h : HostRegs) (rsn ch : Nat) : HostRegs := { h with fwst := 1, fwrsn := rsn, fwch := ch, image := [] }

/-- The checks 0x01 to 0x05 made in FWST 2, which lead to FWST 3 or back to FWST 1. -/
def State.imageStep (s : State) : Option State :=
  if s.host.fwst ≠ 2 then none
  else some (match s.imageFailure with
    | some r => (s.modHost (fun h => h.failed r h.fwch)).raiseMsi 0 0
    | none => (s.modHost (fun h => { h with fwst := 3, digest := bytesOf 64 (s.imageDigest (field (s.imageRead 0 64) 12 4)).toNat })).raiseMsi 0 0)

/-- FIRMWARE_GO (R398, R406): the write of FWGO sets FWST 2, and the checks are made in it, each change a firmware event (log entry 74). -/
def execFirmwareGo (s : State) : Host.Outcome State Fault Refusal :=
  s.whilePowered (fun s =>
    if s.host.fwst = 1 then (s.modHost (fun h => { h with fwst := 2 })).raiseMsi 0 0 else s.imageStep.getD s)

/-- MEMORY_TRAINING (R4, R306, R406): it fails on the lowest channel that differs, if any; else the memory carries check symbols or not (log entry
96). -/
def execMemoryTraining (found : Training) (s : State) : Host.Outcome State Fault Refusal :=
  s.whilePowered (fun s =>
    if s.host.fwst ≠ 3 then s
    else match leastBy (fun n => n) (found.differs.filter (fun n => decide (n < 16))) with
      | some c => (s.modHost (fun h => h.failed 0x06 c)).raiseMsi 0 0
      | none => { (s.modHost (fun h => { h with fwst := 4 })).raiseMsi 0 0 with checks := found.checks })

/-- A partition's entry of a report: GUAR, LIMIT, root pa and the loaded-key bitmap (log entry 56). -/
def State.reportEntry (s : State) (p : Nat) : List Byte :=
  let e := s.part p
  bytesOf 4 e.guar ++ bytesOf 4 e.limit ++ bytesOf 8 e.root ++ bytesOf 8 (sumNat ((List.range 64).map (fun k => if s.keys.any (fun x => x.1 == k) then 2 ^ k else 0)))

/-- The first 0x200 bytes of a report for a partition, or for the PF (R407). -/
def State.reportHead (s : State) (p : Nat) (pf : Bool) : List Byte :=
  let entries := if pf then (List.range 16).flatMap s.reportEntry else s.reportEntry p
  (s.page p).nonce ++ s.host.digest ++ bytesOf 8 Config.fusedSvnFloor.toNat ++ bytesOf 8 Config.deviceSerial.toNat ++ List.replicate 16 0 ++
    entries ++ List.replicate (384 - entries.length) 0

/-- A report: its head and the device's signature over its digest. -/
def State.report (s : State) (p : Nat) (pf : Bool) : List Byte :=
  let l := s.reportHead p pf
  l ++ (Config.falconSign (Config.shake256 l) ++ List.replicate 1280 0).take 1280

/-- ATTESTATION_GO (R407): partition 16 + p is the page of partition p written by the PF (log entry 56). -/
def execAttestationGo (part : Nat) (s : State) : Host.Outcome State Fault Refusal :=
  s.whilePowered (fun s =>
    let p := part % 16
    match s.writeVirt p (s.page p).repaddr (s.report p (decide (16 ≤ part))) with
    | .ok s1 => s1.modPage p (fun y => { y with atst := 1 })
    | .error _ => s.modPage p (fun y => { y with atst := 2 }))

/-! ## Power and thermal steps (R6, R408) -/

/-- Module power of a step, in 1/16 W (R6). -/
def stepPower (n : Nat) : Nat := 16 * ([480, 430, 385, 340, 300, 265][n]?).getD 265

/-- The fastest step allowed: 6 and 7 act as 5 (R400). -/
def HostRegs.cap (h : HostRegs) : Nat := min h.stepcap 5

/-- Whether the temperature and the power allow the next faster step. -/
def HostRegs.cool (h : HostRegs) : Bool := decide (h.temp ≤ 95 * 256) && decide (h.pwr < stepPower (h.step - 1))

/-- Whether a millisecond has passed since the last step change (log entry 26). -/
def State.mayStep (s : State) : Bool := s.host.thev == 0 || decide (s.host.stepAt + 1000000 * nanosecond ≤ s.refTime)

/-- A step change: STEP, THEV and PF vector 0; the core clock is the new step's from now on (R6). -/
def State.stepTo (s : State) (n : Nat) (since : Option Nat) : State :=
  (s.modHost (fun h => { h with step := n, thev := satAdd 32 h.thev 1, stepAt := s.refTime, coolAt := since, refBase := s.refTime, refClk := s.clock })).raiseMsi 0 0

/-- STEPCAP_WRITE (R408): the bound alone changes; the steps follow under the rules. -/
def execStepcapWrite (value : Nat) (s : State) : Host.Outcome State Fault Refusal :=
  s.whilePowered (fun s => s.modHost (fun h => { h with stepcap := value % 8 }))

/-- Whether the device steps down at this moment (R408). -/
def State.stepsDown (s : State) : Bool :=
  decide (s.host.step < 5) && s.mayStep && (decide (105 * 256 ≤ s.host.temp) || decide (16 * 500 < s.host.pwr) || decide (s.host.step < s.host.cap))

/-- THROTTLE_STEP_DOWN (R408): the margin for the next step up is counted anew. -/
def State.throttleDown (s : State) : Option State :=
  if s.stepsDown then
    let s1 := s.stepTo (s.host.step + 1) none
    some (s1.modHost (fun h => { h with coolAt := if h.cool then some s.refTime else none }))
  else none
def execThrottleStepDown (s : State) : Host.Outcome State Fault Refusal := s.whilePowered (fun s => s.throttleDown.getD s)

/-- Whether the device steps up at this moment: 100 ms with TEMP and PWR low enough for the faster step, which STEPCAP allows (R408). -/
def State.stepsUp (s : State) : Bool :=
  decide (0 < s.host.step) && decide (s.host.cap < s.host.step) && s.mayStep && match s.host.coolAt with
    | some t => decide (t + 100000000 * nanosecond ≤ s.refTime)
    | none => false

/-- THROTTLE_STEP_UP (R408). -/
def State.throttleUp (s : State) : Option State := if s.stepsUp then some (s.stepTo (s.host.step - 1) s.host.coolAt) else none
def execThrottleStepUp (s : State) : Host.Outcome State Fault Refusal := s.whilePowered (fun s => s.throttleUp.getD s)

/-- THERMAL_CRITICAL (R408). -/
def State.thermalCritical (s : State) : Option State :=
  if s.host.step = 5 ∧ 115 * 256 ≤ s.host.temp ∧ s.host.thcrit = false then some ((s.modHost (fun h => { h with thcrit := true })).raiseMsi 0 0) else none
def execThermalCritical (s : State) : Host.Outcome State Fault Refusal := s.whilePowered (fun s => s.thermalCritical.getD s)

/-- TEMP holds 16 signed bits; a reading beyond them stands at the nearest (log entry 26). -/
def clampTemp (t : Int) : Int := max (-32768) (min 32767 t)

/-- SENSOR_READING (R400, R408): TEMP and PWR; THCRIT clears when no sensor reads 115 °C; the margin for a faster step begins or ends. -/
def execSensorReading (tempQ8 : Int) (powerQ4 : Nat) (s : State) : Host.Outcome State Fault Refusal :=
  s.whilePowered (fun s => s.modHost (fun h =>
    let h := { h with temp := clampTemp tempQ8, pwr := min powerQ4 (2 ^ 32 - 1), thcrit := h.thcrit && decide (115 * 256 ≤ tempQ8) }
    { h with coolAt := if h.cool then (match h.coolAt with
        | some t => some t
        | none => some s.refTime) else none }))

/-- A step of the platform: the checks of an image, a peer's request that waited, and what power and temperature ask for. -/
def State.platformStep (s : State) : Option State :=
  if s.host.powered then firstSome (fun f => f ()) [fun _ => s.imageStep, fun _ => s.peerStep, fun _ => s.throttleDown, fun _ => s.thermalCritical, fun _ => s.throttleUp] else none

/-! ## Power and soft errors (R306, R409) -/

/-- PWRFAIL_N (R409): no record is begun from now on. -/
def execPwrfailN (s : State) : Host.Outcome State Fault Refusal := s.whilePowered (fun s => s.modHost (fun h => { h with pwrfail := true }))

/-- POWER_LOSS (R409): a commit that was under way reached the MRAM with its first `words` 8-byte writes; a commit begun before PWRFAIL_N was
complete by then. Everything but the MRAM is lost; what the outside does next still stands on the agenda, and no free value
comes twice (log entries 1, 6). -/
def execPowerLoss (words : Nat) (s : State) : Host.Outcome State Fault Refusal :=
  s.whilePowered (fun s =>
    let under := (List.range s.recs.length).findSome? (fun n => match s.recs[n]? with
      | some r => if s.recReady n r && !r.logged then some r else none
      | none => none)
    let s1 := match under with
      | some r => if s.host.pwrfail then s else s.commitFirst r words
      | none => s
    { (State.reset.modHost (fun h => { h with powered := false })) with mram := s1.mram, agenda := s.agenda, free := s.free })

/-- The 64-byte units of a line with the unit of a 64-bit word added. -/
def poisonWord (p : Pois) (word : Nat) : Pois := { p with word := p.word ||| (1#16 <<< (word % 16)) }

/-- Word n of the lines that the L2 slices hold, poisoned. -/
def State.poisonL2 (s : State) (n : Nat) : State :=
  { s with l2 := updAt (fun x => { x with poison := poisonWord x.poison (n % 16) }) (n / 16) s.l2 }
/-- Word n of the lines that the L3 holds, poisoned. -/
def State.poisonL3 (s : State) (n : Nat) : State :=
  { s with l3 := updAt (fun x => { x with poison := poisonWord x.poison (n % 16) }) (n / 16) s.l3 }
/-- A word of a block's bench share poisoned. -/
def State.poisonBench (s : State) (bid word : Nat) : State :=
  s.modBlk bid (fun b => if b.bpois.contains word then b else { b with bpois := b.bpois ++ [word] })
/-- A 64-bit word of a slice's lane registers, of elements 2k and 2k + 1 of their order in the context frame (R343). -/
def State.poisonReg (s : State) (bid i k : Nat) : State :=
  s.modSl bid i (fun sl => { sl with pois := sl.pois.filter (fun e => e != 2 * k && e != 2 * k + 1) ++ [2 * k, 2 * k + 1] })

/-- SOFT_ERROR (R306): one bit is corrected, and no program sees it; two poison the word. Store 0 is the L2 and 1 the L3, where the index counts words
of the lines held; 2 is the bench, 2^18 words a block; 3 the register pool, 512 words a slice and 256 slices a block (log entry 37). -/
def execSoftError (store index bits : Nat) (s : State) : Host.Outcome State Fault Refusal :=
  s.whilePowered (fun s =>
    if bits < 2 then s
    else if store = 0 then s.poisonL2 index
    else if store = 1 then s.poisonL3 index
    else if store = 2 then s.poisonBench (index / 2 ^ 18) (index % 2 ^ 18)
    else if store = 3 then s.poisonReg (index / 131072) (index / 512 % 256) (index % 512)
    else s)

end Sys2Proof.Machine
end

