-- ==== Sys2Proof/Machine/Dispatch.lean ====
section
/-! DEFINITION. The one dispatch of every row of the opcode table to its meaning. -/

namespace Sys2Proof.Machine

def exec (i : Instr) (s : State) : Host.Outcome State Fault Refusal :=
  match i with
  | .nop f => Sys2Proof.Machine.execNop f s
  | .bra f => Sys2Proof.Machine.execBra f s
  | .brx f => Sys2Proof.Machine.execBrx f s
  | .call f => Sys2Proof.Machine.execCall f s
  | .callx f => Sys2Proof.Machine.execCallx f s
  | .ret f => Sys2Proof.Machine.execRet f s
  | .exit f => Sys2Proof.Machine.execExit f s
  | .pushj f => Sys2Proof.Machine.execPushj f s
  | .join f => Sys2Proof.Machine.execJoin f s
  | .regang f => Sys2Proof.Machine.execRegang f s
  | .part f => Sys2Proof.Machine.execPart f s
  | .refill f => Sys2Proof.Machine.execRefill f s
  | .refillPush f => Sys2Proof.Machine.execRefillPush f s
  | .tlaunch f => Sys2Proof.Machine.execTlaunch f s
  | .yield f => Sys2Proof.Machine.execYield f s
  | .trap f => Sys2Proof.Machine.execTrap f s
  | .brk f => Sys2Proof.Machine.execBrk f s
  | .rdsr f => Sys2Proof.Machine.execRdsr f s
  | .wrsr f => Sys2Proof.Machine.execWrsr f s
  | .ifence f => Sys2Proof.Machine.execIfence f s
  | .iadd f => Sys2Proof.Machine.execIadd f s
  | .isub f => Sys2Proof.Machine.execIsub f s
  | .imul f => Sys2Proof.Machine.execImul f s
  | .imulh f => Sys2Proof.Machine.execImulh f s
  | .imad f => Sys2Proof.Machine.execImad f s
  | .imadw f => Sys2Proof.Machine.execImadw f s
  | .idiv f => Sys2Proof.Machine.execIdiv f s
  | .irem f => Sys2Proof.Machine.execIrem f s
  | .imin f => Sys2Proof.Machine.execImin f s
  | .imax f => Sys2Proof.Machine.execImax f s
  | .iabs f => Sys2Proof.Machine.execIabs f s
  | .ineg f => Sys2Proof.Machine.execIneg f s
  | .iaddc f => Sys2Proof.Machine.execIaddc f s
  | .isubb f => Sys2Proof.Machine.execIsubb f s
  | .shl f => Sys2Proof.Machine.execShl f s
  | .shr f => Sys2Proof.Machine.execShr f s
  | .sar f => Sys2Proof.Machine.execSar f s
  | .rot f => Sys2Proof.Machine.execRot f s
  | .andW f => Sys2Proof.Machine.execAndW f s
  | .orW f => Sys2Proof.Machine.execOrW f s
  | .xorW f => Sys2Proof.Machine.execXorW f s
  | .andn f => Sys2Proof.Machine.execAndn f s
  | .notW f => Sys2Proof.Machine.execNotW f s
  | .bfe f => Sys2Proof.Machine.execBfe f s
  | .bfi f => Sys2Proof.Machine.execBfi f s
  | .popc f => Sys2Proof.Machine.execPopc f s
  | .clz f => Sys2Proof.Machine.execClz f s
  | .ctz f => Sys2Proof.Machine.execCtz f s
  | .brev f => Sys2Proof.Machine.execBrev f s
  | .lea f => Sys2Proof.Machine.execLea f s
  | .lea64 f => Sys2Proof.Machine.execLea64 f s
  | .mov f => Sys2Proof.Machine.execMov f s
  | .movi f => Sys2Proof.Machine.execMovi f s
  | .movh f => Sys2Proof.Machine.execMovh f s
  | .sel f => Sys2Proof.Machine.execSel f s
  | .itst f => Sys2Proof.Machine.execItst f s
  | .icmp f => Sys2Proof.Machine.execIcmp f s
  | .iadd64 f => Sys2Proof.Machine.execIadd64 f s
  | .isub64 f => Sys2Proof.Machine.execIsub64 f s
  | .imul64 f => Sys2Proof.Machine.execImul64 f s
  | .shl64 f => Sys2Proof.Machine.execShl64 f s
  | .shr64 f => Sys2Proof.Machine.execShr64 f s
  | .fadd f => Sys2Proof.Machine.execFadd f s
  | .fsub f => Sys2Proof.Machine.execFsub f s
  | .fmul f => Sys2Proof.Machine.execFmul f s
  | .ffma f => Sys2Proof.Machine.execFfma f s
  | .fmin f => Sys2Proof.Machine.execFmin f s
  | .fmax f => Sys2Proof.Machine.execFmax f s
  | .ftst f => Sys2Proof.Machine.execFtst f s
  | .fcmp f => Sys2Proof.Machine.execFcmp f s
  | .frnd f => Sys2Proof.Machine.execFrnd f s
  | .fdiv f => Sys2Proof.Machine.execFdiv f s
  | .fsqrt f => Sys2Proof.Machine.execFsqrt f s
  | .frcp f => Sys2Proof.Machine.execFrcp f s
  | .frsq f => Sys2Proof.Machine.execFrsq f s
  | .fex2 f => Sys2Proof.Machine.execFex2 f s
  | .flg2 f => Sys2Proof.Machine.execFlg2 f s
  | .fsin f => Sys2Proof.Machine.execFsin f s
  | .fcos f => Sys2Proof.Machine.execFcos f s
  | .ftanh f => Sys2Proof.Machine.execFtanh f s
  | .hadd2 f => Sys2Proof.Machine.execHadd2 f s
  | .hmul2 f => Sys2Proof.Machine.execHmul2 f s
  | .hfma2 f => Sys2Proof.Machine.execHfma2 f s
  | .badd2 f => Sys2Proof.Machine.execBadd2 f s
  | .bmul2 f => Sys2Proof.Machine.execBmul2 f s
  | .bfma2 f => Sys2Proof.Machine.execBfma2 f s
  | .cvt f => Sys2Proof.Machine.execCvt f s
  | .cvts f => Sys2Proof.Machine.execCvts f s
  | .f2i f => Sys2Proof.Machine.execF2i f s
  | .i2f f => Sys2Proof.Machine.execI2f f s
  | .qnt f => Sys2Proof.Machine.execQnt f s
  | .dqnt f => Sys2Proof.Machine.execDqnt f s
  | .fcls f => Sys2Proof.Machine.execFcls f s
  | .vadd f => Sys2Proof.Machine.execVadd f s
  | .vsub f => Sys2Proof.Machine.execVsub f s
  | .vmin f => Sys2Proof.Machine.execVmin f s
  | .vmax f => Sys2Proof.Machine.execVmax f s
  | .vabsd f => Sys2Proof.Machine.execVabsd f s
  | .vdot4 f => Sys2Proof.Machine.execVdot4 f s
  | .vdot2 f => Sys2Proof.Machine.execVdot2 f s
  | .pand f => Sys2Proof.Machine.execPand f s
  | .por f => Sys2Proof.Machine.execPor f s
  | .pxor f => Sys2Proof.Machine.execPxor f s
  | .pnot f => Sys2Proof.Machine.execPnot f s
  | .pmov f => Sys2Proof.Machine.execPmov f s
  | .p2v f => Sys2Proof.Machine.execP2v f s
  | .v2p f => Sys2Proof.Machine.execV2p f s
  | .shfl f => Sys2Proof.Machine.execShfl f s
  | .bcast f => Sys2Proof.Machine.execBcast f s
  | .vote f => Sys2Proof.Machine.execVote f s
  | .matchLanes f => Sys2Proof.Machine.execMatchLanes f s
  | .rank f => Sys2Proof.Machine.execRank f s
  | .prfx f => Sys2Proof.Machine.execPrfx f s
  | .redg f => Sys2Proof.Machine.execRedg f s
  | .rngk f => Sys2Proof.Machine.execRngk f s
  | .hshk f => Sys2Proof.Machine.execHshk f s
  | .ld f => Sys2Proof.Machine.execLd f s
  | .st f => Sys2Proof.Machine.execSt f s
  | .ldv f => Sys2Proof.Machine.execLdv f s
  | .stv f => Sys2Proof.Machine.execStv f s
  | .ldb f => Sys2Proof.Machine.execLdb f s
  | .stb f => Sys2Proof.Machine.execStb f s
  | .ldbv f => Sys2Proof.Machine.execLdbv f s
  | .stbv f => Sys2Proof.Machine.execStbv f s
  | .atom f => Sys2Proof.Machine.execAtom f s
  | .acas f => Sys2Proof.Machine.execAcas f s
  | .red f => Sys2Proof.Machine.execRed f s
  | .redf f => Sys2Proof.Machine.execRedf f s
  | .reddcl f => Sys2Proof.Machine.execReddcl f s
  | .redrd f => Sys2Proof.Machine.execRedrd f s
  | .atomb f => Sys2Proof.Machine.execAtomb f s
  | .rwb f => Sys2Proof.Machine.execRwb f s
  | .rinv f => Sys2Proof.Machine.execRinv f s
  | .rwbi f => Sys2Proof.Machine.execRwbi f s
  | .fence f => Sys2Proof.Machine.execFence f s
  | .tfence f => Sys2Proof.Machine.execTfence f s
  | .pref f => Sys2Proof.Machine.execPref f s
  | .harvest f => Sys2Proof.Machine.execHarvest f s
  | .qdecl f => Sys2Proof.Machine.execQdecl f s
  | .qsign f => Sys2Proof.Machine.execQsign f s
  | .qwait f => Sys2Proof.Machine.execQwait f s
  | .bar f => Sys2Proof.Machine.execBar f s
  | .waitf f => Sys2Proof.Machine.execWaitf f s
  | .waitt f => Sys2Proof.Machine.execWaitt f s
  | .waitta f => Sys2Proof.Machine.execWaitta f s
  | .tagff f => Sys2Proof.Machine.execTagff f s
  | .tagclr f => Sys2Proof.Machine.execTagclr f s
  | .cbexp f => Sys2Proof.Machine.execCbexp f s
  | .cbwait f => Sys2Proof.Machine.execCbwait f s
  | .cbrd f => Sys2Proof.Machine.execCbrd f s
  | .claim f => Sys2Proof.Machine.execClaim f s
  | .give f => Sys2Proof.Machine.execGive f s
  | .poolq f => Sys2Proof.Machine.execPoolq f s
  | .lalloc f => Sys2Proof.Machine.execLalloc f s
  | .lfree f => Sys2Proof.Machine.execLfree f s
  | .lzero f => Sys2Proof.Machine.execLzero f s
  | .lldc f => Sys2Proof.Machine.execLldc f s
  | .lopf f => Sys2Proof.Machine.execLopf f s
  | .lmma f => Sys2Proof.Machine.execLmma f s
  | .lmms f => Sys2Proof.Machine.execLmms f s
  | .lmmg f => Sys2Proof.Machine.execLmmg f s
  | .ldrn f => Sys2Proof.Machine.execLdrn f s
  | .ldrx f => Sys2Proof.Machine.execLdrx f s
  | .mxv f => Sys2Proof.Machine.execMxv f s
  | .mxvp f => Sys2Proof.Machine.execMxvp f s
  | .dcpy f => Sys2Proof.Machine.execDcpy f s
  | .dgth f => Sys2Proof.Machine.execDgth f s
  | .dsct f => Sys2Proof.Machine.execDsct f s
  | .dsca f => Sys2Proof.Machine.execDsca f s
  | .dcsr f => Sys2Proof.Machine.execDcsr f s
  | .dfil f => Sys2Proof.Machine.execDfil f s
  | .svpt f => Sys2Proof.Machine.execSvpt f s
  | .svvox f => Sys2Proof.Machine.execSvvox f s
  | .svqry f => Sys2Proof.Machine.execSvqry f s
  | .svnbr f => Sys2Proof.Machine.execSvnbr f s
  | .svdwn f => Sys2Proof.Machine.execSvdwn f s
  | .svmap f => Sys2Proof.Machine.execSvmap f s
  | .svfree f => Sys2Proof.Machine.execSvfree f s
  | .svclr f => Sys2Proof.Machine.execSvclr f s
  | .atstrm f => Sys2Proof.Machine.execAtstrm f s
  | .atsub f => Sys2Proof.Machine.execAtsub f s
  | .atnext f => Sys2Proof.Machine.execAtnext f s
  | .atpost f => Sys2Proof.Machine.execAtpost f s
  | .atdone f => Sys2Proof.Machine.execAtdone f s
  | .atmrg f => Sys2Proof.Machine.execAtmrg f s
  | .atuns f => Sys2Proof.Machine.execAtuns f s
  | .slotVisit a b => Sys2Proof.Machine.execSlotVisit a b s
  | .rotationEnd a b => Sys2Proof.Machine.execRotationEnd a b s
  | .regDeadlockDetect a => Sys2Proof.Machine.execRegDeadlockDetect a s
  | .memoryOpComplete a b c => Sys2Proof.Machine.execMemoryOpComplete a b c s
  | .promotionRequest a => Sys2Proof.Machine.execPromotionRequest a s
  | .l1Eviction a b => Sys2Proof.Machine.execL1Eviction a b s
  | .l1ParityError a b c => Sys2Proof.Machine.execL1ParityError a b c s
  | .l2WriteReceive a => Sys2Proof.Machine.execL2WriteReceive a s
  | .l2Eviction a b c => Sys2Proof.Machine.execL2Eviction a b c s
  | .memoryEccError a b => Sys2Proof.Machine.execMemoryEccError a b s
  | .directoryRequest a => Sys2Proof.Machine.execDirectoryRequest a s
  | .recallInvalidationReceive a => Sys2Proof.Machine.execRecallInvalidationReceive a s
  | .directoryAckReceive a => Sys2Proof.Machine.execDirectoryAckReceive a s
  | .directoryQuietTick => Sys2Proof.Machine.execDirectoryQuietTick s
  | .directoryEntryError a b c => Sys2Proof.Machine.execDirectoryEntryError a b c s
  | .flitRetry a b => Sys2Proof.Machine.execFlitRetry a b s
  | .atomicPerform a => Sys2Proof.Machine.execAtomicPerform a s
  | .reductionAddendFold a => Sys2Proof.Machine.execReductionAddendFold a s
  | .partialIdleTimeout a b c => Sys2Proof.Machine.execPartialIdleTimeout a b c s
  | .partialFold a => Sys2Proof.Machine.execPartialFold a s
  | .loomAccept a => Sys2Proof.Machine.execLoomAccept a s
  | .metadataGrant a => Sys2Proof.Machine.execMetadataGrant a s
  | .loomOperationComplete a => Sys2Proof.Machine.execLoomOperationComplete a s
  | .drainStoreComplete a => Sys2Proof.Machine.execDrainStoreComplete a s
  | .mxvSegmentComplete a => Sys2Proof.Machine.execMxvSegmentComplete a s
  | .millBlockForward a b c => Sys2Proof.Machine.execMillBlockForward a b c s
  | .drayCommandStart a => Sys2Proof.Machine.execDrayCommandStart a s
  | .drayChunkComplete a b => Sys2Proof.Machine.execDrayChunkComplete a b s
  | .engineCommandComplete a => Sys2Proof.Machine.execEngineCommandComplete a s
  | .surveyorCommandStart a => Sys2Proof.Machine.execSurveyorCommandStart a s
  | .surveyorBatchComplete a => Sys2Proof.Machine.execSurveyorBatchComplete a s
  | .subscriptionAccept a b => Sys2Proof.Machine.execSubscriptionAccept a b s
  | .crierPageFetch a => Sys2Proof.Machine.execCrierPageFetch a s
  | .pageDelivery a b => Sys2Proof.Machine.execPageDelivery a b s
  | .mergeFold a b => Sys2Proof.Machine.execMergeFold a b s
  | .pageWalk a b => Sys2Proof.Machine.execPageWalk a b s
  | .queueEntryAccept a => Sys2Proof.Machine.execQueueEntryAccept a s
  | .coreGrantDecision => Sys2Proof.Machine.execCoreGrantDecision s
  | .detGridStart a => Sys2Proof.Machine.execDetGridStart a s
  | .blockAdmission a => Sys2Proof.Machine.execBlockAdmission a s
  | .blockRetire a => Sys2Proof.Machine.execBlockRetire a s
  | .gridRetire a => Sys2Proof.Machine.execGridRetire a s
  | .blockStop a => Sys2Proof.Machine.execBlockStop a s
  | .blockSave a => Sys2Proof.Machine.execBlockSave a s
  | .trapRecordWrite a => Sys2Proof.Machine.execTrapRecordWrite a s
  | .blockRestore a b => Sys2Proof.Machine.execBlockRestore a b s
  | .watchdogExpiry a => Sys2Proof.Machine.execWatchdogExpiry a s
  | .queueDoorbell a b => Sys2Proof.Machine.execQueueDoorbell a b s
  | .queueRingSetup a b c => Sys2Proof.Machine.execQueueRingSetup a b c s
  | .commandDoorbell a => Sys2Proof.Machine.execCommandDoorbell a s
  | .commandRingSetup a b => Sys2Proof.Machine.execCommandRingSetup a b s
  | .registerWrite a b c => Sys2Proof.Machine.execRegisterWrite a b c s
  | .cmdShootdown => Sys2Proof.Machine.execCmdShootdown s
  | .cmdResume => Sys2Proof.Machine.execCmdResume s
  | .cmdPartition => Sys2Proof.Machine.execCmdPartition s
  | .cmdAttributeTable => Sys2Proof.Machine.execCmdAttributeTable s
  | .cmdLoadKey => Sys2Proof.Machine.execCmdLoadKey s
  | .cmdRetireKey => Sys2Proof.Machine.execCmdRetireKey s
  | .cmdOpenWindow => Sys2Proof.Machine.execCmdOpenWindow s
  | .cmdCloseWindow => Sys2Proof.Machine.execCmdCloseWindow s
  | .cmdResetPartition => Sys2Proof.Machine.execCmdResetPartition s
  | .cmdPreempt => Sys2Proof.Machine.execCmdPreempt s
  | .cmdClearTrapLog => Sys2Proof.Machine.execCmdClearTrapLog s
  | .cmdReserved => Sys2Proof.Machine.execCmdReserved s
  | .vfFunctionLevelReset a => Sys2Proof.Machine.execVfFunctionLevelReset a s
  | .hostBar2Access a b c d e => Sys2Proof.Machine.execHostBar2Access a b c d e s
  | .powerOn => Sys2Proof.Machine.execPowerOn s
  | .firmwareGo => Sys2Proof.Machine.execFirmwareGo s
  | .memoryTraining a => Sys2Proof.Machine.execMemoryTraining a s
  | .attestationGo a => Sys2Proof.Machine.execAttestationGo a s
  | .stepcapWrite a => Sys2Proof.Machine.execStepcapWrite a s
  | .throttleStepDown => Sys2Proof.Machine.execThrottleStepDown s
  | .throttleStepUp => Sys2Proof.Machine.execThrottleStepUp s
  | .thermalCritical => Sys2Proof.Machine.execThermalCritical s
  | .pwrfailN => Sys2Proof.Machine.execPwrfailN s
  | .peerRequestTimeout a => Sys2Proof.Machine.execPeerRequestTimeout a s
  | .peerResetSignal a => Sys2Proof.Machine.execPeerResetSignal a s
  | .peerLinkRetrain a => Sys2Proof.Machine.execPeerLinkRetrain a s
  | .peerIncomingRequest a b c d e => Sys2Proof.Machine.execPeerIncomingRequest a b c d e s
  | .idivIremCompletion a b c => Sys2Proof.Machine.execIdivIremCompletion a b c s
  | .l3Eviction a b => Sys2Proof.Machine.execL3Eviction a b s
  | .operandBufferLineEntry a => Sys2Proof.Machine.execOperandBufferLineEntry a s
  | .powerLoss a => Sys2Proof.Machine.execPowerLoss a s
  | .softError a b c => Sys2Proof.Machine.execSoftError a b c s
  | .sensorReading a b => Sys2Proof.Machine.execSensorReading a b s

end Sys2Proof.Machine
end

