-- ==== Sys2Proof/Machine/Place.lean ====
section
/-! DEFINITION. A program placed without a launch, for questions about one instruction (log entry 3): a block of one slice on core 0 whose
visit is in progress, and a word held in the core's instruction cache under the address the visit fetches. -/

namespace Sys2Proof.Machine

/-- The slice of a placed program: four active threads, every lane register, at address 0. -/
def Slice.placed : Slice := { Slice.blank with live := 15, act := 15, alloc := 32, strand := [0] }

/-- The block of a placed program: one slice, every tile, and the largest bench share. -/
def Block.placed : Block :=
  { Block.blank with loc := .resident 0, nthr := 4, slices := [Slice.placed], units := 32, bsize := 2096128, tcount := 8, held := 0xFF }

/-- The visit of a placed program. -/
def Visit.placed : Visit := { core := 0, sec := 0, slot := 0, bid := 0, slices := [0] }

/-- The state with a visit in progress: the one it has, or that of a placed program. -/
def State.withVisit (s : State) : State :=
  match s.visit with
  | some _ => s
  | none =>
    { s.modSec 0 0 (fun x => x.modSlot 0 (fun _ => { gangs := [{ bid := 0, slices := [0] }], cur := 0, fresh := false })) with
      blocks := Block.placed :: s.blocks.filter (fun b => b.bid != 0), visit := some Visit.placed }

/-- The line that holds the bytes of a word's dwords that fall into it. -/
def wordLine (line pc w : Nat) (old : LineData) : LineData :=
  (List.range 12).foldl (fun d k =>
    if lineOf (pc + k) = line then
      mergeLine d ((BitVec.ofNat 1024 (w / 2 ^ (8 * k) % 256)) <<< (8 * ((pc + k) % 128))) (spanMask ((pc + k) % 128) 1)
    else d) old

/-- A word held by the core under the address that the visit in progress fetches: each page it lies on translates to the frame of its own
number. -/
def State.placeWord (s : State) (w : Nat) : State :=
  match s.visit with
  | none => s
  | some v =>
    let pc := (s.sl v.bid (v.slices.headD 0)).pc.toNat
    let part := (s.blk v.bid).part
    let pages := firstKeys [pc / 65536, (pc + 11) / 65536]
    let lines := firstKeys [lineOf pc, lineOf (pc + 11)]
    s.modCore v.core (fun c =>
      let itlb := c.itlb.filter (fun t => !(t.part == part && pages.contains t.page)) ++
        pages.map (fun p => { part := part, page := p, pf := p, kid := 0 })
      let held := fun line => ((c.icache.find? (fun x => x.line == line && x.kid == 0)).map (fun x => x.data)).getD 0
      let icache := c.icache.filter (fun x => !(x.kid == 0 && lines.contains x.line)) ++
        lines.map (fun l => { line := l, kid := 0, data := wordLine l pc w (held l) })
      { c with itlb := itlb, icache := icache })

end Sys2Proof.Machine
end

