-- ==== Sys2Proof/Machine/Scheduler.lean ====
section
/-! DEFINITION. Which step comes next where neither a visit nor the agenda says so: one order of the agents among those the specification
allows (R6, R226, R256, R299, R388; log entries 1 and 2). Each answers the state after the step, or none where it waits. -/

namespace Sys2Proof.Machine

/-- An operation of a block's slices that can go on, or its register deadlock. -/
def State.blockStep (s : State) (b : Block) : Option State :=
  if b.loc = .saved then none
  else match firstSome (s.sliceStep b.bid) (List.range b.slices.length) with
    | some s => some s
    | none => s.regDeadlock b.bid

/-- A step of the engines, core by core and unit by unit. -/
def State.engineStep (s : State) : Option State :=
  let cores := List.range s.cores.length
  firstSome (fun f => f ()) [
    fun _ => firstSome s.loomStep cores,
    fun _ => firstSome s.mxvStep s.mxvs,
    fun _ => firstSome s.drayStep cores,
    fun _ => firstSome s.surveyorStep [0, 1, 2, 3],
    fun _ => firstSome s.crierStep [0, 1, 2, 3],
    fun _ => firstSome (fun (c : EngCmd) => s.cmdAdvance c.id) s.cmds]

/-- The next placement of a partition, of a new block or a saved one. -/
def State.placeStep (s : State) (p : Nat) : Option State := (s.pick p).map (fun x => s.placeCand x.1 x.2.1 x.2.2)

/-- A step of the Foreman. -/
def State.foremanStep (s : State) : Option State :=
  firstSome (fun f => f ()) [
    fun _ => firstSome (fun (b : Block) => s.blockStopStep b.bid) s.blocks,
    fun _ => firstSome (fun (b : Block) => s.blockSave b.bid) s.blocks,
    fun _ => firstStep s.recs s.recWrite,
    fun _ => firstSome (fun (b : Block) => s.blockRetire b.bid) s.blocks,
    fun _ => firstSome (fun (g : Grid) => s.gridRetire g.gid) s.grids,
    fun _ => firstSome s.queueAccept (List.range 64),
    fun _ => firstSome s.detStart (List.range 64),
    fun _ => firstSome s.placeStep (List.range 16),
    fun _ => s.coreGrant,
    fun _ => firstSome (fun (b : Block) => s.watchdog b.bid) s.blocks]

/-- The occupied section of least time, as core, section and time. -/
def State.nextSection (s : State) : Option (Nat × Nat × Nat) :=
  leastBy (fun (p : Nat × Nat × Nat) => p.2.2) ((s.cores.mapIdx (fun c core => (core.secs.mapIdx (fun k x => (k, x))).filterMap (fun p =>
    if p.2.slots.any (fun y => !y.gangs.isEmpty) then some (c, p.1, p.2.time) else none))).flatten)

/-- The barrel's next step. -/
def State.barrelStep (s : State) : Option State :=
  match s.nextSection with
  | some (c, k, _) => match s.visitSlot c k with
    | some s => some s
    | none => s.endRotation c k
  | none => none

/-- What can go on when no visit is in progress and nothing stands on the agenda. -/
def State.workStep (s : State) : Option State :=
  firstSome (fun f => f ()) [
    fun _ => s.memoryStep,
    fun _ => firstSome s.blockStep s.blocks,
    fun _ => s.engineStep,
    fun _ => s.idlePartials 1024,
    fun _ => s.commandStep,
    fun _ => s.platformStep,
    fun _ => s.foremanStep,
    fun _ => s.barrelStep,
    fun _ => s.idlePartials 0]

/-- The step of the machine then; where nothing can go on, a cycle of a powered device passes (log entry 20). -/
def State.idleStep (s : State) : State := s.workStep.getD { s with clock := if s.host.powered then s.clock + 1 else s.clock }

end Sys2Proof.Machine
end

