-- ==== Sys2Proof/Machine/Step.lean ====
section
/-! DEFINITION. One step of the device, and the placement of a word where the next step fetches it. -/

namespace Sys2Proof.Machine

/-- One step: the visit in progress goes on to its instruction or ends; otherwise the first event of the agenda happens; otherwise the next
event of the default order (log entries 1 and 2). -/
def step (s : State) : Host.Outcome State Fault Refusal :=
  match s.visit with
  | some v => match s.turn v with
    | .over s' => .next s'
    | .issue s' i => exec i s'
  | none => match s.agenda with
    | e :: l => exec e { s with agenda := l }
    | [] => .next s.idleStep

/-- `s` with a 96-bit word placed where the next step fetches it (log entry 3). -/
def State.withFetchWord (s : State) (_nbits w : Nat) : State := (s.withVisit).placeWord w

end Sys2Proof.Machine
end

