-- ==== Sys2Proof/Safety.lean ====
section
/-! DEFINITION. The vocabulary of claims: what counts as a safe step, the canonical form of memory, when an instruction of a visit issues, the
state it then leaves, and what a step leaves alone. -/

namespace Sys2Proof

/-- A step that goes on: neither a fault nor a refusal. -/
def Safe (s : Machine.State) : Prop := ∃ t, Machine.step s = .next t

namespace Machine

/-- Memory in its canonical form: rising addresses, and no entry equal to what an unlisted address reads as (log entry 4). -/
abbrev Memory.wf (m : List Host.Cell) : Bool := mwf 0 m

/-! ## An instruction that issues -/

/-- The instruction of key `key` and fields `f` passes every check that stands between its decoding and its own ones (R67): no deferred trap is
due (R169), a privileged one runs in a privileged launch (R65), its registers and tiles stand within the allocation (R27, R29), and it reads no
timer in a deterministic launch (R36). -/
structure Issues (key : Nat) (f : Fields) (v : Visit) (s : State) : Prop where
  visit : s.visit = some v
  noDeferred : (Ctx.make key f v s).deferredTrap ((Ctx.make key f v s).begin s) = none
  allowed : (Ctx.make key f v s).privileged = true → (s.grid (s.blk v.bid).gid).priv = true
  inRange : ∀ i ∈ v.slices, (Ctx.make key f v s).regRange (s.blk v.bid) i = none
  noTimer : (Ctx.make key f v s).detTimer ((Ctx.make key f v s).begin s) = none

/-- The state in which an instruction reads its operands: the results due by now are visible (R23, R62). -/
def State.opened (s : State) (key : Nat) (f : Fields) (v : Visit) : State := (Ctx.make key f v s).begin s

/-- The state that an instruction leaves whose effect made `s2` of the opened state: the visit ends and its cycles are charged (R20, R22). -/
def State.closed (s : State) (key : Nat) (f : Fields) (v : Visit) (s2 : State) : State :=
  let x := Ctx.make key f v s
  x.finish (x.cost s) (x.deferPoison (s.opened key f v) s2)

/-- The state that a register instruction leaves, whose results are the words `val`. -/
def State.written (s : State) (key : Nat) (f : Fields) (v : Visit) (val : Ctx → State → Nat → Nat → List W32) : State :=
  s.closed key f v ((Ctx.make key f v s).put (s.opened key f v) (val (Ctx.make key f v s) (s.opened key f v)))

/-- The state that an instruction trapped at its issue leaves (R67, R332). -/
def State.stopped (s : State) (key : Nat) (f : Fields) (v : Visit) (t : Trap) : State := (Ctx.make key f v s).trapped s t

/-! ## A visit that reaches its word -/

/-- The visit in progress serves slices of a block that runs and has no saved record left to perform, none of which sits out, is held, or waits with its
fetch for an IFENCE (R20, R22, R188, R202, R222, R248). -/
structure Serves (v : Visit) (s : State) : Prop where
  visit : s.visit = some v
  someSlice : v.slices ≠ []
  running : (s.blk v.bid).stop = none
  inTurn : ∀ i ∈ v.slices, (s.sl v.bid i).ycnt = 0
  unheld : ∀ i ∈ v.slices, (s.sl v.bid i).wait = none
  redone : s.redoLeft (s.blk v.bid) = []
  fetches : ∀ i ∈ v.slices, (s.sl v.bid i).unfetched = false

/-- What the visit in progress fetches at its program counter. -/
def State.visitFetch (s : State) (v : Visit) : State × Except Failure W96 :=
  s.fetch v.core (s.blk v.bid).part (s.sl v.bid (v.slices.headD 0)).pc.toNat

/-- A served slice is ready for the instruction of a word (R22, R23, R61, R62). -/
def Ready (key : Nat) (f : Fields) (v : Visit) (s : State) (w : W96) (i : Nat) : Prop :=
  (s.sl v.bid i).distOk (rawHints w) = true ∧
    (Ctx.make key f v s).waits s (rawHints w) ((Ctx.make key f v s).room s) i = false

/-! ## How an instruction completes -/

/-- A register instruction: whenever it issues, exec answers the state in which every participant's destination takes the words `val`, computed from
the operands in the opened state. -/
def Writes (c : FormR → Instr) (key : Nat) (val : Ctx → State → Nat → Nat → List W32) : Prop :=
  ∀ f s v, Issues key (.r f) v s → exec (c f) s = .next (s.written key (.r f) v val)

/-- An instruction with checks of its own on the opened state: whenever it issues, exec answers the state that its effect `eff` leaves where no check
`bad` fails, and otherwise the state stopped by the trap of the first that fails. -/
def Does (c : FormR → Instr) (key : Nat) (bad : Ctx → State → Option Trap) (eff : Ctx → State → State) : Prop :=
  ∀ f s v, Issues key (.r f) v s →
    (bad (Ctx.make key (.r f) v s) (s.opened key (.r f) v) = none →
      exec (c f) s = .next (s.closed key (.r f) v (eff (Ctx.make key (.r f) v s) (s.opened key (.r f) v)))) ∧
    ∀ t, bad (Ctx.make key (.r f) v s) (s.opened key (.r f) v) = some t → exec (c f) s = .next (s.stopped key (.r f) v t)

/-- The same of a form L instruction. -/
def DoesL (c : FormL → Instr) (key : Nat) (bad : Ctx → State → Option Trap) (eff : Ctx → State → State) : Prop :=
  ∀ f s v, Issues key (.l f) v s →
    (bad (Ctx.make key (.l f) v s) (s.opened key (.l f) v) = none →
      exec (c f) s = .next (s.closed key (.l f) v (eff (Ctx.make key (.l f) v s) (s.opened key (.l f) v)))) ∧
    ∀ t, bad (Ctx.make key (.l f) v s) (s.opened key (.l f) v) = some t → exec (c f) s = .next (s.stopped key (.l f) v t)

/-- An instruction without checks of its own. -/
def Always (c : FormR → Instr) (key : Nat) (eff : Ctx → State → State) : Prop :=
  ∀ f s v, Issues key (.r f) v s →
    exec (c f) s = .next (s.closed key (.r f) v (eff (Ctx.make key (.r f) v s) (s.opened key (.r f) v)))

/-- An instruction of memory: whenever it issues, its checks `chk` of every participant's access in the opened state (R167) give either the state with
the walks they made and the accesses granted, from which its operations `eff` begin, or the trap of the first that fails, or an empty turn where that access
waits (R330, R396). -/
def Reaches {α : Type} (c : FormR → Instr) (key : Nat) (chk : Ctx → State → State → State × Except (Option Trap) α) (eff : Ctx → State → α → State) :
    Prop :=
  ∀ f s v s2, Issues key (.r f) v s →
    (∀ a, chk (Ctx.make key (.r f) v s) (s.opened key (.r f) v) (s.opened key (.r f) v) = (s2, .ok a) →
      exec (c f) s = .next (s.closed key (.r f) v (eff (Ctx.make key (.r f) v s) s2 a))) ∧
    (∀ t, chk (Ctx.make key (.r f) v s) (s.opened key (.r f) v) (s.opened key (.r f) v) = (s2, .error (some t)) →
      exec (c f) s =
        .next ((Ctx.make key (.r f) v s).trapped (chk (Ctx.make key (.r f) v s) (s.opened key (.r f) v) s).1 t)) ∧
    (chk (Ctx.make key (.r f) v s) (s.opened key (.r f) v) (s.opened key (.r f) v) = (s2, .error none) →
      exec (c f) s = .next (s.emptyTurn v (fun _ => false)))

/-! ## What a visit stands on, and what a step leaves alone -/

/-- A visit of slices that its block has, each once. -/
def Visit.Stands (v : Visit) (s : State) : Prop :=
  (s.blocks.find? (fun b => b.bid == v.bid)).isSome ∧ v.slices.Nodup ∧ ∀ i ∈ v.slices, i < (s.blk v.bid).slices.length

/-- A block without what the issue of an instruction of its own may change beside its results: slices, traps and the watchdog count. -/
def Block.bare (b : Block) : Block := { b with slices := [], wdog := 0, stop := none, trseq := 0, blkDef := [] }

/-- A state without what the issue of an instruction of block `bid` may change beside its results: that block's slices, traps and watchdog count,
the gang slots and their time, the trap records, and the visit. Everything else the device holds remains. -/
def State.bare (s : State) (bid : Nat) : State :=
  { s with
    blocks := s.blocks.map (fun b => if b.bid = bid then b.bare else b)
    cores := s.cores.map (fun c => { c with secs := [] })
    recs := []
    seqNo := 0
    clock := 0
    visit := none }

/-- The same state without the identities given to operations, which an instruction that begins one takes. -/
def State.unnumbered (s : State) : State := { s with nextId := 0, iss := 0 }

/-- A slice without what reconvergence may change at another slice's issue (R188, R197): its strand, its issue count, its first REGANG, and of the wait it
stands in, if it does, the kind and whether its condition has held. -/
def Slice.still (sl : Slice) : Slice :=
  { sl with strand := [], wait := sl.wait.map (fun w => { w with kind := .claim 0, met := false }), issueC := 0, cFull := false, firstRg := none }

/-- The same slice without its deferred traps, which an instruction adds to in the slices it serves (R169). -/
def Slice.settled (sl : Slice) : Slice := { sl.still with deferred := [] }

/-- An instruction that leaves alone everything but its block's slices, traps and watchdog count, the time and the barrel, and among the slices of its
block those that its visit does not serve, whether it completes or traps; and the device's time does not go back, and the numbers of the trap records
that stood remain, with one more at most. -/
def StaysInItsVisit (i : Instr) : Prop :=
  ∀ (s : State) (v : Visit) (t : State), s.visit = some v → exec i s = .next t →
    t.bare v.bid = s.bare v.bid ∧ (∀ j, j ∉ v.slices → (t.sl v.bid j).still = (s.sl v.bid j).still) ∧ s.clock ≤ t.clock ∧
      ∃ l : List Nat, l.length ≤ 1 ∧ t.recs.map TrapRec.seq = s.recs.map TrapRec.seq ++ l

end Machine
end Sys2Proof
end

