-- ==== Sys2Proof/Certificates/Slice0/Obligations.lean ====
section
/-! DEFINITION. The statements for the provers. Each docstring is the statement in words; OBLIGATIONS.json names the rules it rests on. -/

section

open Sys2Proof Sys2Proof.Machine

set_option maxRecDepth 8000

/-- The words of four worked examples of the specification decode to the instructions they stand for: MOVI v7, 0x12345678; a guarded FFMA.F32 v10, v4, k2
with a distance, a wait mask and a flag; a guarded IADD.I32 v3, v2, -5; and an LD.N32 v5, [v2:v3 + 64]. An all-zero word decodes to none. -/
def Obligations.WorkedWordsDecode : Prop :=
    decode 0x12345678E00000E078380060 =
      .ok (.movi { ty := .b32, md := 0, gp := 7, gn := false, dist := 0, setf := 15, yld := false, od := .lane 7 .w 0, oa := .none, imm := 0x12345678 }) ∧
    decode 0x000920400080014029580683 =
      .ok (.ffma { ty := .f32, md := 0, gp := 3, gn := true, dist := 2, setf := 5, yld := false, od := .lane 10 .w 0, oa := .lane 4 .w 0,
                   ob := .uni 2 .w 0, wm := 0x009 }) ∧
    decode 0x00009FFB0040006010880240 =
      .ok (.iadd { ty := .i32, md := 0, gp := 1, gn := false, dist := 1, setf := 2, yld := false, od := .lane 3 .w 0, oa := .lane 2 .w 0,
                   ob := .imm 0x1FFB, wm := 0 }) ∧
    decode 0x00008040004000A01038A100 =
      .ok (.ld { ty := .b32, md := 5, gp := 7, gn := false, dist := 0, setf := 2, yld := false, od := .lane 5 .w 0, oa := .lane 2 .w 0,
                 ob := .imm 0x40, wm := 0 }) ∧
    decode 0 = .error .illegalOpcode

/-- Decoding is the inverse of encoding: for every well-formed instruction, with every field at every value its encoding admits, the decoder reads the
instruction back from the word that the encoder writes for it. -/
def Obligations.DecodeInvertsEncode : Prop :=
  ∀ (i : Instr) (w : W96), i.wellFormed = true → i.encode = some w → decode w = .ok i

/-- Each word has at most one meaning: an instruction that the decoder reads from a word is well formed and is encoded by exactly that word. -/
def Obligations.DecodedWordIsItsEncoding : Prop :=
  ∀ (w : W96) (i : Instr), decode w = .ok i → i.wellFormed = true ∧ i.encode = some w

/-- A word of an opcode that the map leaves unassigned decodes to ILLEGAL_OPCODE, and no word of any other opcode does. A visit that fetches such a word
when its slices' distances have elapsed and its wait mask reads zero takes the trap ILLEGAL_OPCODE, whose code is 0x01, precise at the instruction. -/
def Obligations.UnassignedOpcodesTrap : Prop :=
  (∀ w : W96, decode w = .error .illegalOpcode ↔
    let n := (w.extractLsb' 0 9).toNat
    n = 0 ∨ (0x014 ≤ n ∧ n ≤ 0x03F) ∨ (0x06A ≤ n ∧ n ≤ 0x07F) ∨ (0x09F ≤ n ∧ n ≤ 0x0BF) ∨ (0x0D7 ≤ n ∧ n ≤ 0x0FF) ∨ (0x116 ≤ n ∧ n ≤ 0x13F) ∨
      (0x14F ≤ n ∧ n ≤ 0x17F) ∨ (0x18C ≤ n ∧ n ≤ 0x1BF) ∨ 0x1D5 ≤ n) ∧
  (∀ (s s1 : State) (v : Visit) (w : W96), Serves v s → s.visitFetch v = (s1, .ok w) → decode w = .error .illegalOpcode →
    (∀ i ∈ v.slices, (s1.sl v.bid i).distOk (rawHints w) = true ∧ (s1.sl v.bid i).flagsReady (rawHints w).wm 15 = true) →
    step s = .next (s1.wordTrap v .illegalOpcode (s.sl v.bid (v.slices.headD 0)).pc w 0 0)) ∧
  Cause.illegalOpcode.code = 0x01

/-- A step of a visit runs the instruction that its word decodes to: where the visit serves slices that run, fetches a word that decodes to an
instruction, and every served slice is ready for it, the step is the instruction's exec in the state that the fetch leaves. Where a served slice is
not ready, the turn is empty and the distance count of the slices that wait for their distance alone advances. Where the fetch fails, the fault is
taken at the instruction, and where it waits for the retirement of a key the turn is empty (R396; log entry 53). A visit serves slices that run where its block runs with no saved record left to perform, and none of them sits out, is held,
or waits with its fetch for an IFENCE. -/
def Obligations.StepRunsDecodedInstruction : Prop :=
  ∀ (s s1 : State) (v : Visit), Serves v s →
    (∀ (w : W96) (i : Instr) (key : Nat) (f : Fields), s.visitFetch v = (s1, .ok w) → decode w = .ok i → i.fields = some (key, f) →
      ((∀ j ∈ v.slices, Ready key f v s1 w j) → step s = exec i s1) ∧
      ((∃ j ∈ v.slices, ¬Ready key f v s1 w j) →
        step s = .next (s1.emptyTurn v (fun j => !(s1.sl v.bid j).distOk (rawHints w) &&
          !(Ctx.make key f v s1).waits s1 (rawHints w) ((Ctx.make key f v s1).room s1) j)))) ∧
    (∀ e : Failure, s.visitFetch v = (s1, .error e) → step s = .next (if e.held then s1.emptyTurn v (fun _ => false)
      else s1.wordTrap v e.cause (s.sl v.bid (v.slices.headD 0)).pc 0 e.ea e.info))

/-- Between visits a step takes the first event of the agenda, which stands for the agents that the device does not order against one another, and runs
it; with nothing on the agenda it takes the next event of the model's own order (log entries 1 and 2). -/
def Obligations.StepTakesTheAgenda : Prop :=
  ∀ s : State, s.visit = none →
    (∀ (e : Instr) (l : List Instr), s.agenda = e :: l → step s = exec e { s with agenda := l }) ∧
    (s.agenda = [] → step s = .next s.idleStep)

/-- What reset leaves: the privileged registers of every core at their reset values and the watchdog limit at its own, every work queue and cache empty,
no block and no grid, firmware state 1, every doorbell ring empty, every peer link down and every peer window closed; the next trap record is number
1, and memory stands in its canonical form.
By the model's choice: the contents of memory (log entry 4), and the zeros of the queue rings of the partition pages, for which R402 gives no reset
column (log entry 5). -/
def Obligations.ResetLeaves : Prop :=
  State.reset.cores.length = 32 ∧
  (∀ c < 32, let k := State.reset.core c
    k.mxvbat = 0x4 ∧ k.mxvres = 0x2 ∧ k.mxvq = 0x18 ∧ k.steal = 0xF ∧ k.wq = [[], [], [], []] ∧ k.l1 = [] ∧ k.icache = [] ∧ k.itlb = [] ∧
      k.secs.length = 8 ∧ ∀ x ∈ k.secs, x.slots.length = 16 ∧ ∀ y ∈ x.slots, y.gangs = []) ∧
  State.reset.wdogLim = 1000000 ∧ State.reset.blocks = [] ∧ State.reset.grids = [] ∧ State.reset.l2 = [] ∧ State.reset.l3 = [] ∧
  State.reset.dir = [] ∧ State.reset.host.fwst = 1 ∧ State.reset.host.links = [0, 0, 0, 0] ∧
  (∀ w ∈ State.reset.windows, w.opened = false) ∧ (∀ p ∈ State.reset.host.pages, ∀ q ∈ p.queues, q.head = 0 ∧ q.tail = 0) ∧
  State.reset.seqNo = 1 ∧ State.reset.visit = none ∧ State.reset.clock = 0 ∧ Memory.wf State.reset.mem = true

/-- The 42 integer instructions complete: what each writes (R117 to R129). Values are computed from OA (`x.a`), OB (`x.b`) and, where the instruction is
destructive, OD (`x.d`), as the opened state gives them to the thread. -/
def Obligations.IntegerResults : Prop :=
    Writes .iadd 0x040 (fun x s i t => [intOp2 x.ty (fun _ a b => a + b) (x.a s i t) (x.b s i t)]) ∧
    Writes .isub 0x041 (fun x s i t => [intOp2 x.ty (fun _ a b => a - b) (x.a s i t) (x.b s i t)]) ∧
    Writes .imul 0x042 (fun x s i t => [intOp2 x.ty (fun _ a b => a * b) (x.a s i t) (x.b s i t)]) ∧
    Writes .imulh 0x043 (fun x s i t => [intOp2 x.ty (fun _ a b => a * b / 2 ^ 32) (x.a s i t) (x.b s i t)]) ∧
    Writes .imad 0x044 (fun x s i t => [x.a s i t * x.b s i t + x.d s i t]) ∧
    Writes .imadw 0x045 (fun x s i t => words64 (x.d64 s i t + BitVec.ofInt 64 (elemInt x.ty 32 (x.a s i t).toNat * elemInt x.ty 32 (x.b s
      i t).toNat))) ∧
    Writes .imin 0x048 (fun x s i t => [intOp2 x.ty (fun _ a b => if b < a then b else a) (x.a s i t) (x.b s i t)]) ∧
    Writes .imax 0x049 (fun x s i t => [intOp2 x.ty (fun _ a b => if a < b then b else a) (x.a s i t) (x.b s i t)]) ∧
    Writes .iabs 0x04A (fun x s i t => [intOp1 x.ty (fun w a => if x.md.getLsbD 0 then clampInt (typeMin x.ty w) (typeMax x.ty w) (if a <
      0 then -a else a) else if a < 0 then -a else a) (x.a s i t)]) ∧
    Writes .ineg 0x04B (fun x s i t => [intOp1 x.ty (fun w a => if x.md.getLsbD 0 then clampInt (typeMin x.ty w) (typeMax x.ty w) (-a)
      else -a) (x.a s i t)]) ∧
    Writes .shl 0x04E (fun x s i t => [bitOp2 x.ty.width (shlElem x.ty.width) (x.a s i t) (x.b s i t)]) ∧
    Writes .shr 0x04F (fun x s i t => [bitOp2 x.ty.width (shrElem x.ty.width) (x.a s i t) (x.b s i t)]) ∧
    Writes .sar 0x050 (fun x s i t => [bitOp2 x.ty.width (sarElem x.ty.width) (x.a s i t) (x.b s i t)]) ∧
    Writes .rot 0x051 (fun x s i t => [if x.md.getLsbD 0 then (x.a s i t).rotateRight ((x.b s i t).toNat % 32) else (x.a s i t).rotateLeft
      ((x.b s i t).toNat % 32)]) ∧
    Writes .andW 0x052 (fun x s i t => [x.a s i t &&& x.b s i t]) ∧
    Writes .orW 0x053 (fun x s i t => [x.a s i t ||| x.b s i t]) ∧
    Writes .xorW 0x054 (fun x s i t => [x.a s i t ^^^ x.b s i t]) ∧
    Writes .andn 0x055 (fun x s i t => [x.a s i t &&& ~~~(x.b s i t)]) ∧
    Writes .notW 0x056 (fun x s i t => [~~~(x.a s i t)]) ∧
    Writes .bfe 0x057 (fun x s i t => [bfeWord x.ty.signed (x.a s i t) (x.b s i t)]) ∧
    Writes .bfi 0x058 (fun x s i t => [bfiWord (x.a s i t) (x.b s i t) (x.d s i t)]) ∧
    Writes .popc 0x059 (fun x s i t => [BitVec.ofNat 32 (bitsSet 32 (x.a s i t).toNat).length]) ∧
    Writes .clz 0x05A (fun x s i t => [BitVec.ofNat 32 (clz (x.a s i t))]) ∧
    Writes .ctz 0x05B (fun x s i t => [BitVec.ofNat 32 (ctz (x.a s i t))]) ∧
    Writes .brev 0x05C (fun x s i t => [bitsWord (fun n => (x.a s i t).getLsbD (31 - n))]) ∧
    Writes .lea 0x05D (fun x s i t => [x.a s i t + (x.b s i t <<< x.mod 2 0)]) ∧
    Writes .lea64 0x05E (fun x s i t => words64 (x.src64 s i t x.f.oa + ((if x.ty.signed then (x.b s i t).signExtend 64 else (x.b s i
      t).zeroExtend 64) <<< x.mod 2 0))) ∧
    Writes .mov 0x05F (fun x s i t => [x.a s i t]) ∧
    Writes .sel 0x062 (fun x s i t => [if (x.modPred s i t) != x.md.getLsbD 3 then x.a s i t else x.b s i t]) ∧
    Writes .itst 0x063 (fun x s i t => [predWord (intCond (x.mod 2 0) (elemInt x.ty 32 (x.a s i t).toNat) (elemInt x.ty 32 (x.b s i
      t).toNat))]) ∧
    Writes .icmp 0x064 (fun x s i t => [intOp2 x.ty (fun _ a b => if intCond (x.mod 2 0) a b then -1 else 0) (x.a s i t) (x.b s i t)]) ∧
    Writes .iadd64 0x065 (fun x s i t => words64 (x.src64 s i t x.f.oa + x.src64 s i t x.f.ob)) ∧
    Writes .isub64 0x066 (fun x s i t => words64 (x.src64 s i t x.f.oa - x.src64 s i t x.f.ob)) ∧
    Writes .imul64 0x067 (fun x s i t => words64 (x.src64 s i t x.f.oa * x.src64 s i t x.f.ob)) ∧
    Writes .shl64 0x068 (fun x s i t => words64 (BitVec.ofNat 64 (shlElem 64 (x.src64 s i t x.f.oa).toNat (x.b s i t).toNat))) ∧
    Writes .shr64 0x069 (fun x s i t => words64 (BitVec.ofNat 64 ((if x.ty.signed then sarElem else shrElem) 64 (x.src64 s i t
      x.f.oa).toNat (x.b s i t).toNat))) ∧
    Always .idiv 0x046 (fun x s => x.divide s (fun i t => [(divRem x.ty.signed (x.a s i t) (x.b s i t)).1])) ∧
    Always .irem 0x047 (fun x s => x.divide s (fun i t => [(divRem x.ty.signed (x.a s i t) (x.b s i t)).2])) ∧
    Always .iaddc 0x04C (fun x s => x.put s (fun i t => [(addCarry (x.a s i t) (x.b s i t) (decide (x.mod 2 0 ≠ 7) && x.modPred s i
      t)).1]) (fun i t => x.modPredWrite t (addCarry (x.a s i t) (x.b s i t) (decide (x.mod 2 0 ≠ 7) && x.modPred s i t)).2)) ∧
    Always .isubb 0x04D (fun x s => x.put s (fun i t => [(subBorrow (x.a s i t) (x.b s i t) (decide (x.mod 2 0 ≠ 7) && x.modPred s i
      t)).1]) (fun i t => x.modPredWrite t (subBorrow (x.a s i t) (x.b s i t) (decide (x.mod 2 0 ≠ 7) && x.modPred s i t)).2)) ∧
    (∀ (f : FormL) (s : State) (v : Visit), Issues 0x060 (.l f) v s →
      exec (.movi f) s = .next (s.written 0x060 (.l f) v (fun _ _ _ _ => [f.imm]))) ∧
    (∀ (f : FormL) (s : State) (v : Visit), Issues 0x061 (.l f) v s →
      exec (.movh f) s = .next (s.written 0x061 (.l f) v (fun x s i t => [x.a s i t, f.imm])))

/-- The floating-point and conversion instructions complete: what each writes (R91 to R95, R131 to R143). DQNT traps on a Q4 code 0b1000 (R142). -/
def Obligations.FloatResults : Prop :=
    Writes .fadd 0x080 (fun x s i t => [BitVec.ofNat 32 (fAdd Fmt.f32 x.rm false (x.a s i t).toNat (x.b s i t).toNat)]) ∧
    Writes .fsub 0x081 (fun x s i t => [BitVec.ofNat 32 (fAdd Fmt.f32 x.rm true (x.a s i t).toNat (x.b s i t).toNat)]) ∧
    Writes .fmul 0x082 (fun x s i t => [BitVec.ofNat 32 (fMul Fmt.f32 x.rm (x.a s i t).toNat (x.b s i t).toNat)]) ∧
    Writes .ffma 0x083 (fun x s i t => [BitVec.ofNat 32 (fFma Fmt.f32 x.rm (x.a s i t).toNat (x.b s i t).toNat (x.d s i t).toNat)]) ∧
    Writes .fmin 0x084 (fun x s i t => [BitVec.ofNat 32 (fMinMax Fmt.f32 false (x.a s i t).toNat (x.b s i t).toNat)]) ∧
    Writes .fmax 0x085 (fun x s i t => [BitVec.ofNat 32 (fMinMax Fmt.f32 true (x.a s i t).toNat (x.b s i t).toNat)]) ∧
    Writes .ftst 0x086 (fun x s i t => [predWord (fCond (x.mod 2 0) (x.a s i t).toNat (x.b s i t).toNat)]) ∧
    Writes .fcmp 0x087 (fun x s i t => [if fCond (x.mod 2 0) (x.a s i t).toNat (x.b s i t).toNat then 0xFFFFFFFF else 0]) ∧
    Writes .frnd 0x088 (fun x s i t => [BitVec.ofNat 32 (fRnd x.rm (x.a s i t).toNat)]) ∧
    Writes .fdiv 0x089 (fun x s i t => [BitVec.ofNat 32 (fDiv (x.a s i t).toNat (x.b s i t).toNat)]) ∧
    Writes .fsqrt 0x08A (fun x s i t => [BitVec.ofNat 32 (fSqrt (x.a s i t).toNat)]) ∧
    Writes .frcp 0x08B (fun x s i t => [BitVec.ofNat 32 (fRcp (x.a s i t).toNat)]) ∧
    Writes .frsq 0x08C (fun x s i t => [BitVec.ofNat 32 (fRsq (x.a s i t).toNat)]) ∧
    Writes .fex2 0x08D (fun x s i t => [BitVec.ofNat 32 (fEx2 (x.a s i t).toNat)]) ∧
    Writes .flg2 0x08E (fun x s i t => [BitVec.ofNat 32 (fLg2 (x.a s i t).toNat)]) ∧
    Writes .fsin 0x08F (fun x s i t => [BitVec.ofNat 32 (fSin (x.a s i t).toNat)]) ∧
    Writes .fcos 0x090 (fun x s i t => [BitVec.ofNat 32 (fCos (x.a s i t).toNat)]) ∧
    Writes .ftanh 0x091 (fun x s i t => [BitVec.ofNat 32 (fTanh (x.a s i t).toNat)]) ∧
    Writes .hadd2 0x092 (fun x s i t => [packElems 16 ((List.range 2).map (fun j => fAdd Fmt.f16 x.rm false (elemAt 16 (x.a s i t) j)
      (elemAt 16 (x.b s i t) j)))]) ∧
    Writes .hmul2 0x093 (fun x s i t => [packElems 16 ((List.range 2).map (fun j => fMul Fmt.f16 x.rm (elemAt 16 (x.a s i t) j) (elemAt 16
      (x.b s i t) j)))]) ∧
    Writes .hfma2 0x094 (fun x s i t => [packElems 16 ((List.range 2).map (fun j => fFma Fmt.f16 x.rm (elemAt 16 (x.a s i t) j) (elemAt 16
      (x.b s i t) j) (elemAt 16 (x.d s i t) j)))]) ∧
    Writes .badd2 0x095 (fun x s i t => [packElems 16 ((List.range 2).map (fun j => fAdd Fmt.bf16 x.rm false (elemAt 16 (x.a s i t) j)
      (elemAt 16 (x.b s i t) j)))]) ∧
    Writes .bmul2 0x096 (fun x s i t => [packElems 16 ((List.range 2).map (fun j => fMul Fmt.bf16 x.rm (elemAt 16 (x.a s i t) j) (elemAt
      16 (x.b s i t) j)))]) ∧
    Writes .bfma2 0x097 (fun x s i t => [packElems 16 ((List.range 2).map (fun j => fFma Fmt.bf16 x.rm (elemAt 16 (x.a s i t) j) (elemAt
      16 (x.b s i t) j) (elemAt 16 (x.d s i t) j)))]) ∧
    Writes .cvt 0x098 (fun x s i t => packSpan x.ty ((x.spanSrc s i t x.srcTy x.ty).map (cvtElem (RMode.ofCode (x.mod 1 0)) false x.srcTy
      x.ty))) ∧
    Writes .cvts 0x099 (fun x s i t => packSpan x.ty ((x.spanSrc s i t x.srcTy x.ty).mapIdx (fun j e => cvtElem (srMode (srKey (s.launch
      x.bid).seed ((x.src64 s i t x.f.ob).extractLsb' 48 16).toNat) (BitVec.ofNat 64 (((x.src64 s i t x.f.ob).extractLsb' 0 48).toNat *
      (x.spanSrc s i t x.srcTy x.ty).length + j))) (x.md.getLsbD 0) x.srcTy x.ty e))) ∧
    Writes .f2i 0x09A (fun x s i t => [BitVec.ofNat 32 (toInteger x.rm x.ty ((Fmt.f32.decode (x.src s i t .f32 x.f.oa).toNat).scaled
      (fixScale (x.src s i t .i32 x.f.ob))))]) ∧
    Writes .i2f 0x09B (fun x s i t => [BitVec.ofNat 32 (Fmt.f32.round x.rm ⟨elemInt x.ty 32 (x.a s i t).toNat, -(fixScale (x.src s i t
      .i32 x.f.ob))⟩)]) ∧
    Writes .qnt 0x09C (fun x s i t => packSpan x.ty ((x.spanSrc s i t .f32 x.ty).map (qntElem x.rm x.ty ((x.src s i t .i32 x.f.ob).toNat %
      256)))) ∧
    Writes .fcls 0x09E (fun x s i t => [BitVec.ofNat 32 (fClass (x.a s i t).toNat)]) ∧
    Does .dqnt 0x09D Ctx.dqntTrap (fun x s => x.put s (x.dqnt s))

/-- The packed, dot-product and predicate instructions complete: what each writes (R144 to R147). -/
def Obligations.PackedResults : Prop :=
    Writes .vadd 0x0C0 (fun x s i t => [intOp2 x.ty (fun w a b => packedMode x.ty (x.mod 1 0) w (a + b) (a + b + 1)) (x.a s i t) (x.b s i
      t)]) ∧
    Writes .vsub 0x0C1 (fun x s i t => [intOp2 x.ty (fun w a b => packedMode x.ty (x.mod 1 0) w (a - b) (a - b)) (x.a s i t) (x.b s i t)]) ∧
    Writes .vmin 0x0C2 (fun x s i t => [intOp2 x.ty (fun _ p q => minI p q) (x.d s i t) (intOp2 x.ty (fun _ p q => minI p q) (x.a s i t)
      (x.b s i t))]) ∧
    Writes .vmax 0x0C3 (fun x s i t => [intOp2 x.ty (fun _ p q => maxI p q) (x.d s i t) (intOp2 x.ty (fun _ p q => maxI p q) (x.a s i t)
      (x.b s i t))]) ∧
    Writes .vabsd 0x0C4 (fun x s i t => [if x.md.getLsbD 0 then x.d s i t + BitVec.ofNat 32 (sumNat (absDiffs x.ty (x.a s i t) (x.b s i
      t))) else packElems x.ty.width (absDiffs x.ty (x.a s i t) (x.b s i t))]) ∧
    Writes .vdot4 0x0C5 (fun x s i t => [dotWord x.ty 8 (x.md.getLsbD 0) (x.md.getLsbD 1) (x.a s i t) (x.b s i t) (x.d s i t)]) ∧
    Writes .vdot2 0x0C6 (fun x s i t => [dotWord x.ty 16 (x.md.getLsbD 0) (x.md.getLsbD 1) (x.a s i t) (x.b s i t) (x.d s i t)]) ∧
    Writes .pand 0x0C7 (fun x s i t => [predWord ((s.srcPred x.bid i t x.f.oa) && (s.srcPred x.bid i t x.f.ob))]) ∧
    Writes .por 0x0C8 (fun x s i t => [predWord ((s.srcPred x.bid i t x.f.oa) || (s.srcPred x.bid i t x.f.ob))]) ∧
    Writes .pxor 0x0C9 (fun x s i t => [predWord ((s.srcPred x.bid i t x.f.oa) != (s.srcPred x.bid i t x.f.ob))]) ∧
    Writes .pnot 0x0CA (fun x s i t => [predWord (!(s.srcPred x.bid i t x.f.oa))]) ∧
    Writes .pmov 0x0CB (fun x s i t => [predWord ((s.srcPred x.bid i t x.f.oa))]) ∧
    Writes .p2v 0x0CC (fun x s i t => [BitVec.ofNat 32 (sumNat ((List.range 8).map (fun n => if (s.sl x.bid i).pred n t then 2 ^ n else
      0)))]) ∧
    Always .v2p 0x0CD (fun x s => x.put s (fun _ _ => []) (fun i t => ((List.range 7).filter (fun n => (x.b s i t).getLsbD n)).map (fun n
      => { dest := .pred n t, mask := 0xFFFFFFFF, val := predWord ((x.a s i t).getLsbD n) })))

/-- The cross-thread and generator instructions complete: what each writes (R148 to R155). -/
def Obligations.CrossThreadResults : Prop :=
    Writes .shfl 0x0CE (fun x s i t => [x.fetchPos s i t (if x.mod 1 0 = 0 then ((x.b s i t).toNat : Int) else if x.mod 1 0 = 1 then
      (x.gpos s i t : Int) - (x.b s i t).toNat else if x.mod 1 0 = 2 then ((x.gpos s i t + (x.b s i t).toNat : Nat) : Int) else ((Nat.xor
      (x.gpos s i t) (x.b s i t).toNat : Nat) : Int))]) ∧
    Writes .bcast 0x0D4 (fun x s i t => [x.fetchPos s i t ((x.b s i t).toNat : Int)]) ∧
    Writes .vote 0x0CF (fun x s i _ => (let ps := (x.people s i).map (fun p => (p.1, s.srcPred x.bid p.2.1 p.2.2 x.f.oa)); [if x.mod 1 0 =
      0 then predWord (ps.all (fun p => p.2)) else if x.mod 1 0 = 1 then predWord (ps.any (fun p => p.2)) else if x.mod 1 0 = 2 then
      predWord (ps.all (fun p => p.2) || ps.all (fun p => !p.2)) else BitVec.ofNat 32 (sumNat (ps.map (fun p => if p.2 then 2 ^ p.1 else
      0)))])) ∧
    Writes .matchLanes 0x0D0 (fun x s i t => [BitVec.ofNat 32 (sumNat ((x.people s i).map (fun p => if x.a s p.2.1 p.2.2 = x.a s i t then
      2 ^ p.1 else 0)))]) ∧
    Writes .rank 0x0D2 (fun x s i t => [BitVec.ofNat 32 ((x.people s i).filter (fun p => decide (p.1 < x.gpos s i t) && decide (x.a s
      p.2.1 p.2.2 = x.a s i t))).length]) ∧
    Writes .prfx 0x0D1 (fun x s i t => [(prefixSum x.ty (((x.people s i).filter (fun p => decide (p.1 < x.gpos s i t) || (!x.md.getLsbD 0
      && decide (p.1 = x.gpos s i t)))).map (fun p => x.a s p.2.1 p.2.2))).getD 0]) ∧
    Writes .rngk 0x0D5 (fun x s i t => [mGen (srKey (s.launch x.bid).seed ((x.b s i t).toNat % 2 ^ 16)) (x.src64 s i t x.f.oa)]) ∧
    Writes .hshk 0x0D6 (fun x s i t => [mGen (x.src64 s i t x.f.oa) ((x.b s i t).zeroExtend 64)]) ∧
    Writes .redg 0x0D3 (fun x s i _ =>
      [if x.mod 1 0 = 0 then
        (if x.ty = .f32 then
          BitVec.ofNat 32 (accBlock 0 (blockValue false scaleOne scaleOne ((x.people s i).map (fun p =>
            (Fmt.f32.decode (x.a s p.2.1 p.2.2).toNat, Fmt.f32.decode (x.b s p.2.1 p.2.2).toNat)))))
        else ((x.people s i).map (fun p => x.a s p.2.1 p.2.2 * x.b s p.2.1 p.2.2)).foldl (· + ·) 0)
      else match (x.people s i).map (fun p => x.a s p.2.1 p.2.2) with
        | [] => 0
        | w :: ws => (w :: ws).foldl (extremum x.ty (decide (x.mod 1 0 = 2))) w])

/-- The instructions of group 0x000 complete, or trap on the operands that R190 to R222 name. TRAP and BRK in effect in some slice take their own trap,
precise at the instruction, which is their effect. -/
def Obligations.ControlCompletes : Prop :=
    Always .nop 0x001 (fun _ s => s) ∧
    DoesL .bra 0x002 (fun x s => x.targetTrap s (fun _ => x.relative)) (fun x s => x.goTo s (fun _ => x.relative) false) ∧
    Does .brx 0x003 (fun x s => x.targetTrap s (fun i => x.src64 s i 0 x.f.oa)) (fun x s => x.goTo s (fun i => x.src64 s i 0 x.f.oa)
      false) ∧
    DoesL .call 0x004 (fun x s => x.targetTrap s (fun _ => x.relative)) (fun x s => x.goTo s (fun _ => x.relative) true) ∧
    Does .callx 0x005 (fun x s => x.targetTrap s (fun i => x.src64 s i 0 x.f.oa)) (fun x s => x.goTo s (fun i => x.src64 s i 0 x.f.oa)
      true) ∧
    Does .ret 0x006 (fun x s => x.targetTrap s (fun i => x.src64 s i 0 x.f.oa)) (fun x s => x.goTo s (fun i => x.src64 s i 0 x.f.oa)
      false) ∧
    Always .exit 0x007 Ctx.exit ∧
    DoesL .pushj 0x008 Ctx.pushjTrap (fun x s => s.forSlices x.bid x.v.slices (fun i sl => x.pushj s i sl)) ∧
    Does .join 0x009 Ctx.joinTrap (fun x s => x.v.slices.foldl (fun acc i => (acc.unwind x.bid i).recount x.bid) s) ∧
    DoesL .regang 0x00A (fun _ _ => none) (fun x s => ((x.v.slices.foldl (fun acc i => x.regang acc i) s).regangCheck x.bid).forSlices x.bid
      x.v.slices (fun _ sl => sl.goOn)) ∧
    Always .part 0x00B (fun x s => s.modSec x.v.core x.v.sec (fun sec => sec.modSlot x.v.slot (fun slot => slot.replace (fun g => if g.bid
      = x.bid ∧ g.slices.any (fun i => x.v.slices.contains i) then g.byClass (x.partClass s) else [g])))) ∧
    Does .refill 0x00C Ctx.refillTrap (fun x s => x.v.slices.foldl (fun acc i => x.refillOne acc i) s) ∧
    Always .refillPush 0x20C (fun x s => x.v.slices.foldl (fun acc i => x.pushOne s acc i) s) ∧
    Reaches .tlaunch 0x00D Ctx.tlaunchCheck Ctx.tlaunch ∧
    Always .yield 0x00E (fun x s => s.forSlices x.bid (x.inEffect s) (fun i sl => { sl with ycnt := min (x.a s i 0).toNat 255 })) ∧
    Does .trap 0x00F (fun x s => x.softTrap .trap s) (fun _ s => s) ∧
    Does .brk 0x010 (fun x s => x.softTrap .brk s) (fun _ s => s) ∧
    Writes .rdsr 0x011 (fun x s i t => s.sregWords x.bid i t (sregNo x.f.oa)) ∧
    Always .wrsr 0x012 (fun x s => (x.inEffect s).foldl (fun acc i => (x.parts s i).foldl (fun acc t => acc.writeSreg x.v.core (sregNo
      x.f.od) (x.a s i t)) acc) s) ∧
    Always .ifence 0x013 (fun x s => x.plainBegin s (x.takes s) Mop.ifence)

/-- The instructions of group 0x140 complete, or trap on the operands that R186 and R208 to R223 name. -/
def Obligations.SyncCompletes : Prop :=
    Does .qdecl 0x140 Ctx.qdeclTrap Ctx.qdecl ∧
    Does .qsign 0x141 (fun x s => x.undeclared s (resNo x.f.oa)) (fun x s => x.sign s (resNo x.f.oa)) ∧
    Always .qwait 0x142 (fun x s => x.qwait s (resNo x.f.oa)) ∧
    Always .bar 0x143 Ctx.bar ∧
    Does .waitf 0x144 Ctx.waitfTrap Ctx.wait ∧
    Always .waitt 0x145 Ctx.wait ∧
    Always .waitta 0x146 Ctx.wait ∧
    Does .tagff 0x147 (fun x s => x.timerTrap s true) (fun x s => x.put s (fun i t => [BitVec.ofNat 32 (((bitsSet 64 (x.src64 s i t
      x.f.oa).toNat).filter (fun n => ((s.blk x.bid).tag n).ready)).headD 64)])) ∧
    Always .tagclr 0x148 (fun x s => (x.inEffect s).foldl (fun acc i => acc.modBlk x.bid (fun b => b.tagsIdle (x.src64 s i 0 x.f.oa))) s) ∧
    (∀ (f : FormR) (s : State) (v : Visit), Issues 0x149 (.r f) v s →
      (∀ s2, (Ctx.make 0x149 (.r f) v s).cbexp (s.opened 0x149 (.r f) v) = .ok s2 →
        exec (.cbexp f) s = .next (s.closed 0x149 (.r f) v s2)) ∧
      ∀ t, (Ctx.make 0x149 (.r f) v s).cbexp (s.opened 0x149 (.r f) v) = .error t →
        exec (.cbexp f) s = .next (s.stopped 0x149 (.r f) v t)) ∧
    Always .cbwait 0x14A Ctx.wait ∧
    Does .cbrd 0x14B (fun x s => x.timerTrap s true) (fun x s => x.put s (fun _ _ => [((s.blk x.bid).cb (resNo x.f.oa)).word (x.mod 0
      0)])) ∧
    Does .claim 0x14C Ctx.claimTrap Ctx.claim ∧
    Does .give 0x14D Ctx.giveTrap (fun x s => (x.inEffect s).foldl (fun acc i => acc.modBlk x.bid (fun b => b.give i (x.claimed s i))) s) ∧
    Does .poolq 0x14E Ctx.poolqTrap (fun x s => x.put s (fun i _ => [BitVec.ofNat 32 (s.poolCount x.bid i (x.claimed s i))]))

/-- The instructions of group 0x100 complete: their operations begin where every check of R167 passes, and otherwise the first failing check traps. -/
def Obligations.MemoryCompletes : Prop :=
    Reaches .ld 0x100 Ctx.loadCheck (fun x => x.loadBegin (x.mod 5 3)) ∧
    Reaches .st 0x101 Ctx.storeCheck (fun x => x.storeBegin (x.mod 5 3)) ∧
    Reaches .ldv 0x102 Ctx.loadCheck (Ctx.loadBegin 0) ∧
    Reaches .stv 0x103 Ctx.storeCheck (Ctx.storeBegin 0) ∧
    Does .ldb 0x104 (fun x s => firstSome (x.benchCheck s false) (Ctx.benchLoads x s)) (fun x s => x.benchBegin s .ldb (Ctx.benchLoads x
      s) x.dataRegs) ∧
    Does .stb 0x105 (fun x s => firstSome (x.benchCheck s false) (Ctx.benchStores x s)) (fun x s => x.benchBegin s .stb (Ctx.benchStores x
      s) 0) ∧
    Does .ldbv 0x106 (fun x s => firstSome (x.benchCheck s false) (Ctx.benchLoads x s)) (fun x s => x.benchBegin s .ldb (Ctx.benchLoads x
      s) x.dataRegs) ∧
    Does .stbv 0x107 (fun x s => firstSome (x.benchCheck s false) (Ctx.benchStores x s)) (fun x s => x.benchBegin s .stb (Ctx.benchStores
      x s) 0) ∧
    Reaches .atom 0x108 (Ctx.atomicCheck true (fun _ => false) Ctx.oneB) (Ctx.atomicBegin .atom true) ∧
    Reaches .acas 0x109 (Ctx.atomicCheck true (fun _ => false) Ctx.casPair) (Ctx.atomicBegin .acas true) ∧
    Reaches .red 0x10A (Ctx.atomicCheck false Ctx.detOp Ctx.oneB) (Ctx.atomicBegin .red false) ∧
    Reaches .redf 0x10B Ctx.redfCheck (Ctx.slotBegin .redf 0) ∧
    Reaches .reddcl 0x10C Ctx.reddclCheck (Ctx.spanBegin .reddcl) ∧
    Reaches .redrd 0x10D Ctx.redrdCheck (Ctx.slotBegin .redrd 1) ∧
    Does .atomb 0x10E (fun x s => firstSome (x.benchCheck s (x.atombDet s)) (Ctx.benchAtoms x s)) (fun x s => x.benchBegin s .atomb
      (Ctx.benchAtoms x s) x.atombRegs) ∧
    Reaches .rwb 0x10F (Ctx.rangeCheck false) (Ctx.spanBegin .rwb) ∧
    Reaches .rinv 0x110 (Ctx.rangeCheck true) (Ctx.spanBegin .rinv) ∧
    Reaches .rwbi 0x111 (Ctx.rangeCheck false) (Ctx.spanBegin .rwbi) ∧
    Always .fence 0x112 (fun x s => x.plainBegin s (fun _ => true) x.fenceMop) ∧
    Always .tfence 0x113 (fun x s => x.plainBegin s (x.takes s) Mop.tfence) ∧
    Reaches .pref 0x114 Ctx.prefCheck Ctx.prefBegin ∧
    Does .harvest 0x115 (fun x s => firstSome (x.selectorTrap s) x.v.slices) (fun x s => x.v.slices.foldl (fun acc i => x.startOp acc i {
      Mop.blank with kind := .harvest, arg := x.selectors s i, stage := 4 } []) s)

/-- The instructions of group 0x180 complete: their operations enter Loom order, or sign, or begin an MXV; or the first failing check of R225 traps. -/
def Obligations.MatrixCompletes : Prop :=
    Does .lalloc 0x180 (fun x s => x.loomTrap s (fun _ => none)) (fun x s => x.loomEnter s (fun x s i => x.descriptor s i)
      (fun _ _ _ => [])) ∧
    Does .lfree 0x181 (fun x s => x.loomTrap s (fun _ => none)) (fun x s => x.loomEnter s (fun x s i => x.descriptor s i)
      (fun _ _ _ => [])) ∧
    Does .lzero 0x182 (fun x s => x.loomTrap s (fun i => x.tileFree s i)) (fun x s => x.loomEnter s (fun x s i => x.descriptor s i) (fun _
      _ _ => [])) ∧
    Does .lldc 0x183 (fun x s => x.loomTrap s (fun i => firstTrapOf [x.tileFree s i, x.cornerTrap s i (x.descriptor s i)])) (fun x s =>
      x.loomEnter s (fun x s i => x.descriptor s i) (fun _ _ _ => [])) ∧
    Does .lopf 0x184 (fun x s => x.loomTrap s (fun i => x.lopfTrap s i (x.lopfDesc s i))) (fun x s => x.loomEnter s Ctx.lopfDesc
      Ctx.lopfVals) ∧
    Does .lmma 0x185 (fun x s => x.loomTrap s (fun i => firstTrapOf [x.tileFree s i, x.matTrap s i (x.descriptor s i)])) (fun x s =>
      x.loomEnter s (fun x s i => x.descriptor s i) (fun _ _ _ => [])) ∧
    Does .lmms 0x186 (fun x s => x.loomTrap s (fun i => firstTrapOf [x.tileFree s i, x.matTrap s i (x.descriptor s i)])) (fun x s =>
      x.loomEnter s (fun x s i => x.descriptor s i) (fun _ _ _ => [])) ∧
    Does .lmmg 0x187 (fun x s => x.loomTrap s (fun i => firstTrapOf [x.tileFree s i, x.matTrap s i (x.descriptor s i)])) (fun x s =>
      x.loomEnter s (fun x s i => x.descriptor s i) (fun _ _ _ => [])) ∧
    Does .ldrn 0x188 (fun x s => x.loomTrap s (fun i => firstTrapOf [x.tileFree s i, x.cornerTrap s i (x.descriptor s i)])) (fun x s =>
      x.loomEnter s (fun x s i => x.descriptor s i) (fun _ _ _ => [])) ∧
    Does .ldrx 0x189 (fun x s => x.loomTrap s (fun i => firstTrapOf [x.tileFree s i, x.cornerTrap s i (x.descriptor s i)])) (fun x s =>
      x.loomEnter s (fun x s i => x.descriptor s i) (fun _ _ _ => [])) ∧
    Does .mxv 0x18A (fun x s => firstSome (fun i => x.mxvTrap s i (x.descriptor s i)) (x.inEffect s)) (fun x s => (x.inEffect s).foldl
      (fun acc i => x.mxvCall acc i (x.descriptor s i)) s) ∧
    Does .mxvp 0x18B (fun x s => x.timerTrap s true) (fun x s => x.put s (fun i _ => [(s.sl x.bid i).mxp.zeroExtend 32]))

/-- The commands of the Dray, the Surveyor and the Crier complete at their issue: a command begins in every slice in effect, or the first failing check of
its descriptor traps (R254, R260, R264 to R271, R273 to R280). -/
def Obligations.EngineCommandsComplete : Prop :=
    Does .dcpy 0x1C0 (fun x s => firstSome (fun i => x.drayTrap s i (x.descriptor s i)) (x.inEffect s)) (fun x s => x.startCmds s (fun x _
      _ _ => .dray x.v.core) (fun x _ d => drayHeld x.word d) (fun x s i => x.descriptor s i) (fun _ _ _ => 0)) ∧
    Does .dgth 0x1C1 (fun x s => firstSome (fun i => x.drayTrap s i (x.descriptor s i)) (x.inEffect s)) (fun x s => x.startCmds s (fun x _
      _ _ => .dray x.v.core) (fun x _ d => drayHeld x.word d) (fun x s i => x.descriptor s i) (fun _ _ _ => 0)) ∧
    Does .dsct 0x1C2 (fun x s => firstSome (fun i => x.drayTrap s i (x.descriptor s i)) (x.inEffect s)) (fun x s => x.startCmds s (fun x _
      _ _ => .dray x.v.core) (fun x _ d => drayHeld x.word d) (fun x s i => x.descriptor s i) (fun _ _ _ => 0)) ∧
    Does .dsca 0x1C3 (fun x s => firstSome (fun i => x.drayTrap s i (x.descriptor s i)) (x.inEffect s)) (fun x s => x.startCmds s (fun x _
      _ _ => .dray x.v.core) (fun x _ d => drayHeld x.word d) (fun x s i => x.descriptor s i) (fun _ _ _ => 0)) ∧
    Does .dcsr 0x1C4 (fun x s => firstSome (fun i => x.drayTrap s i (x.descriptor s i)) (x.inEffect s)) (fun x s => x.startCmds s (fun x _
      _ _ => .dray x.v.core) (fun x _ d => drayHeld x.word d) (fun x s i => x.descriptor s i) (fun _ _ _ => 0)) ∧
    Does .dfil 0x1C5 (fun x s => firstSome (fun i => x.drayTrap s i (x.descriptor s i)) (x.inEffect s)) (fun x s => x.startCmds s (fun x _
      _ _ => .dray x.v.core) (fun x _ d => drayHeld x.word d) (fun x s i => x.descriptor s i) (fun _ _ _ => 0)) ∧
    Does .svpt 0x1C6 (fun x s => firstSome (fun i => x.svptTrap s i (x.descriptor s i)) (x.inEffect s)) (fun x s => x.startCmds s (fun x s
      i _ => .surveyor (unitOf (x.tableWord s i))) (fun x _ d => surveyorSpans x.key d) (fun x s i => x.descriptor s i) (fun _ _ _ => 0)) ∧
    Does .svvox 0x1C7 (fun x s => firstSome (fun i => x.svvoxTrap s i (x.descriptor s i)) (x.inEffect s)) (fun x s => x.startCmds s (fun x
      s i _ => .surveyor (unitOf (x.tableWord s i))) (fun x _ d => surveyorSpans x.key d) (fun x s i => x.descriptor s i) (fun _ _ _ =>
      0)) ∧
    Does .svqry 0x1C8 (fun x s => firstSome (fun i => x.svqryTrap s i (x.descriptor s i)) (x.inEffect s)) (fun x s => x.startCmds s (fun x
      s i _ => .surveyor (unitOf (x.tableWord s i))) (fun x _ d => surveyorSpans x.key d) (fun x s i => x.descriptor s i) (fun _ _ _ =>
      0)) ∧
    Does .svnbr 0x1C9 (fun x s => firstSome (fun i => x.svnbrTrap s i (x.descriptor s i)) (x.inEffect s)) (fun x s => x.startCmds s (fun x
      s i _ => .surveyor (unitOf (x.tableWord s i))) (fun x _ d => surveyorSpans x.key d) (fun x s i => x.descriptor s i) (fun _ _ _ =>
      0)) ∧
    Does .svdwn 0x1CA (fun x s => firstSome (fun i => x.svdwnTrap s i (x.descriptor s i)) (x.inEffect s)) (fun x s => x.startCmds s (fun x
      s i _ => .surveyor (unitOf (x.tableWord s i))) (fun x _ d => surveyorSpans x.key d) (fun x s i => x.descriptor s i) (fun _ _ _ =>
      0)) ∧
    Does .svmap 0x1CB (fun x s => firstSome (fun i => x.svmapTrap s i (x.descriptor s i)) (x.inEffect s)) (fun x s => (x.inEffect s).foldl
      (fun acc i => x.askCmd s acc i (.surveyor (unitOf (dW (x.descriptor s i) 0))) (x.descriptor s i) 2 0) s) ∧
    Does .svfree 0x1CC (fun x s => firstSome (fun i => x.badField i (failsAt [(0, twBad (dW [BitVec.ofNat 32 (x.tableWord s i)] 0)
      false)])) (x.inEffect s)) (fun x s => x.startCmds s (fun x s i _ => .surveyor (unitOf (x.tableWord s i))) (fun x _ d =>
      surveyorSpans x.key d) (fun x s i => [BitVec.ofNat 32 (x.tableWord s i)]) (fun _ _ _ => 0)) ∧
    Does .svclr 0x1CD (fun x s => firstSome (fun i => x.svclrTrap s i (x.descriptor s i)) (x.inEffect s)) (fun x s => x.startCmds s (fun x
      s i _ => .surveyor (unitOf (x.tableWord s i))) (fun x _ d => surveyorSpans x.key d) (fun x s i => x.descriptor s i) (fun _ _ _ =>
      0)) ∧
    Does .atstrm 0x1CE (fun x s => firstSome (fun i => x.atstrmTrap s i (x.descriptor s i)) (x.inEffect s)) (fun x s => x.startCmds s (fun
      _ _ _ d => .crier (crierOf (bitsOf (dW d 0) 5 0))) (fun _ _ _ => []) (fun x s i => x.descriptor s i) (fun _ _ _ => 0)) ∧
    Does .atsub 0x1CF (fun x s => firstSome (fun i => x.atsubTrap s i (x.descriptor s i)) (x.inEffect s)) (fun x s => (x.inEffect s).foldl
      (fun acc i => x.subscribe s acc i) s) ∧
    Does .atnext 0x1D0 Ctx.noSub (fun x s => (x.inEffect s).foldl (fun acc i => x.askCmd s acc i (x.subUnit s i (x.subOperands s i))
      (x.subOperands s i) 1 (x.subArg s (x.subOperands s i))) s) ∧
    Does .atpost 0x1D1 (fun x s => firstSome (fun i => x.atpostTrap s i (x.descriptor s i)) (x.inEffect s)) (fun x s => (x.inEffect
      s).foldl (fun acc i => x.post s acc i) s) ∧
    Does .atdone 0x1D2 (fun x s => firstSome (fun i => x.atdoneTrap s i (x.subOperands s i)) (x.inEffect s)) (fun x s => x.startCmds s
      Ctx.subUnit (fun _ _ _ => []) Ctx.subOperands Ctx.subArg) ∧
    Does .atmrg 0x1D3 (fun x s => firstSome (fun i => x.atmrgTrap s i (x.descriptor s i)) (x.inEffect s)) (fun x s => x.startCmds s
      Ctx.subUnit Ctx.mergeSpans (fun x s i => x.descriptor s i) Ctx.subArg) ∧
    Does .atuns 0x1D4 Ctx.noSub (fun x s => (x.inEffect s).foldl (fun acc i => x.unsubscribe s acc i) s)

/-- Each event of the barrel and of the Foreman completes under the conditions named here, with the next state that follows. SLOT_VISIT and ROTATION_END:
no visit is in progress, and the section comes first of its core and a slot of it is due, or no slot is. QUEUE_ENTRY_ACCEPT: a posted entry of a ring that reads; a record that parses
becomes a candidate task with status 1 written, one that does not is answered with status 4 and its reason. CORE_GRANT_DECISION: a core promised to a
partition goes to it once it is empty; with none promised, the poorest partition under its guarantee gets a free core; where none is free, the
partition furthest above its guarantee gives up its emptiest core, promised to the poorest; where no guarantee is open, the highest priority that wants a core gets it. DET_GRID_START: the grid at the head of its ready queue binds the cores its partition holds.
BLOCK_ADMISSION and BLOCK_RESTORE: the block that its partition would start next on a core with room, at the frame place found. BLOCK_RETIRE: a block
whose threads and operations are done first writes back its core's L1, and once those writes are performed is removed. GRID_RETIRE: with every block
retired the chain ends with status 3 after a failure or 2 without a link, or the linked child starts, or the chain ends with status 4 where the
child's record does not read. BLOCK_STOP: a drained and settled stopped block consumes its deferred trap and
writes back its L1. BLOCK_SAVE: with those writes performed it is removed where its
grid was ended, and otherwise written to its frame. TRAP_RECORD_WRITE: the record goes to the log and then, where its ring has space, to the ring,
with the ring's vector raised. WATCHDOG_EXPIRY: a running block that has been idle up to the limit stops with WATCHDOG on its lowest live slice.
By the model's choice: the core in CORE_GRANT_DECISION that is emptied and promised, and the decisions it holds back (log entry 71); the frame place
found (29); what the Foreman does with a record it cannot write or read (68); when a deterministic grid's places are reserved (92). -/
def Obligations.ForemanEventsComplete : Prop :=
  (∀ (core sec n : Nat) (s : State) (x : Section) (y : Slot) (g : Gang), s.visit = none → (s.core core).secs[sec]? = some x →
      x.nextDue = some n → x.slots[n]? = some y → y.gangs[y.cur]? = some g → (s.core core).first sec = true →
      exec (.slotVisit core sec) s = .next { s.modSec core sec (fun z =>
          { z.modSlot n (fun _ => { y with cur := if y.cur + 1 < y.gangs.length then y.cur + 1 else 0 }) with next := n + 1 }) with
        visit := some { core := core, sec := sec, slot := n, bid := g.bid, slices := g.slices } }) ∧
  (∀ (core sec : Nat) (s : State) (x : Section), s.visit = none → (s.core core).secs[sec]? = some x → x.nextDue = none →
      (∃ y ∈ x.slots, y.gangs ≠ []) →
      let s1 := (s.packAny core sec).modSec core sec Section.heddle
      exec (.rotationEnd core sec) s = .next ((if x.spent = false ∧ x.passed = true then s1.charge core sec 1 else s1).modSec core sec
        (fun y => { y with next := 0, spent := false, passed := false, slots := y.slots.map (fun z => { z with fresh := false }) }))) ∧
  (∀ (q : Nat) (s : State) (e : List Byte), let r := s.queueRing q
      let qea := r.base + 16 * (r.head % r.size)
      let s0 := s.recallVirt (q / 4) qea 16
      q < 64 → r.size ≠ 0 → r.head ≠ r.tail → bitOf r.err 1 = false → s0.readVirt (q / 4) qea 16 = .ok e →
      let lra := field e 0 8 / 256 * 256
      let s1 := (({ s0 with host := { s0.host with pfPosts := s0.host.pfPosts.filter (fun p => decide (p ≠ (q, r.head))) } } : State).modQueue q
        (fun r => { r with head := (r.head + 1) % 2 ^ 32 })).recallLaunch (q / 4) lra
      let irq := bitOf (field e 0 8) 0
      (∀ l, s1.readLaunch (q / 4) lra none = .ok l → let s2 := s1.writeEntry (q / 4) qea (bytesOf 1 1)
        exec (.queueEntryAccept q) s = .next ({ s2 with nextId := s2.nextId + 1 }.taskAccept
          (gridOf s2.nextId q qea irq (s0.host.pfPosts.contains (q, r.head)) l))) ∧
      ∀ rsn, s1.readLaunch (q / 4) lra none = .error rsn →
        exec (.queueEntryAccept q) s = .next ((s1.writeEntry (q / 4) qea (bytesOf 1 4 ++ bytesOf 1 rsn)).entryIrq q irq)) ∧
  (∀ s : State, let held := fun (p : Nat) => (s.heldCores p).length
      let guar := fun (p : Nat) => (s.part p).guar
      let want := (List.range 16).filter (fun p => (s.wish p).isSome)
      let poorest := firstUnder (fun a b => decide (held a * guar b < held b * guar a)) (want.filter (fun p => decide (held p < guar p)))
      let promised := (List.range s.cores.length).find? (fun c => (s.core c).promised.isSome)
      (∀ c p, promised = some c → (s.core c).promised = some p → (s.core c).holder = none →
        let s1 := s.modCore c (fun k => { k with promised := none })
        (∀ w, s1.wish p = some w → exec .coreGrantDecision s = .next (s1.giveCore p c w)) ∧
        (s1.wish p = none → exec .coreGrantDecision s = .next s1)) ∧
      (∀ p c w, promised = none → poorest = some p → s.freeCore = some c → s.wish p = some w →
        exec .coreGrantDecision s = .next (s.giveCore p c w)) ∧
      (∀ p q c, promised = none → poorest = some p → s.freeCore = none →
        firstUnder (fun a b => decide (held a - guar a > held b - guar b) || (decide (held a - guar a = held b - guar b) && decide (b < a)))
          ((List.range 16).filter (fun q => decide (guar q < held q))) = some q →
        firstUnder (fun a b => let la := (s.residents a).length
          let lb := (s.residents b).length
          decide (la < lb) || (decide (la = lb) && decide (b < a))) (s.heldCores q) = some c →
        let s1 := (s.modCore c (fun k => { k with promised := some p })).rebind q c
        exec .coreGrantDecision s = .next ((s1.residents c).foldl (fun s b => s.preempt b.bid) s1).freeCores) ∧
      ∀ p c w, promised = none → poorest = none → s.freeCore = some c →
        firstUnder (fun a b => let pri := fun (p : Nat) => ((s.wish p).map (fun w => w.1)).getD 4
          decide (pri a < pri b) || (decide (pri a = pri b) && decide (held a < held b))) want = some p →
        s.wish p = some w → exec .coreGrantDecision s = .next (s.giveCore p c w)) ∧
  (∀ (rq : Nat) (s : State) (g : Grid), s.headGrid rq = some g → g.lr.det = true → g.started = false → g.ended = false →
      s.ownCores g.lr.part ≠ [] → exec (.detGridStart rq) s = .next (s.bindGrid g)) ∧
  (∀ (p n core cfa : Nat) (s : State) (g : Grid), s.pick p = some (g, .new n, core) →
      let s1 := if g.lr.det then s.reserve g (s.candCore g (.new n)) core else s
      s1.framePlace g.lr.part g.lr.frameBytes = some cfa → exec (.blockAdmission p) s = .next (s1.admitNew g n core cfa)) ∧
  (∀ (bid core : Nat) (s : State) (g : Grid), s.pick (s.blk bid).part = some (g, .saved bid, core) →
      exec (.blockRestore bid core) s =
        .next ((if g.lr.det then s.reserve g (s.candCore g (.saved bid)) core else s).restoreBlock g bid core)) ∧
  (∀ (bid core : Nat) (s : State), let b := s.blk bid
      b.loc = .resident core → s.blockDone b = true →
      (b.bar = 0 → let s1 := (s.l1FlushAll core).drainUnits b.touched
        exec (.blockRetire bid) s = .next (s1.modBlk bid (fun b => { b with bar := s1.nextId }))) ∧
      (b.bar ≠ 0 → s.flushed core b.bar = true →
        exec (.blockRetire bid) s = .next (((((s.residueTrap b).dropExtents bid).dropPv bid core).modGrid b.gid
          (fun g => { g with retired := g.retired + 1 })).removeBlock bid))) ∧
  (∀ (gid : Nat) (s : State) (g0 : Grid), s.grids.find? (fun g => g.gid == gid) = some g0 → s.gridOver g0 = true →
      let g := { g0 with disc := g0.disc + s.wqCount gid }
      let s1 := ((s.wqDrop gid).modGrid gid (fun _ => { g with started := false, hosts := [] })).freeCores
      let link := match g0.cand with
        | some c => c.lra.toNat
        | none => g0.lr.tlk.toNat
      (g0.ended = true ∨ g0.failed = true → exec (.gridRetire gid) s = .next (s1.endChain g 3 0)) ∧
      (g0.ended = false → g0.failed = false → link = 0 → exec (.gridRetire gid) s = .next (s1.endChain g 2 0)) ∧
      let s2 := s1.recallLaunch g0.lr.part link
      (∀ rsn, g0.ended = false → g0.failed = false → link ≠ 0 → s2.readLaunch g0.lr.part link (some g0.lr.pri) = .error rsn →
        exec (.gridRetire gid) s = .next (s2.endChain g 4 rsn)) ∧
      ∀ l, g0.ended = false → g0.failed = false → link ≠ 0 → s2.readLaunch g0.lr.part link (some g0.lr.pri) = .ok l →
        let child := { gridOf s2.nextId g0.queue g0.qea g0.irq g0.priv l with
          rq := g0.rq, chain := (g0.lr.sla, g0.lr.sln) :: g0.chain, chn := g0.chn + 1, disc := g.disc }
        exec (.gridRetire gid) s = .next { s2 with
          nextId := s2.nextId + 1, grids := s2.grids.map (fun y => if y.gid = gid then child else y),
          ready := s2.ready.map (fun l => l.map (fun k => if k = gid then child.gid else k)) }) ∧
  (∀ (bid core : Nat) (s : State), let b := s.blk bid
      b.loc = .resident core → b.stop ≠ none → b.bar = 0 → s.settled b = true → s.drained b = true →
      let s1 := (match b.stop.bind (fun st => st.trap) with
        | some t => s.consume bid t
        | none => s).l1FlushAll core
      exec (.blockStop bid) s = .next (s1.modBlk bid (fun b => { b with bar := s1.nextId }))) ∧
  (∀ (bid core : Nat) (s : State) (st : Stop), let b := s.blk bid
      b.loc = .resident core → b.stop = some st → b.bar ≠ 0 → s.drained b = true → s.flushed core b.bar = true →
      let s1 := (s.dropExtents bid).dropPv bid core
      let ops := b.loomQ.map (fun o => o.id)
      ((s.grid b.gid).ended = true → exec (.blockSave bid) s = .next (s1.removeBlock bid)) ∧
      ((s.grid b.gid).ended = false →
        let s2 := { s1.saveSubs bid with
          cmds := (s1.saveSubs bid).cmds.map (EngCmd.requeued bid), cores := (s1.saveSubs bid).cores.map (fun (c : Core) => (c.withoutPins ops).withoutGangs bid) }
        let s3 := s2.modBlk bid (fun b => { b with
          loc := .saved, loomQ := b.loomQ.map LoomOp.requeued, resume := decide (st.state = 1), frState := st.state, bar := 0
          gangs := s.gangsOf (s.blk bid) core, wdog := s2.refTime - b.wdog })
        exec (.blockSave bid) s = .next (s3.writeFrame (s3.blk bid) st.state).freeCores)) ∧
  (∀ (n : Nat) (s : State) (r : TrapRec), s.recs[n]? = some r → s.recReady n r = true →
      (r.logged = false → s.host.pwrfail = false →
        exec (.trapRecordWrite n) s = .next { s.commitFirst r 17 with recs := updAt (fun y => { y with logged := true }) n s.recs }) ∧
      ∀ s1, r.logged = true → r.device = false → let k := s.recRing r
        (k.tail + 2 ^ 32 - k.head) % 2 ^ 32 ≠ k.size → s.writeVirt r.part (k.base + 128 * (k.tail % max 1 k.size)) (recordBytes r) = .ok s1 →
        let s2 := s1.modRecRing r (fun k => { k with tail := (k.tail + 1) % 2 ^ 32 })
        exec (.trapRecordWrite n) s = .next ({ s2 with recs := s1.recs.eraseIdx n }.raiseMsi (r.part + 1) k.vec)) ∧
  (∀ (bid core i : Nat) (s : State), let b := s.blk bid
      b.loc = .resident core → b.slices.findIdx? (fun sl => !sl.ended) = some i → b.stop = none → s.wdogLim ≠ 0 →
      s.wdogLim.toNat ≤ s.idleTime b →
      let at_ := s.standsAt core b.part (b.sl i)
      exec (.watchdogExpiry bid) s = .next (s.takeTrap bid
        { cause := .watchdog, kind := 2, slc := i, pc := at_.1, tpc := at_.1, word := at_.2, info := wordOpc at_.2, info2 := s.idleTime b }))

/-- Each event of the memory system completes under the conditions named here, with the next state that follows. MEMORY_OP_COMPLETE: an operation that
nothing earlier holds back and whose accesses or writes are all performed finishes; a bench operation performs its accesses in thread order.
PROMOTION_REQUEST and L1_EVICTION write the dirty bytes of L1 lines back, the second dropping the line. L1_PARITY_ERROR poisons a dirty byte and drops
a clean sector. L2_WRITE_RECEIVE takes a write into its slice and applies it where the line is there to write, else asks the directory. L2_EVICTION
and L3_EVICTION write a line back and drop it. MEMORY_ECC_ERROR counts a corrected symbol, or poisons its unit; without check
symbols it counts and poisons nothing and leaves every byte outside the unit. DIRECTORY_REQUEST grants where nothing
conflicts, recalls where it does, splits a region, makes an entry, or evicts one from a full set, the least recently used that no
other message concerns. RECALL_INVALIDATION_RECEIVE writes back the lines it
concerns and acknowledges. DIRECTORY_ACK_RECEIVE takes the slice from the entry's masks, and with the last acknowledgement drops an evicted entry or
grants. DIRECTORY_QUIET_TICK raises every QT, with no siblings to merge. DIRECTORY_ENTRY_ERROR corrects one bit; with more the entry is lost and both
dies' 32 slices are recalled. ATOMIC_PERFORM performs an atomic on a line it may write, or at the home for .sc. REDUCTION_ADDEND_FOLD folds an addend
into a declared slot, and defers BAD_FORMAT where there is none. PARTIAL_IDLE_TIMEOUT sends a line of partials, and PARTIAL_FOLD folds one. PAGE_WALK
translates a page of a declared range. IDIV_IREM_COMPLETION ends the division with its results held.
By the model's choice or reading: the granularity of poison and an error without check symbols (log entry 37), the set index (35), what REDDCL
discards (39), the addend that is charged (40), and timers as events of any moment (48). -/
def Obligations.MemoryEventsComplete : Prop :=
  (∀ (bid i op : Nat) (s : State) (m : Mop), let core := (s.blk bid).core
      (s.sl bid i).mops.find? (fun m => m.id == op) = some m → m.absent = false → (s.sl bid i).blocks m = false → s.signPending bid m.iss = false →
      (m.stage = 4 → s.groupHeld bid m = false) →
      (m.kind = .load ∨ m.kind = .atom ∨ m.kind = .acas ∨ m.kind = .red ∨ m.kind = .redrd ∨ m.kind = .reddcl ∨ m.kind = .pref → m.stage = 4 →
        m.accs.all (fun a => a.done) = true → exec (.memoryOpComplete bid i op) s = .next (s.finishOp core bid i m)) ∧
      (m.kind = .fence ∨ m.kind = .tfence ∨ m.kind = .ifence ∨ m.kind = .sign → m.stage = 4 →
        exec (.memoryOpComplete bid i op) s = .next (s.finishOp core bid i m)) ∧
      (m.kind = .store → m.stage = 5 → s.groupOpen bid m = false → s.netw.any (fun w => w.src.op == m.id && w.src.bid == bid) = false →
        s.l2w.any (fun w => w.wo && w.src.op == m.id && w.src.bid == bid) = false →
        exec (.memoryOpComplete bid i op) s = .next (s.finishOp core bid i m)) ∧
      (m.kind = .redf → m.stage = 5 → s.addQ.any (fun d => d.src.op == m.id && d.src.bid == bid) = false →
        exec (.memoryOpComplete bid i op) s = .next (s.finishOp core bid i m)) ∧
      (m.kind = .harvest → m.stage = 4 → exec (.memoryOpComplete bid i op) s = .next ((s.harvest m.arg).finishOp core bid i m)) ∧
      ((m.kind = .rwb ∨ m.kind = .rinv ∨ m.kind = .rwbi) → m.stage = 5 → m.arg = 0 →
        m.accs.any (fun a => s.rangePending core m.bar false a) = false → exec (.memoryOpComplete bid i op) s = .next (s.finishOp core bid i m)) ∧
      (m.kind.bench = true → m.kind ≠ .divide → (s.blk bid).benchOps m.iss = [] →
        m.accs.any (fun a => s.benchHeld bid m.iss a.ea a.bytes (decide (m.kind ≠ .ldb))) = false →
        let s1 := (m.accs.mapIdx (fun k a => (k, a))).foldl (fun s p => s.benchAccess bid i m p.1 p.2) s
        let m1 := ((s1.sl bid i).mops.find? (fun y => y.id == m.id)).getD m
        exec (.memoryOpComplete bid i op) s = .next (s1.endOp bid i m1 m1.outcome))) ∧
  (∀ (core : Nat) (s : State), exec (.promotionRequest core) s =
      .next ((s.core core).l1.foldl (fun s x => if x.o then s else s.writeBackL1 core x x.promo) s)) ∧
  (∀ (core line : Nat) (s : State) (x : L1Line), (s.core core).l1Find line = some x →
      exec (.l1Eviction core line) s = .next ((s.writeBackL1 core x (BitVec.allOnes 128)).modCore core (fun c => c.dropL1 line))) ∧
  (∀ (core line byte : Nat) (s : State) (x : L1Line), (s.core core).l1Find line = some x → byte < 128 →
      exec (.l1ParityError core line byte) s = .next (s.modCore core (fun c => c.setL1 (if x.dirty.getLsbD byte = true
        then { x with poison := x.poison ||| spanMask byte 1 } else { x with valid := x.valid &&& ~~~(1#4 <<< (byte / 32)) })))) ∧
  (∀ (n : Nat) (s : State) (w : MWrite), s.netw[n]? = some w → w.home = false → s.pinned w.line w.kid = false →
      (∀ y ∈ s.netw.take n, ¬(y.sl = w.sl ∧ y.line = w.line ∧ y.kid = w.kid)) →
      let s1 := { s with netw := s.netw.eraseIdx n, l2w := s.l2w ++ [w] }
      (∀ x, s.l2Find w.sl w.line w.kid = some x → x.wr = true → exec (.l2WriteReceive n) s = .next (s1.applyL2 w.sl w.line w.kid)) ∧
      (∀ x, s.l2Find w.sl w.line w.kid = some x → x.wr = false → exec (.l2WriteReceive n) s = .next (s1.request w.sl w.line w.kid true)) ∧
      (s.l2Find w.sl w.line w.kid = none → exec (.l2WriteReceive n) s = .next (s1.request w.sl w.line w.kid true))) ∧
  (∀ (l2 line kid : Nat) (s : State) (x : L2Line), s.l2Find l2 line kid = some x → s.pinned line kid = false →
      exec (.l2Eviction l2 line kid) s = .next (((s.writeBackL2 x).dropL2 l2 line kid).forgetWo line kid)) ∧
  (∀ (unit : Nat) (s : State),
      (s.checks = true →
        exec (.memoryEccError unit 1) s = .next { s with host := { s.host with cecc := satAdd 64 s.host.cecc 1 } } ∧
        ∀ n, 2 ≤ n → s.poison.contains unit = false → exec (.memoryEccError unit n) s = .next { s with poison := s.poison ++ [unit] }) ∧
      (s.checks = false → Memory.wf s.mem = true → ∀ n, 1 ≤ n → ∃ u, exec (.memoryEccError unit n) s = .next u ∧ u.poison = s.poison ∧ u.host = s.host ∧
        ∀ a, a / 64 ≠ unit → mget 0 u.mem a = mget 0 s.mem a)) ∧
  (∀ (n : Nat) (s : State) (r : DirReq), s.dirQ[n]? = some r → r.acks = [] → s.reqWaits r = false →
      (∀ e, s.dir.find? (fun e => e.covers r.line r.kid) = some e → (if r.write then e.sm else e.dm) &&& sliceBit (Nat.xor r.sl 16) = 0 →
        exec (.directoryRequest n) s = .next (s.grant r)) ∧
      (∀ e, s.dir.find? (fun e => e.covers r.line r.kid) = some e → (if r.write then e.sm else e.dm) &&& sliceBit (Nat.xor r.sl 16) ≠ 0 → e.sz = 0 →
        exec (.directoryRequest n) s = .next (s.actOn r e.rb 0)) ∧
      (∀ e, s.dir.find? (fun e => e.covers r.line r.kid) = some e → (if r.write then e.sm else e.dm) &&& sliceBit (Nat.xor r.sl 16) ≠ 0 → e.sz ≠ 0 →
        s.waysUsed r.line < 8 →
        exec (.directoryRequest n) s = .next ((s.split e).actOn r (if covers e.rb (e.sz - 1) r.line then e.rb else e.rb + 2 ^ (e.sz - 1)) (e.sz - 1))) ∧
      (s.dir.find? (fun e => e.covers r.line r.kid) = none → s.waysUsed r.line < 8 →
        let sz := s.newRegion r.line r.kid
        let e : DirEntry := { rb := r.line - r.line % 2 ^ sz, kid := r.kid, sz := sz, qt := 0, dm := 0, sm := 0, used := s.nextId }
        exec (.directoryRequest n) s = .next (({ s with dir := s.dir ++ [e] } : State).grant r)) ∧
      (∀ v, s.dir.find? (fun e => e.covers r.line r.kid) = none → 8 ≤ s.waysUsed r.line →
        leastBy (fun (e : DirEntry) => e.used) ((s.setEntries r.line).filter (fun e => !s.msgsOver e.rb e.sz e.kid &&
          !s.dirQ.any (fun q => q.id != r.id && !q.acks.isEmpty && q.kid == e.kid && meets q.rb q.sz e.rb e.sz))) = some v →
        let sz := s.newRegion r.line r.kid
        let ys := bitsSet 32 v.sm.toNat
        let r1 := { r with rb := r.line - r.line % 2 ^ sz, sz := sz, begun := true }
        (ys = [] → exec (.directoryRequest n) s = .next ((s.dropDir v.rb v.sz v.kid).setReq r1)) ∧
        (ys ≠ [] → exec (.directoryRequest n) s =
          .next { s.setReq { r1 with acks := ys, evict := true, vict := some (v.rb, v.sz, v.kid) } with
            recQ := s.recQ ++ ys.map (fun y => { req := r.id, sl := y, rb := v.rb, sz := v.sz, kid := v.kid, inval := true, held := false }) }))) ∧
  (∀ (n : Nat) (s : State) (m : DirMsg), s.recQ[n]? = some m → let xs := s.l2.filter (s.concerns m)
      (∀ x ∈ xs, s.pinned x.line x.kid = false) →
      let s1 := xs.foldl (fun s x => let s := s.writeBackL2 x
        if m.inval then (s.dropL2 x.sl x.line x.kid).forgetWo x.line x.kid else s.modL2 x.sl x.line x.kid (fun y => { y with wr := false })) s
      exec (.recallInvalidationReceive n) s = .next { s1 with
        recQ := s1.recQ.eraseIdx n
        ackQ := s1.ackQ ++ [{ m with held := !xs.isEmpty }]
        lost := s1.lost.map (fun l => if l.id = m.req then { l with dirty := l.dirty + (xs.filter (fun x => decide (x.dirty ≠ 0))).length } else l) }) ∧
  (∀ (n : Nat) (s : State) (m : DirMsg), s.ackQ[n]? = some m → s.lost.find? (fun l => l.id == m.req) = none →
      let y := sliceBit m.sl
      let s1 := ({ s with ackQ := s.ackQ.eraseIdx n } : State).modDir m.rb m.sz m.kid (fun e =>
        { e with dm := e.dm &&& ~~~y, sm := if m.inval || !m.held then e.sm &&& ~~~y else e.sm })
      (s.dirQ.find? (fun r => r.id == m.req) = none → exec (.directoryAckReceive n) s = .next s1) ∧
      ∀ r, s.dirQ.find? (fun r => r.id == m.req) = some r → let r1 := { r with acks := r.acks.erase m.sl }
        (r1.acks ≠ [] → exec (.directoryAckReceive n) s = .next (s1.setReq r1)) ∧
        (r1.acks = [] → r.evict = true →
          exec (.directoryAckReceive n) s = .next ((s1.dropDir m.rb m.sz m.kid).setReq { r1 with evict := false, vict := none })) ∧
        (r1.acks = [] → r.evict = false → s1.reqWaits r = false → s1.dir.any (fun e => e.covers r.line r.kid && !e.conflict r) = true →
          exec (.directoryAckReceive n) s = .next (s1.grant r))) ∧
  (∀ s : State, (∀ a ∈ s.dir, ∀ b ∈ s.dir, s.mergeable a b = false) →
      exec .directoryQuietTick s = .next { s with dir := s.dir.map (fun e => { e with qt := min 15 (e.qt + 1) }) }) ∧
  (∀ (n : Nat) (t : Bool) (s : State) (e : DirEntry), s.dir[n]? = some e →
      exec (.directoryEntryError n 1 t) s = .next { s with host := { s.host with dcor := satAdd 64 s.host.dcor 1 } } ∧
      ∀ bits, 2 ≤ bits → ∃ u, exec (.directoryEntryError n bits t) s = .next u ∧ e ∉ u.dir ∧ u.recQ.length = s.recQ.length + 32 ∧
        u.lost.length = s.lost.length + 1) ∧
  (∀ (n : Nat) (s : State) (r : AtomReq) (m : Mop) (a : Access), s.atomQ[n]? = some r →
      (s.sl r.bid r.slice).mops.find? (fun m => m.id == r.op) = some m → m.accs[r.part]? = some a → let s1 := s.recallLine r.line r.kid
      let core := (s1.blk r.bid).core
      s1.pinned r.line r.kid = false → ((s1.core core).l1Find r.line).isSome = false → s1.ownWrite core r.line r.kid = false →
      (a.attr = .sc → s1.diePending (s1.blk r.bid).core r.line r.kid = false → exec (.atomicPerform n) s =
        .next (s1.doAtomic r m a (s1.devLine r.line r.kid) (fun s k d => s.homeWriteLine r.line r.kid k d))) ∧
      ∀ x, a.attr ≠ .sc → s1.l2Find r.sl r.line r.kid = some x → x.wr = true →
        exec (.atomicPerform n) s = .next (s1.doAtomic r m a (x.data, x.poison) (fun s k d => s.modL2 r.sl r.line r.kid (fun x =>
          { x with data := mergeLine x.data d k, dirty := x.dirty ||| k, poison := x.poison.write k })))) ∧
  (∀ (n : Nat) (s : State) (d : Addend), s.addQ[n]? = some d →
      ((s.core d.src.core).l1Find (lineOf d.pa)).isSome = false → s.netw.any (fun w => w.src.core == d.src.core && w.line == lineOf d.pa && w.kid == d.kid) = false →
      s.l2w.any (fun w => w.sl == d.sl && w.line == lineOf d.pa && w.kid == d.kid) = false →
      let s1 := { s with addQ := s.addQ.eraseIdx n }
      readPoison (fun l => s1.devLine l d.kid) (d.pa / 16 * 16) 16 = false →
      (RedSlot.ofBytes (s1.homeBytes d.kid (d.pa / 16 * 16) 16) = none →
        exec (.reductionAddendFold n) s = .next (s1.deferAt d.src .badFormat d.src.thr d.src.vline)) ∧
      ∀ r, RedSlot.ofBytes (s1.homeBytes d.kid (d.pa / 16 * 16) 16) = some r → exec (.reductionAddendFold n) s = .next (s1.foldAddend d r)) ∧
  (∀ (l2 line kid : Nat) (s : State) (p : PartLine), s.partOf l2 line kid = some p →
      exec (.partialIdleTimeout l2 line kid) s =
        .next { s with partials := s.partials.filter (fun q => q.id != p.id), partQ := s.partQ ++ [p] }) ∧
  (∀ (n : Nat) (s : State) (p : PartLine), s.partQ[n]? = some p →
      exec (.partialFold n) s = .next (({ s with partQ := s.partQ.eraseIdx n } : State).foldLine p)) ∧
  (∀ (bid page rix : Nat) (r : RangeRec) (s : State), governing (s.launch bid).ranges (65536 * page) = some rix →
      (s.launch bid).ranges[rix]? = some r → exec (.pageWalk bid page) s = .next (s.translate bid page rix r).1) ∧
  (∀ (bid i seq : Nat) (m : Mop) (s : State), (s.sl bid i).mops.find? (fun m => m.seq == seq && decide (m.kind = .divide)) = some m →
      exec (.idivIremCompletion bid i seq) s = .next (s.endOp bid i m (some m.values))) ∧
  (∀ (line kid : Nat) (s : State) (x : L3Line), s.l3Find line kid = some x →
      let s1 := if x.dirty then s.setMemLine line kid x.data x.poison else s
      exec (.l3Eviction line kid) s =
        .next (({ s1 with l3 := s1.l3.filter (fun y => !(y.line == line && y.kid == kid)) } : State).forgetWo line kid))

/-- Each event of the engines completes under the conditions named here, with the next state that follows. LOOM_ACCEPT: with a place free, the oldest head
of the resident blocks' Loom orders, or with none the oldest waiting MXV, is accepted. METADATA_GRANT: LMMS's 128 rows of metadata are read from a
bench that nothing holds. LOOM_OPERATION_COMPLETE: the tile or index stage takes the result, a drain copies its tile, and a fault stops the operation.
DRAIN_STORE_COMPLETE: LDRN stores its rows where they all translate; LDRX ends when every row's addends are performed. OPERAND_BUFFER_LINE_ENTRY: the
next line of a fetch is read and its pin released. MXV_SEGMENT_COMPLETE: a Loom segment with its last block computed stores its rows, and an MXV with
every row done completes. MILL_BLOCK_FORWARD: a block value of the activations held goes to the row's owner. DRAY_COMMAND_START and SURVEYOR_COMMAND_START: the oldest queued
command of a running block becomes active where the unit has room. DRAY_CHUNK_COMPLETE: a row of DCPY of up to 4,096 bytes is copied, counted and
announced to the count barrier, where its command is the first of the rotation and may go; a command with no row left, or a fault, finishes. ENGINE_COMMAND_COMPLETE: a finished command lowers its flag, leaves
its tag, and defers its trap. SURVEYOR_BATCH_COMPLETE: a command begins, advances by what its batch cuts, or finishes with SVFREE's and SVMAP's
effect. SUBSCRIPTION_ACCEPT: a subscription whose stream, ring and page list check is accepted with its granules reserved. CRIER_PAGE_FETCH: the next
due page of the rotation is fetched where every receiver has room. PAGE_DELIVERY: the page goes to the receiver's next ring slot and its count barrier
is told. MERGE_FOLD: the next position's posted partial is folded.
By the model's choice or reading: the Dray's rotation and turn (log entry 106), one unit of work at a time (23), what goes on for a stopped block (47),
MXV's late priors (65), the order in a Crier unit (67), the heads' order with an MXV segment (124), the cut of a CSR unit (125) and subscriptions refused (122). -/
def Obligations.EngineEventsComplete : Prop :=
  (∀ (core : Nat) (s : State), s.loomPlaces core < 2 →
      let heads := (s.residents core).filterMap (fun b => (s.loomHead core b).map (fun o => (b, o)))
      let calls := s.mxvs.filter (s.mxvWaits core)
      (∀ p, leastBy (fun (p : Block × LoomOp) => p.2.iss) heads = some p → calls = [] →
        exec (.loomAccept core) s = .next (s.acceptOp core p.1 p.2)) ∧
      (∀ c, heads = [] → leastBy (fun (c : MxvCall) => c.iss) calls = some c →
        exec (.loomAccept core) s = .next (s.acceptSeg c))) ∧
  (∀ (core : Nat) (s : State) (b : Block) (o : LoomOp) (l : List (Block × LoomOp)), s.loomOps core = (b, o) :: l → o.stage = .accepted →
      wordOpc o.word = 0x186 → let n := metaWords (wordTy o.word)
      let rows := (List.range 128).map (fun m => metaRow o.desc m)
      rows.any (fun a => s.engineHeld b.bid o.iss a (4 * n) false) = false → rows.find? (fun a => b.benchPoisoned a (4 * n)) = none →
      exec (.metadataGrant core) s = .next (s.modLoom b.bid o.id (fun x => { x with
        stage := .granted,
        vals := rows.flatMap (fun a => (chunk 4 n (mrun 0 b.bench a (4 * n))).map (fun l => BitVec.ofNat 32 (natOfBytes l))) }))) ∧
  (∀ (core : Nat) (s : State) (b : Block) (o : LoomOp) (l : List (Block × LoomOp)), s.loomOps core = (b, o) :: l →
      (o.isLopf = false → s.canComplete core b o = true → o.isDrain = true → exec (.loomOperationComplete core) s = .next (s.drainCopy b o)) ∧
      (∀ b1, o.isLopf = false → s.canComplete core b o = true → o.isDrain = false → o.result b = .ok b1 →
        exec (.loomOperationComplete core) s = .next ((s.modBlk b.bid (fun _ => b1)).loomDone core b o)) ∧
      (∀ f, o.isLopf = false → s.canComplete core b o = true → o.isDrain = false → o.result b = .error f →
        exec (.loomOperationComplete core) s = .next (s.loomFault core b o f (o.faultRow f))) ∧
      (o.isLopf = true → wordMod o.word 0 0 = 0 → s.mayRedo b.bid o.id = true →
        (∀ p ∈ b.loomQ, p.iss < o.iss → p.isLopf = false ∧ (p.readsStage = true → p.stage ≠ .queued)) →
        exec (.loomOperationComplete core) s = .next ((s.modBlk b.bid (fun b =>
          { b with idx := mputs 0xFFFFFFFF b.idx (4 * wordMod o.word 5 1) o.vals })).loomDone core b o))) ∧
  (∀ (core : Nat) (s : State) (b : Block) (o : LoomOp),
      leastBy (fun (p : Block × LoomOp) => p.2.turn)
        ((s.loomOps core).filter (fun p => p.2.isDrain && decide (p.2.turn ≠ 0) && s.goesOn p.1.bid p.2.iss)) = some (b, o) →
      o.stage = .draining → s.mayRedo b.bid o.id = true →
      (wordOpc o.word = 0x188 →
        let mem := decide (wordMod o.word 0 0 = 1)
        let add := decide (wordMod o.word 1 1 = 1)
        let stores := cornerRuns mem false true (wordTy o.word) o.desc
        let reads := if add then cornerRuns mem true false (wordTy o.word) o.desc else []
        ∀ s1 ps olds, s.prepare core b.bid o.iss (stores ++ reads) = .ok s1 ps →
          s1.runsBytes (dieOf core) b.bid (reads.zip (ps.drop stores.length)) = .ok olds →
          exec (.drainStoreComplete core) s = .next (((stores.zip ps).zipIdx.foldl (fun (s : State) (p : (Run × List Piece) × Nat) =>
            s.writeRun (o.source core b.bid (128 * p.2)) p.1.1 p.1.2 (o.drainRow p.2 (if add then olds[p.2]? else none)) (o.unitAt p.2))
            (s1.ownFrames b.bid ps.flatten)).loomDone core b o)) ∧
      (wordOpc o.word ≠ 0x188 → 0 < o.row → cornerRows o.desc ≤ o.row → s.addQ.any (fun d => d.src.op == o.id && d.src.bid == b.bid) = false →
        exec (.drainStoreComplete core) s = .next (s.loomDone core b o))) ∧
  (∀ (core : Nat) (s : State) (b : Block) (o : LoomOp) (q : Pin),
      leastBy (fun (p : Block × LoomOp) => p.2.turn) ((s.loomOps core).filter (fun p => p.2.live && !p.2.unread.isEmpty)) = some (b, o) →
      (s.core core).pins.find? (fun q => q.op == o.id) = some q → s.windowDown (128 * q.line) = false →
      let s1 := s.modCore core (fun c => { c with pins := c.pins.erase q })
      exec (.operandBufferLineEntry core) s = .next { s1 with
        blocks := s1.blocks.map (fun b => { b with loomQ := b.loomQ.map (fun o => if o.id = q.op then
          { o with
            lines := o.lines ++ q.vlines.map (fun v => (v, s.dieLine (dieOf core) q.line q.kid))
            entered := o.entered ++ [((q.line, q.kid), q.vlines.headD 0)] } else o) })
        free := s1.free + 1 }) ∧
  (∀ (id core : Nat) (s : State) (c : MxvCall), s.mxvs.find? (fun c => c.id == id) = some c → (s.blk c.bid).loc = .resident core →
      (c.seg = none → s.mayRedo c.bid c.id = true → mxvRows c.desc ≤ c.rows → s.l2w.any (fun w => w.src.op == c.id && w.src.bid == c.bid) = false →
        exec (.mxvSegmentComplete id) s = .next (s.mxvDone c)) ∧
      (∀ g s1 ps ys, c.seg = some g → g.mill = false → s.goesOn c.bid c.iss = true → s.loomTurn (s.blk c.bid).core = some g.turn →
        32 * c.kb ≤ g.kpos → let n := g.last + 1 - g.first
        let src := c.source (s.blk c.bid).core g.first
        let runs := (mxvYRuns c.word c.desc g.first n).map (fun p => Run.store c.ym p.1 p.2)
        let reads := if g.late c then c.priors g.first n else []
        s.prepare (s.blk c.bid).core c.bid c.iss (runs ++ reads) = .ok s1 ps →
        s1.runsBytes (dieOf (s.blk c.bid).core) c.bid (reads.zip (ps.drop runs.length)) = .ok ys →
        exec (.mxvSegmentComplete id) s = .next (((runs.zip ps).zipIdx.foldl (fun (s : State) (p : (Run × List Piece) × Nat) =>
          s.writeRun src p.1.1 p.1.2 ((List.range n).flatMap (fun k => bytesOf 4 (g.value c ys k p.2).toNat)))
          (s1.ownFrames c.bid ps.flatten)).modMxv c.id (fun y =>
            { y with rows := g.last + 1, seg := none, xwin := if y.kb ≤ 256 then y.xwin else none })))) ∧
  (∀ (id r k : Nat) (s s1 : State) (c : MxvCall) (g : MxvSeg) (xs : List (List MatBlock)) (bs : List (List MatBlock)) (rest : List (List Byte)),
      s.mxvs.find? (fun c => c.id == id) = some c → c.seg = some g → g.mill = true → r = g.first + g.taken → r ≤ g.last → g.kpos / 32 ≤ k →
      k < g.kpos / 32 + c.windowN g → g.has k = false → (s.blk c.bid).loc ≠ .saved → c.absent = false → s.bankOf c r k ≠ s.bankOf c r 0 →
      (∀ i < k - g.kpos / 32, g.has (g.kpos / 32 + i) = true ∨ s.bankOf c r (g.kpos / 32 + i) ≠ s.bankOf c r k) → c.held g = some (.ok xs) →
      s.readParts c millDie [c.w r k 1] [] = .ok s1 (bs, rest) →
      exec (.millBlockForward id r k) s = .next (s1.modMxv c.id (fun y => { y with
        seg := y.seg.map (fun y => { y with fwd := y.fwd ++ [((r, k), c.millValue g xs k ((bs.headD []).headD (scaleOne, [])))] }) }))) ∧
  (∀ (core : Nat) (s : State) (c : EngCmd), let mine := s.queued (.dray core)
      (mine.filter (fun c => decide (c.stage = .active))).length < 4 →
      leastBy (fun (c : EngCmd) => c.iss) (mine.filter (fun c => decide (c.stage = .queued) && s.cmdRuns c && s.mayRedo c.bid c.id)) = some c →
      exec (.drayCommandStart core) s = .next (s.modCmd c.id (fun y => { y with stage := .active }))) ∧
  (∀ (core id : Nat) (s : State) (c : EngCmd) (l : List EngCmd), s.cmd id = some c → c.id = id → s.drayRotation core = c :: l → c.stage = .active →
      s.cmdRuns c = true → s.arriveHeld c = none → s.acquirePending c = false →
      let turned := fun (t : State) => if (match t.cmd c.id with
          | some y => y.units == c.units && y.part == c.part && y.stage == c.stage
          | none => false) then t else t.modCore core (fun k => { k with drayLast := c.iss })
      (∀ s2, c.opc = 0x1C0 → c.fault = none → c.units < drayRows c.desc → c.part = 0 → 4096 < 2 * drayRb c.desc → 0 < drayRb c.desc → drayRb c.desc ≤ 4096 →
        s.doMove c { src := .row c.units, dst := c.units } 0 (drayRb c.desc) = .ok s2 () →
        exec (.drayChunkComplete core id) s = .next (turned (((s2.modCmd id (fun y => { y with memo := [] })).modCmd id (fun y =>
          { y with units := c.units + 1, part := 0 })).arriveId id (c.counts 1)))) ∧
      (drayRows c.desc ≤ c.units ∨ c.fault ≠ none → exec (.drayChunkComplete core id) s = .next (turned (s.finishCmd c)))) ∧
  (∀ (id : Nat) (s : State) (c0 : EngCmd), s.cmd id = some c0 → c0.stage = .finished →
      (∀ s1, s.arriveHeld c0 = some s1 → exec (.engineCommandComplete id) s = .next s1) ∧
      (s.arriveHeld c0 = none → s.adding c0 = false →
        let s1 : State := { s with cmds := s.cmds.filter (fun y => y.id != id) }
        let s2 := match c0.fault with
          | some t => s1.deferCmd c0 t
          | none => s1
        let s3 := match c0.tag with
          | some n => s2.modBlk c0.bid (fun b => b.tagDone n)
          | none => s2
        exec (.engineCommandComplete id) s = .next (s3.lower c0.bid c0.slice c0.tok.flag))) ∧
  (∀ (u : Nat) (s : State) (c : EngCmd), let mine := s.queued (.surveyor u)
      (∀ y ∈ mine, y.stage = .active → s.cmdRuns y = false) →
      leastBy (fun (c : EngCmd) => c.iss) (mine.filter (fun c => decide (c.stage = .queued) && s.cmdRuns c && s.mayRedo c.bid c.id)) = some c →
      exec (.surveyorCommandStart u) s = .next (s.modCmd c.id (fun y => { y with stage := .active }))) ∧
  (∀ (u : Nat) (s : State) (c : EngCmd), (s.queued (.surveyor u)).find? (fun c => decide (c.stage = .active) && s.cmdRuns c) = some c →
      s.cmd c.id = some c → s.acquirePending c = false → s.engFence c = none →
      (∀ s1, c.fault = none → c.units < c.svTotal → c.arg ≠ 0 → s.svUnit c = .cut s1 →
        exec (.surveyorBatchComplete u) s = .next s1) ∧
      (c.fault = none → c.units = 0 → c.arg = 0 → s.svBeginFailure c = none → wordOpc c.word ≠ 0x1CD →
        exec (.surveyorBatchComplete u) s = .next (s.modCmd c.id (fun y => { y with arg := ((s.inTable c).nv + 1) * 2 ^ 32 }))) ∧
      (c.fault = none → c.arg ≠ 0 → wordOpc c.word = 0x1CC →
        exec (.surveyorBatchComplete u) s = .next ((s.dropTable c []).finishCmd c)) ∧
      (c.fault = none → c.arg ≠ 0 → wordOpc c.word = 0x1CB →
        exec (.surveyorBatchComplete u) s = .next ((s.svAnswer c).finishCmd c))) ∧
  (∀ (u n : Nat) (s : State) (y : Sub) (c : EngCmd) (t : Stream), (s.crier u).subs[n]? = some y → s.cmd y.cmd = some c → y.accepted = false →
      y.ended = false → s.runs y.bid = true → c.mark = false → c.absent = false → y.pages = [] → s.acquirePending c = false → s.engFence c = none →
      s.cmds.any (fun z => decide (wordOpc z.word = 0x1CE) && decide (z.iss < c.iss) && decide (z.stage ≠ .finished) &&
        decide (bitsOf (dW z.desc 0) 5 0 = y.sid) && (s.blk z.bid).part == y.part) = false →
      ((s.crier u).subs.filter (fun z => !z.pages.isEmpty && !z.ended)).length +
        (((s.crier u).subs.take n).filter (fun z => z.pages.isEmpty && !z.ended && s.runs z.bid)).length < 512 →
      s.stream y.part y.sid = some t → t.made ≤ t.nsb → y.rbase + y.nslot * t.slotBytes ≤ (s.blk y.bid).bsize → t.pass = none →
      ∀ s1 l, s.engRead c 0 [Run.read true y.lb.toNat (4 * y.nl)] = .ok s1 l →
        let pages := (wordsOf (l.headD [])).map (fun w => w.toNat)
        let k := crierOf y.sid
        let p := (partialBytes y.qr (dimOf t.dkm) + 255) / 256
        listOk t.np pages = true → p ≤ (s1.crier k).free →
        exec (.subscriptionAccept u n) s = .next ((((s1.modSub y.id (fun z => { z with
          pages := pages, acc := List.replicate (2 * y.qr + y.qr * dimOf t.dkm) 0, accepted := true, waited := false, inPass := false,
          allRes := false, gran := z.gran + p })).modCrier k (fun k => { k with used := k.used + p })).modStream y.part y.sid (fun t => { t with made := t.made + 1 })).modCmd
          c.id (fun z => { z with spans := [] }))) ∧
  (∀ (u p : Nat) (s : State) (t : Stream) (ts : List Stream) (l : List Sub), (s.crier u).streams.any (fun t => t.fetch.isSome) = false →
      (s.crier u).rotation = t :: ts → s.duePage (s.crier u) t = some (p, l) → (s.crier u).room l = true →
      (t.pass = none → s.acceptsFirst u t = false) →
      exec (.crierPageFetch u) s = .next ((s.beginPass u t).fetchPool u t p l)) ∧
  (∀ (u n p id slot : Nat) (s : State) (t : Stream) (data : List Byte) (ids : List Nat) (y : Sub) (c : EngCmd),
      (s.crier u).streams.find? (fun t => t.fetch.isSome) = some t → t.fetch = some (p, data, ids) → ids[n]? = some id → s.subId id = some y →
      y.freeSlot = some slot → (s.blk y.bid).loc ≠ .saved → s.engineHeld y.bid s.iss (y.slotAddr t slot) data.length true = false →
      let s1 := s.modBlk y.bid (fun b => b.benchWrite (y.slotAddr t slot) data)
      let s2 := s1.modSub id (fun z => { z with
        deliv := z.deliv ++ [y.pos p], ring := z.ring ++ [(slot, y.pos p, false)], nextSlot := (slot + 1) % z.nslot })
      let s3 := s2.modCrier u (fun k => k.unsend id)
      s3.cmd y.cmd = some c →
      exec (.pageDelivery u n) s = .next (if y.deliv.length + 1 = y.nl then (s3.arrive c 1).finishCmd c else s3.arrive c 1)) ∧
  (∀ (u n : Nat) (s : State) (y : Sub) (p : List W32), (s.crier u).subs[n]? = some y → y.posted.lookup y.merged = some p → y.ended = false → (s.crier u).mergeNext = some y.id →
      let g := min y.gran1 y.gran
      exec (.mergeFold u n) s = .next ((s.modSub y.id (fun z => { z with
        acc := y.foldPartial p, merged := y.merged + 1, posted := z.posted.filter (fun q => q.1 != y.merged), gran := z.gran - g })).modCrier u
        (fun k => { k with used := k.used - g, merge := y.place })))

/-- Each event of the host and platform completes under the conditions named here, with the next state that follows. A powered device takes a
QUEUE_DOORBELL and a COMMAND_DOORBELL whose tail fits the ring; the first with too far a tail changes only the ring's error count. QUEUE_RING_SETUP
and COMMAND_RING_SETUP empty a ring. REGISTER_WRITE writes a register that has no row of its own. Each command of the ring posted with its opcode
and a legal body is answered with status 1, or with status 2 and its reason: 0x01 reserved opcode, 0x02 bad range or partition, 0x03 busy table,
loaded key or link not up, 0x04 no such frame, key or window. CMD_SHOOTDOWN first holds new accesses to its range and
completes when those under way are performed; CMD_PREEMPT first stops the core's blocks and
completes when they are saved; CMD_RESET_PARTITION when none of the partition's blocks is left. VF_FUNCTION_LEVEL_RESET resets its partition.
CMD_RETIRE_KEY
first puts the identifier under retirement and completes when nothing under it is under way. HOST_BAR2_ACCESS reads and writes physical memory, or a
VF's virtual memory, and counts a failure and answers all ones where its page fails or its peer window is down. POWER_ON sets firmware state 1
and takes up the trap log's numbers. FIRMWARE_GO goes to state 2 and from there to state 3 or back to 1 with its reason, and MEMORY_TRAINING to 4, or to 1 with reason 0x06 and
the channel, each with vector 0 raised. ATTESTATION_GO writes its report, or reports that its address fails. STEPCAP_WRITE sets the cap; THROTTLE_STEP_DOWN, THROTTLE_STEP_UP and THERMAL_CRITICAL happen at their
temperature, power and time and raise vector 0. PWRFAIL_N is latched. PEER_REQUEST_TIMEOUT and PEER_RESET_SIGNAL take their link and its windows down,
PEER_LINK_RETRAIN raises it, and PEER_INCOMING_REQUEST reads, writes, adds to or updates memory atomically, or waits
while its key is being retired. FLIT_RETRY counts, and after the fourth
retry takes a peer link down or poisons the packet of an inner one. POWER_LOSS keeps the trap log, the agenda and the counter of free values. SOFT_ERROR corrects one bit and poisons its word with two. SENSOR_READING takes its values.
By the model's choice or reading: POWER_LOSS keeps the agenda (log entry 1) and the counter of free values (6); FLIT_RETRY's numbers (55); CMD_RETIRE_KEY's
two steps (53) and the requests that wait in them (120); when CMD_PREEMPT and CMD_RESET_PARTITION complete (73); the frames CMD_SHOOTDOWN waits for (72);
what raises vector 0, FWST 2's step among it (74); checks of bodies (78); check symbols found in training (96); the times of throttle steps (26).
The functions that sign and verify are opaque constants, so that no witness of an image that passes can be written down. -/
def Obligations.HostEventsComplete : Prop :=
  (∀ (q tail : Nat) (s : State), s.host.powered = true → q < 64 → tail < 2 ^ 32 → let r := s.queueRing q
      (r.size < (tail + 2 ^ 32 - r.head) % 2 ^ 32 → r.tail ≠ tail →
        exec (.queueDoorbell q tail) s = .next (s.modQueue q (fun _ => { r with err := if bitOf r.err 0 then r.err else r.err + 1 }))) ∧
      ((tail + 2 ^ 32 - r.head) % 2 ^ 32 ≤ r.size → ∃ u, exec (.queueDoorbell q tail) s = .next u ∧
        u.host.pages = (s.modQueue q (fun _ => { r with tail := tail })).host.pages)) ∧
  (∀ (q base size : Nat) (s : State), s.host.powered = true → q < 64 → exec (.queueRingSetup q base size) s =
      .next ((s.modQueue q (fun r => { r with base := base % 2 ^ 64, size := size % 2 ^ 32, head := 0, tail := 0, err := 0 })).modHost (fun h =>
        { h with pfPosts := h.pfPosts.filter (fun p => p.1 != q) }))) ∧
  (∀ (tail : Nat) (s : State), s.host.powered = true → tail < 2 ^ 32 → (tail + 2 ^ 32 - s.host.ring.head) % 2 ^ 32 ≤ s.host.ring.size →
      exec (.commandDoorbell tail) s = .next (s.modHost (fun h => { h with ring := { h.ring with tail := tail } }))) ∧
  (∀ (base size : Nat) (s : State), s.host.powered = true → exec (.commandRingSetup base size) s =
      .next { s.modHost (fun h => { h with
        ring := { h.ring with base := base % 2 ^ 64, size := size % 2 ^ 32, head := 0, tail := 0, err := 0 }
        saving := none }) with retiring := none, shooting := none }) ∧
  (∀ (value : Nat) (s : State), s.host.powered = true → value < 2 ^ 32 →
      exec (.registerWrite 0 0x08 value) s = .next (s.modHost (fun h => { h with fwlen := value })) ∧
      exec (.registerWrite 0 0x48 value) s = .next (s.modHost (fun h => { h with hwbase := value })) ∧
      exec (.registerWrite 0 0x50 value) s = .next (s.modHost (fun h => { h with apbase := value })) ∧
      exec (.registerWrite 0 0x1014 value) s = .next (s.modHost (fun h => { h with ring := { h.ring with vec := value } })) ∧
      (∀ p < 16, exec (.registerWrite (p + 1) 0x120 value) s = .next (s.modPage p (fun y => { y with vapb := value })) ∧
        exec (.registerWrite (p + 1) 0x220 value) s = .next (s.modPage p (fun y => { y with repaddr := value })) ∧
        exec (.registerWrite (p + 1) 0x10C value) s = .next (s.modPage p (fun y => { y with trap := { y.trap with head := value } })) ∧
        exec (.registerWrite (p + 1) 0x108 value) s =
          .next (s.modPage p (fun y => { y with trap := { y.trap with size := value, head := 0, tail := 0, err := 0 } })))) ∧
  (∀ s : State, s.cmdPosted = true → field s.cmdEntry 0x20 1 = 1 → entryOk 1 s.cmdEntry = true → let l := s.cmdEntry
      let vb := field l 0 8
      let len := field l 8 8
      let c := field l 0x10 8
      (len = 0 ∨ len % 65536 ≠ 0 ∨ vb % 65536 ≠ 0 ∨ 2 ^ 52 < vb + len ∨ 2 ^ 7 ≤ c →
        exec .cmdShootdown s = .next ((s.cmdWrite 0x18 (bytesOf 1 2)).cmdEnd 2 0x02)) ∧
      (c < 2 ^ 7 → len ≠ 0 → len % 65536 = 0 → vb % 65536 = 0 → vb + len ≤ 2 ^ 52 →
        let sel := fun (p : Nat) => bitOf c 4 || p == bitsOf c 3 0
        let lo := vb / 65536
        let n := len / 65536
        (s.shooting ≠ some (lo, n, c) → exec .cmdShootdown s = .next { s with shooting := some (lo, n, c) }) ∧
        let fr := s.rangeFrames sel lo n
        (s.shooting = some (lo, n, c) →
          s.cores.any (fun k => k.l1.any (fun x => fr.contains (128 * x.line / 65536) && (x.dirty != 0 || bitOf c 5))) = false →
          s.underWay (fun pa _ => fr.contains (pa / 65536)) = false →
          let s1 := ((s.rangeCaches c fr (s.rangeOpen sel lo n)).discardExtents (fun b e => sel b.part && e.meetsPages lo n)).discardFetch (fun t =>
            sel t.part && decide (lo ≤ t.page) && decide (t.page < lo + n))
          exec .cmdShootdown s = .next ((({ s1 with walkCache := [], dlost := 0 } : State).cmdWrite 0x18
            (bytesOf 8 (1 + 2 ^ 8 * min s1.dlost (2 ^ 32 - 1)))).cmdEnd 1 0)))) ∧
  (∀ s : State, s.cmdPosted = true → field s.cmdEntry 0x20 1 = 2 → entryOk 2 s.cmdEntry = true → let l := s.cmdEntry
      let found := s.blocks.find? (fun b => decide (b.loc = .saved) && b.part == bitsOf (field l 8 8) 3 0 && b.cfa == field l 0 8)
      (found = none → exec .cmdResume s = .next (s.cmdEnd 2 0x04)) ∧
      (∀ b, found = some b → b.resume = false → s.frameDisp b < 2 → s.frameRefused b = false →
        exec .cmdResume s = .next (((s.loadFrame b.bid).modBlk b.bid (fun y => y.resumeDisp (s.frameDisp b))).cmdEnd 1 0)) ∧
      (∀ b, found = some b → b.resume = false → 2 ≤ s.frameDisp b ∨ s.frameRefused b = true →
        exec .cmdResume s = .next ((s.endGrid b.gid).cmdEnd 1 0))) ∧
  (∀ s : State, s.cmdPosted = true → field s.cmdEntry 0x20 1 = 3 → entryOk 3 s.cmdEntry = true → let l := s.cmdEntry
      let p := bitsOf (field l 0 8) 3 0
      let w := field l 0x18 8
      let e : Part := { root := field l 8 8, ctx := field l 0x10 8, len := bitsOf w 31 0, guar := bitsOf w 37 32, limit := bitsOf w 45 40, ckid := (s.part p).ckid }
      let total := sumNat ((List.range 16).map (fun q => if q = p then e.guar else (s.part q).guar))
      (e.limit < e.guar ∨ 32 < e.limit ∨ 32 < total → exec .cmdPartition s = .next (s.cmdEnd 2 0x02)) ∧
      (e.guar ≤ e.limit → e.limit ≤ 32 → total ≤ 32 → s.blocks = [] → s.parked = [] →
        exec .cmdPartition s = .next (({ s with parts := updAt (fun _ => e) p s.parts, walkCache := [] } : State).cmdEnd 1 0))) ∧
  (∀ s : State, s.cmdPosted = true → field s.cmdEntry 0x20 1 = 4 → entryOk 4 s.cmdEntry = true → field s.cmdEntry 0 8 % 65536 = 0 →
      (s.blocks ≠ [] → exec .cmdAttributeTable s = .next (s.cmdEnd 2 0x03)) ∧
      (s.blocks = [] → exec .cmdAttributeTable s =
        .next ((({ s with fatb := field s.cmdEntry 0 8, fn := field s.cmdEntry 8 8 } : State).dropWo).cmdEnd 1 0))) ∧
  (∀ s : State, s.cmdPosted = true → field s.cmdEntry 0x20 1 = 5 → entryOk 5 s.cmdEntry = true → let k := bitsOf (field s.cmdEntry 0 8) 5 0
      (s.keys.any (fun e => e.1 == k) = true → exec .cmdLoadKey s = .next (s.cmdEnd 2 0x03)) ∧
      (s.keys.any (fun e => e.1 == k) = false → ∃ m : List Byte, m.length = 64 ∧
        exec .cmdLoadKey s = .next (({ s with keys := s.keys ++ [(k, m)], free := s.free + 1 } : State).cmdEnd 1 0))) ∧
  (∀ s : State, s.cmdPosted = true → field s.cmdEntry 0x20 1 = 6 → entryOk 6 s.cmdEntry = true → let k := bitsOf (field s.cmdEntry 0 8) 5 0
      (s.keys.any (fun e => e.1 == k) = false → exec .cmdRetireKey s = .next (s.cmdEnd 2 0x04)) ∧
      (s.keys.any (fun e => e.1 == k) = true → s.retiring ≠ some k →
        exec .cmdRetireKey s = .next { s.discardFetch (fun t => t.kid == k) with retiring := some k }) ∧
      (s.keys.any (fun e => e.1 == k) = true → s.retiring = some k → s.underWay (fun _ kid => kid == k) = false → (∀ r ∈ s.dirQ, r.kid ≠ k) →
        (∀ m ∈ s.recQ ++ s.ackQ, m.kid ≠ k) → ∃ u : State, exec .cmdRetireKey s = .next (u.cmdEnd 1 0) ∧
          u.keys.any (fun e => e.1 == k) = false ∧ (∀ e ∈ u.dir, e.kid ≠ k) ∧ u.retiring = none)) ∧
  (∀ s : State, s.cmdPosted = true → field s.cmdEntry 0x20 1 = 7 → entryOk 7 s.cmdEntry = true → let l := s.cmdEntry
      let w := bitsOf (field l 0 8) 3 0
      let link := bitsOf (field l 0 8) 5 4
      let base := field l 8 8
      let len := field l 0x10 8
      base % 2 ^ 30 = 0 → len % 2 ^ 30 = 0 → len ≤ 2 ^ 40 →
      ((s.host.links[link]?).getD 0 ≠ 2 → exec .cmdOpenWindow s = .next (s.cmdEnd 2 0x03)) ∧
      ((s.host.links[link]?).getD 0 = 2 → ((s.windows[w]?).getD Window.closed).opened = false → exec .cmdOpenWindow s = .next
        (({ s with windows := updAt (fun _ => { opened := true, link := link, base := base, len := len, down := false }) w s.windows } : State).cmdEnd
          1 0))) ∧
  (∀ s : State, s.cmdPosted = true → field s.cmdEntry 0x20 1 = 8 → entryOk 8 s.cmdEntry = true → let w := bitsOf (field s.cmdEntry 0 8) 3 0
      (((s.windows[w]?).getD Window.closed).opened = false → exec .cmdCloseWindow s = .next (s.cmdEnd 2 0x04)) ∧
      (((s.windows[w]?).getD Window.closed).opened = true → s.underWay (fun pa _ => s.inWindow (fun k _ => k == w) pa) = false →
        let s1 := s.discardWindows (fun k _ => k == w)
        exec .cmdCloseWindow s = .next (({ s1 with windows := updAt (fun _ => Window.closed) w s1.windows } : State).cmdEnd 1 0))) ∧
  (∀ s : State, s.cmdPosted = true → field s.cmdEntry 0x20 1 = 9 → entryOk 9 s.cmdEntry = true → let p := bitsOf (field s.cmdEntry 0 8) 3 0
      let s1 := s.resetPartition p
      (s1.blocks.any (fun b => b.part == p) = false → exec .cmdResetPartition s =
        .next (((s1.grids.filter (fun g => g.lr.part == p)).foldl (fun s g => (s.gridRetire g.gid).getD s) s1).cmdEnd 1 0)) ∧
      (s1.blocks.any (fun b => b.part == p) = true → (∃ g ∈ s.grids, g.lr.part = p ∧ g.ended = false) → exec .cmdResetPartition s = .next s1)) ∧
  (∀ s : State, s.cmdPosted = true → field s.cmdEntry 0x20 1 = 10 → entryOk 10 s.cmdEntry = true → let bs := s.residents (bitsOf (field s.cmdEntry 0 8) 4 0)
      (s.host.saving = none → exec .cmdPreempt s =
        .next ((bs.foldl (fun s b => s.preempt b.bid) s).modHost (fun h => { h with saving := some (bs.map (fun b => b.bid)) }))) ∧
      (∀ l, s.host.saving = some l → (∀ b ∈ s.blocks, b.bid ∈ l → b.loc = .saved ∨ b.stop = none) →
        exec .cmdPreempt s = .next ((s.modHost (fun h => { h with saving := none })).cmdEnd 1 0))) ∧
  (∀ s : State, s.cmdPosted = true → field s.cmdEntry 0x20 1 = 11 → entryOk 11 s.cmdEntry = true →
      exec .cmdClearTrapLog s = .next (s.clearLog.cmdEnd 1 0)) ∧
  (∀ s : State, s.cmdPosted = true → field s.cmdEntry 0x20 1 = 0 ∨ 12 ≤ field s.cmdEntry 0x20 1 → exec .cmdReserved s = .next (s.cmdEnd 2 0x01)) ∧
  (∀ (vf : Nat) (s : State), s.host.powered = true → vf < 16 → exec (.vfFunctionLevelReset vf) s = .next (s.resetPartition vf)) ∧
  (∀ (off len data : Nat) (s : State), s.host.powered = true →
      (off + len ≤ 2 ^ 34 → s.host.fwst ≠ 1 →
        exec (.hostBar2Access 0 off len true data) s = .next (s.physWrite 0 (s.host.apbase + off) (bytesOf len data)) ∧
        ∃ u, exec (.hostBar2Access 0 off len false data) s = .next u ∧
          let s1 := s.recallSpan (s.host.apbase + off) len
          u.host.answer = s1.physRead 0 (s1.host.apbase + off) len) ∧
      ∀ vf < 16, off + len ≤ 2 ^ 32 → let va := (s.page vf).vapb + off
        let folded := fun (ps : List (Nat × Nat × Leaf)) => ps.foldl (fun s x => s.recallSpan x.1 x.2.1) s
        let counted := s.modPage vf (fun y => { y with aperr := satAdd 64 y.aperr 1 })
        (∀ ps u, s.walkSpan vf va len true = .ok ps → s.spanDown ps = none → (folded ps).writeVirt vf va (bytesOf len data) = .ok u →
          exec (.hostBar2Access (vf + 1) off len true data) s = .next u) ∧
        (∀ ps l, s.walkSpan vf va len false = .ok ps → s.spanDown ps = none → (folded ps).readVirt vf va len = .ok l →
          ∃ u, exec (.hostBar2Access (vf + 1) off len false data) s = .next u ∧ u.host.answer = l) ∧
        ((∃ e, s.walkSpan vf va len true = .error e) ∨ (∃ ps n, s.walkSpan vf va len true = .ok ps ∧ s.spanDown ps = some n) →
          exec (.hostBar2Access (vf + 1) off len true data) s = .next counted) ∧
        ((∃ e, s.walkSpan vf va len false = .error e) ∨ (∃ ps n, s.walkSpan vf va len false = .ok ps ∧ s.spanDown ps = some n) →
          exec (.hostBar2Access (vf + 1) off len false data) s = .next (counted.modHost (fun h => { h with answer := List.replicate len 0xFF })))) ∧
  (∀ s : State, s.host.powered = false → ∃ u, exec .powerOn s = .next u ∧ u.host.powered = true ∧ u.host.fwst = 1 ∧ u.mram = s.mram ∧
      (s.lastSlot = none → u.seqNo = 1) ∧ ∀ i q, s.lastSlot = some (i, q) → u.seqNo = q + 1) ∧
  (∀ s : State, s.host.powered = true →
      (s.host.fwst = 1 → exec .firmwareGo s = .next ((s.modHost (fun h => { h with fwst := 2 })).raiseMsi 0 0)) ∧
      (s.host.fwst = 2 → ∃ u, exec .firmwareGo s = .next u ∧ u.host.msix = (0, 0) :: s.host.msix ∧ { u with host := s.host } = s ∧
        (s.imageFailure = none → u.host.fwst = 3) ∧
        ∀ r, s.imageFailure = some r → u = (s.modHost (fun h => { h with fwst := 1, fwrsn := r, image := [] })).raiseMsi 0 0)) ∧
  (∀ s : State, s.host.powered = true → s.host.fwst = 3 →
      (∀ checks, exec (.memoryTraining { differs := [], checks := checks }) s =
        .next { (s.modHost (fun h => { h with fwst := 4 })).raiseMsi 0 0 with checks := checks }) ∧
      ∀ c checks, c < 16 → exec (.memoryTraining { differs := [c], checks := checks }) s =
        .next ((s.modHost (fun h => { h with fwst := 1, fwrsn := 0x06, fwch := c, image := [] })).raiseMsi 0 0)) ∧
  (∀ (n : Nat) (s : State), s.host.powered = true → n < 32 → let p := n % 16
      let w := s.writeVirt p (s.page p).repaddr (s.report p (decide (16 ≤ n)))
      (∀ u, w = .ok u → exec (.attestationGo n) s = .next (u.modPage p (fun y => { y with atst := 1 }))) ∧
      (∀ e, w = .error e → exec (.attestationGo n) s = .next (s.modPage p (fun y => { y with atst := 2 })))) ∧
  (∀ (value : Nat) (s : State), s.host.powered = true → value < 8 →
      exec (.stepcapWrite value) s = .next (s.modHost (fun h => { h with stepcap := value }))) ∧
  (∀ s : State, s.host.powered = true → s.host.step < 5 → s.mayStep = true →
      105 * 256 ≤ s.host.temp ∨ 16 * 500 < s.host.pwr ∨ s.host.step < min s.host.stepcap 5 →
      ∃ u, exec .throttleStepDown s = .next u ∧ u.host.step = s.host.step + 1 ∧ u.host.thev = satAdd 32 s.host.thev 1 ∧
        u.host.msix = (0, 0) :: s.host.msix) ∧
  (∀ (t : Nat) (s : State), s.host.powered = true → 0 < s.host.step → min s.host.stepcap 5 < s.host.step → s.mayStep = true →
      s.host.coolAt = some t → t + 100000000 * nanosecond ≤ s.refTime →
      ∃ u, exec .throttleStepUp s = .next u ∧ u.host.step = s.host.step - 1 ∧ u.host.thev = satAdd 32 s.host.thev 1 ∧
        u.host.msix = (0, 0) :: s.host.msix) ∧
  (∀ s : State, s.host.powered = true → s.host.step = 5 → 115 * 256 ≤ s.host.temp → s.host.thcrit = false →
      exec .thermalCritical s = .next (s.modHost (fun h => { h with thcrit := true, msix := (0, 0) :: h.msix }))) ∧
  (∀ s : State, s.host.powered = true → exec .pwrfailN s = .next (s.modHost (fun h => { h with pwrfail := true }))) ∧
  (∀ (link : Nat) (s : State), s.host.powered = true → (s.host.links[link]?).getD 0 ≠ 0 →
      exec (.peerRequestTimeout link) s = .next (s.linkDown link) ∧ exec (.peerResetSignal link) s = .next (s.linkDown link) ∧
      ∀ w ∈ (s.linkDown link).windows, w.opened = true → w.link = link → w.down = true) ∧
  (∀ (link : Nat) (s : State), s.host.powered = true → 
      ((s.host.links[link]?).getD 2 ≠ 2 → exec (.peerLinkRetrain link) s =
        .next ((s.modHost (fun h => { h with links := updAt (fun n => n + 1) link h.links })).raiseMsi 0 0)) ∧
      ((s.host.links[link]?).getD 2 = 2 → exec (.peerLinkRetrain link) s = .next s)) ∧
  (∀ (pa kid len data : Nat) (req : PeerReq) (s : State), s.host.powered = true → s.retiring = some kid →
      exec (.peerIncomingRequest pa kid len req data) s = .next (s.modHost (fun h => { h with waiting := h.waiting ++ [(pa, kid, len, req, data)] }))) ∧
  (∀ (pa kid len data : Nat) (s : State), s.host.powered = true → s.retiring ≠ some kid → s.keys.any (fun k => k.1 == kid) = true →
      let found := (s.recallSpan pa len).physRead kid pa len
      exec (.peerIncomingRequest pa kid len .write data) s = .next (s.physWrite kid pa (bytesOf len data)) ∧
      (∃ u, exec (.peerIncomingRequest pa kid len .read data) s = .next u ∧ u.host.answer = found) ∧
      (∀ a, exec (.peerIncomingRequest pa kid len (.cas a) data) s = .next (((s.recallSpan pa len).physWrite kid pa
        (bytesOf len (if natOfBytes found = a then data else natOfBytes found))).modHost (fun h => { h with answer := found }))) ∧
      (∀ ty op, len = (if ty.is64 then 8 else 4) → exec (.peerIncomingRequest pa kid len (.atomic ty op) data) s =
        .next (((s.recallSpan pa len).physWrite kid pa (bytesOf len (atomicValue ty op (natOfBytes found) data))).modHost (fun h =>
          { h with answer := found }))) ∧
      exec (.peerIncomingRequest pa kid len .add data) s = .next (s.physAdd kid pa (BitVec.ofNat 32 data))) ∧
  (∀ (n k : Nat) (s : State), s.host.powered = true →
      (k ≤ 4 → exec (.flitRetry n k) s = .next (s.modHost (fun h => { h with lrty := satAdd 64 h.lrty k }))) ∧
      (4 < k → n < 4 → exec (.flitRetry n k) s = .next ((s.modHost (fun h => { h with lrty := satAdd 64 h.lrty 4 })).linkDown n)) ∧
      (4 < k → 4 ≤ n → exec (.flitRetry n k) s = .next ((s.modHost (fun h => { h with lrty := satAdd 64 h.lrty 4 })).poisonPacket ((n - 4) / 4) ((n - 4) % 4)))) ∧
  (∀ (words : Nat) (s : State), s.host.powered = true → ∃ u, exec (.powerLoss words) s = .next u ∧ u.host.powered = false ∧
      u.agenda = s.agenda ∧ u.free = s.free ∧
      { u with mram := [], host := State.reset.host, agenda := [], free := s.free } = { State.reset with free := s.free }) ∧
  (∀ (n : Nat) (s : State), s.host.powered = true →
      (∀ store < 4, exec (.softError store n 1) s = .next s) ∧
      ∀ bits, 2 ≤ bits → exec (.softError 0 n bits) s = .next (s.poisonL2 n) ∧ exec (.softError 1 n bits) s = .next (s.poisonL3 n) ∧
        exec (.softError 2 n bits) s = .next (s.poisonBench (n / 2 ^ 18) (n % 2 ^ 18)) ∧
        exec (.softError 3 n bits) s = .next (s.poisonReg (n / 131072) (n / 512 % 256) (n % 512))) ∧
  (∀ (temp : Int) (power : Nat) (s : State), s.host.powered = true → power < 2 ^ 32 → ∃ u, exec (.sensorReading temp power) s = .next u ∧
      u.host.temp = max (-32768) (min 32767 temp) ∧ u.host.pwr = power ∧ u.host.thcrit = (s.host.thcrit && decide (115 * 256 ≤ temp)) ∧ { u with host := s.host } = s)

/-- Element arithmetic of the integer instructions: element j of an element-wise result is the exact integer result on the elements j of the operands,
which are signed for the I types and unsigned for the N types, reduced modulo 2^w. -/
def Obligations.IntegerElementsWrap : Prop :=
  (∀ ty ∈ Ty.setB, ∀ (g : Nat → Int → Int → Int) (a b : W32) (j : Nat), j < 32 / ty.width →
    (elemAt ty.width (intOp2 ty g a b) j : Int) =
      g ty.width (elemInt ty ty.width (elemAt ty.width a j)) (elemInt ty ty.width (elemAt ty.width b j)) % 2 ^ ty.width) ∧
  (∀ ty ∈ Ty.setB, ∀ x < 2 ^ ty.width,
    elemInt ty ty.width x = if ty.signed ∧ 2 ^ (ty.width - 1) ≤ x then (x : Int) - 2 ^ ty.width else x)

/-- IDIV and IREM give a result on every operand pair: the quotient truncated toward zero and the remainder with the sign of the dividend; for a zero
divisor all ones (N32) or the extreme of the dividend's sign (I32), with the dividend as remainder; and for -2^31 by -1 the quotient 0x80000000 and
remainder 0. -/
def Obligations.DivisionGivesAResult : Prop :=
  (∀ a b : W32, b ≠ 0 → (divRem false a b).1.toNat = a.toNat / b.toNat ∧ (divRem false a b).2.toNat = a.toNat % b.toNat) ∧
  (∀ a : W32, divRem false a 0 = (0xFFFFFFFF, a)) ∧
  (∀ a : W32, divRem true a 0 = (if 0 ≤ a.toInt then 0x7FFFFFFF else 0x80000000, a)) ∧
  divRem true 0x80000000 0xFFFFFFFF = (0x80000000, 0) ∧
  (∀ a b : W32, b ≠ 0 → ¬(a = 0x80000000 ∧ b = 0xFFFFFFFF) →
    (divRem true a b).1.toInt * b.toInt + (divRem true a b).2.toInt = a.toInt ∧ (divRem true a b).2.toInt.natAbs < b.toInt.natAbs ∧
    (0 ≤ (divRem true a b).2.toInt ↔ 0 ≤ a.toInt ∨ (divRem true a b).2 = 0))

/-- IADDC and ISUBB complete, and what they write: the sum or difference modulo 2^32 with the carry or borrow of predicate pN, and pN, per thread, as one
instruction, set to whether the exact result leaves the 32-bit range; N = 7 takes no carry in and gives none out. A word of either with MOD[5:3] not
zero decodes to no instruction. -/
def Obligations.CarryThroughAPredicate : Prop :=
  (∀ w : W96, (w.extractLsb' 0 9 = 0x04C ∨ w.extractLsb' 0 9 = 0x04D) → 8 ≤ (w.extractLsb' 13 6).toNat → ∀ i, decode w ≠ .ok i) ∧
  ∀ (f : FormR) (s : State) (v : Visit),
    (Issues 0x04C (.r f) v s →
      let x := Ctx.make 0x04C (.r f) v s
      let s1 := s.opened 0x04C (.r f) v
      let n := f.md.toNat % 8
      let sum := fun (i t : Nat) => (x.a s1 i t).toNat + (x.b s1 i t).toNat + (if n ≠ 7 ∧ (s1.sl v.bid i).pred n t = true then 1 else 0)
      exec (.iaddc f) s = .next (s.closed 0x04C (.r f) v (x.put s1 (fun i t => [BitVec.ofNat 32 (sum i t)])
        (fun i t => if n = 7 then [] else [{ dest := .pred n t, mask := 0xFFFFFFFF, val := if 2 ^ 32 ≤ sum i t then 1 else 0 }])))) ∧
    (Issues 0x04D (.r f) v s →
      let x := Ctx.make 0x04D (.r f) v s
      let s1 := s.opened 0x04D (.r f) v
      let n := f.md.toNat % 8
      let dif := fun (i t : Nat) => ((x.a s1 i t).toNat : Int) - (x.b s1 i t).toNat - (if n ≠ 7 ∧ (s1.sl v.bid i).pred n t = true then 1 else 0)
      exec (.isubb f) s = .next (s.closed 0x04D (.r f) v (x.put s1 (fun i t => [BitVec.ofInt 32 (dif i t)])
        (fun i t => if n = 7 then [] else [{ dest := .pred n t, mask := 0xFFFFFFFF, val := if dif i t < 0 then 1 else 0 }]))))

/-- The shifts on each element of width w, with the count c in the matching element of b: SHL and SHR give a zero element for c at or above w; SAR fills
with the top bit of the element, so that c at or above w gives all copies of it; ROT turns the word by b mod 32. -/
def Obligations.ShiftsByAnyCount : Prop :=
  (∀ w ∈ [8, 16, 32], ∀ (a b : W32) (j : Nat), j < 32 / w →
    let e := elemAt w a j
    let c := elemAt w b j
    elemAt w (bitOp2 w (shlElem w) a b) j = (if c < w then e * 2 ^ c % 2 ^ w else 0) ∧
    elemAt w (bitOp2 w (shrElem w) a b) j = (if c < w then e / 2 ^ c else 0) ∧
    elemAt w (bitOp2 w (sarElem w) a b) j =
      (if 2 ^ (w - 1) ≤ e then (if c < w then e / 2 ^ c + (2 ^ w - 2 ^ (w - c)) else 2 ^ w - 1) else (if c < w then e / 2 ^ c else 0))) ∧
  (∀ (f : FormR) (s : State) (v : Visit), Issues 0x051 (.r f) v s →
    exec (.rot f) s = .next (s.written 0x051 (.r f) v (fun x s i t =>
      [if x.md.getLsbD 0 then (x.a s i t).rotateRight ((x.b s i t).toNat % 32) else (x.a s i t).rotateLeft ((x.b s i t).toNat % 32)])))

/-- The conditions of the integer compares, by the code in MOD[2:0]: equal, not equal, less, at most, greater, at least, signed for the I types and
unsigned for the N types; ITST writes the truth to a predicate and ICMP all ones or zero to each element; a word of either with any other MOD decodes
to no instruction, and under a type of I32 or N32 it decodes to ILLEGAL_ENCODING. -/
def Obligations.IntegerCompareConditions : Prop :=
  (∀ a b : Int, (intCond 0 a b = true ↔ a = b) ∧ (intCond 1 a b = true ↔ a ≠ b) ∧ (intCond 2 a b = true ↔ a < b) ∧
    (intCond 3 a b = true ↔ a ≤ b) ∧ (intCond 4 a b = true ↔ b < a) ∧ (intCond 5 a b = true ↔ b ≤ a)) ∧
  (∀ (f : FormR) (s : State) (v : Visit), Issues 0x063 (.r f) v s →
    exec (.itst f) s = .next (s.written 0x063 (.r f) v (fun x s i t =>
      [if intCond (f.md.toNat % 8) (elemInt f.ty 32 (x.a s i t).toNat) (elemInt f.ty 32 (x.b s i t).toNat) then 1 else 0]))) ∧
  (∀ (f : FormR) (s : State) (v : Visit), Issues 0x064 (.r f) v s →
    exec (.icmp f) s = .next (s.written 0x064 (.r f) v (fun x s i t =>
      [packElems f.ty.width ((List.range (32 / f.ty.width)).map (fun j =>
        if intCond (f.md.toNat % 8) (elemInt f.ty f.ty.width (elemAt f.ty.width (x.a s i t) j))
          (elemInt f.ty f.ty.width (elemAt f.ty.width (x.b s i t) j)) then 2 ^ f.ty.width - 1 else 0))]))) ∧
  (∀ w : W96, (w.extractLsb' 0 9 = 0x063 ∨ w.extractLsb' 0 9 = 0x064) → 6 ≤ (w.extractLsb' 13 6).toNat → (∀ i, decode w ≠ .ok i) ∧
    ((Common.decode w).ty ∈ [Ty.i32, .n32] → ∃ n, decode w = .error (.illegalEncoding n)))

/-- The word that an instruction reads through VIEW and SEL, for all 32 codes: under VIEW 00 the word, a half or a byte extended, or the bytes reversed;
under the packed views the halves, bytes or nibbles that the table places, with zero where it places Z. -/
def Obligations.SourceViewsRearrange : Prop :=
  ∀ x : W32,
    let h := fun k => x.extractLsb' (16 * k) 16
    let b := fun k => x.extractLsb' (8 * k) 8
    let n := fun k => x.extractLsb' (4 * k) 4
    let hh := fun (p q : BitVec 16) => (q ++ p : W32)
    let bb := fun (p q r t : BitVec 8) => (t ++ r ++ q ++ p : W32)
    let nn := fun (p q r t u y z w : BitVec 4) => (w ++ z ++ y ++ u ++ t ++ r ++ q ++ p : W32)
    readView .w 0 x = x ∧ readView .w 1 x = (h 0).zeroExtend 32 ∧ readView .w 2 x = (h 1).zeroExtend 32 ∧
    readView .w 3 x = (h 0).signExtend 32 ∧ readView .w 4 x = (h 1).signExtend 32 ∧ readView .w 5 x = (b 0).zeroExtend 32 ∧
    readView .w 6 x = (b 0).signExtend 32 ∧ readView .w 7 x = bb (b 3) (b 2) (b 1) (b 0) ∧
    readView .h 0 x = hh (h 0) (h 1) ∧ readView .h 1 x = hh (h 1) (h 0) ∧ readView .h 2 x = hh (h 0) (h 0) ∧ readView .h 3 x = hh (h 1) (h 1) ∧
    readView .h 4 x = hh (h 0) 0 ∧ readView .h 5 x = hh 0 (h 1) ∧ readView .h 6 x = hh (h 1) 0 ∧ readView .h 7 x = hh 0 (h 0) ∧
    readView .b 0 x = bb (b 0) (b 1) (b 2) (b 3) ∧ readView .b 1 x = bb (b 1) (b 0) (b 3) (b 2) ∧ readView .b 2 x = bb (b 2) (b 3) (b 0) (b 1) ∧
    readView .b 3 x = bb (b 3) (b 2) (b 1) (b 0) ∧ readView .b 4 x = bb (b 0) (b 0) (b 0) (b 0) ∧ readView .b 5 x = bb (b 1) (b 1) (b 1) (b 1) ∧
    readView .b 6 x = bb (b 2) (b 2) (b 2) (b 2) ∧ readView .b 7 x = bb (b 3) (b 3) (b 3) (b 3) ∧
    readView .n 0 x = nn (n 0) (n 1) (n 2) (n 3) (n 4) (n 5) (n 6) (n 7) ∧ readView .n 1 x = nn (n 1) (n 0) (n 3) (n 2) (n 5) (n 4) (n 7) (n 6) ∧
    readView .n 2 x = nn (n 2) (n 3) (n 0) (n 1) (n 6) (n 7) (n 4) (n 5) ∧ readView .n 3 x = nn (n 4) (n 5) (n 6) (n 7) (n 0) (n 1) (n 2) (n 3) ∧
    readView .n 4 x = nn (n 7) (n 6) (n 5) (n 4) (n 3) (n 2) (n 1) (n 0) ∧ readView .n 5 x = nn (n 0) (n 0) (n 2) (n 2) (n 4) (n 4) (n 6) (n 6) ∧
    readView .n 6 x = nn (n 1) (n 1) (n 3) (n 3) (n 5) (n 5) (n 7) (n 7) ∧ readView .n 7 x = nn (n 0) (n 4) (n 1) (n 5) (n 2) (n 6) (n 3) (n 7)

/-- A destination's VIEW and SEL choose which bit positions of the register an instruction writes: each chosen position takes the same position of the
result and every other position keeps its value, in the register named and in no other. -/
def Obligations.PartialWritesKeepTheRest : Prop :=
  (∀ (old new m : W32) (k : Nat), (maskMerge old new m).getLsbD k = if m.getLsbD k then new.getLsbD k else old.getLsbD k) ∧
  (∀ v : View, destMask v 0 = 0xFFFFFFFF ∧ destMask v 1 = 0x0000FFFF ∧ destMask v 2 = 0xFFFF0000) ∧
  (∀ v ∈ [View.w, View.b], destMask v 3 = 0x000000FF ∧ destMask v 4 = 0x0000FF00 ∧ destMask v 5 = 0x00FF0000 ∧ destMask v 6 = 0xFF000000) ∧
  destMask .n 3 = 0x0F0F0F0F ∧ destMask .n 4 = 0xF0F0F0F0 ∧
  (∀ (num : BitVec 8) (v : View) (sel : BitVec 3) (t : Nat) (x : W32),
    destWrites (.lane num v sel) t [x] = [{ dest := .lane num.toNat t, mask := destMask v sel, val := x }]) ∧
  (∀ (num : BitVec 6) (v : View) (sel : BitVec 3) (t : Nat) (x : W32),
    destWrites (.uni num v sel) t [x] = [{ dest := .uni num.toNat, mask := destMask v sel, val := x }])

/-- How a short immediate v, the 13-bit two's-complement value of the field, is read: v modulo 2^64 as a 64-bit operand, v modulo 2^w in every element of
an integer or B32 type, and v rounded to nearest even in every element of a floating-point type. -/
def Obligations.ShortImmediatesAsOperands : Prop :=
  ∀ v : BitVec 13,
    (∀ (s : State) (bid i t : Nat), s.src64 bid i t (.imm v) = v.signExtend 64) ∧
    (∀ ty ∈ [Ty.b32, .i32, .n32, .i16x2, .n16x2, .i8x4, .n8x4], ∀ j < 32 / ty.width,
      (elemAt ty.width (immWord ty v) j : Int) = v.toInt % 2 ^ ty.width) ∧
    (∀ ty f, tyFmt ty = some f → ∀ j < 32 / f.w, elemAt f.w (immWord ty v) j = f.round .rne (Dy.ofInt v.toInt) % 2 ^ f.w) ∧
    immWord .i32 0x1FFB = 0xFFFFFFFB ∧ immWord .i8x4 0x1FFB = 0xFBFBFBFB ∧ immWord .f32 0x1FFB = 0xC0A00000

/-- The floating-point compares by the code in MOD[2:0]: with a NaN only not-equal and NaN hold; otherwise the relation of the real values, where -0
equals +0 and the infinities stand at the ends. Of two operands that are no NaN, not-equal is the negation of equal, at-most and at-least take in
equal, and the last code holds. FTST writes the truth to a predicate and FCMP all ones or zero. A word of either with MOD[5:3] not zero decodes to no
instruction. -/
def Obligations.FloatCompareConditions : Prop :=
  let val := fun (neg : Bool) (m : Nat) (e : Int) => ((if neg then -(m : ℚ) else m) * (2 : ℚ) ^ e)
  (∀ a b : Nat, ((Fmt.f32.decode a).isNan || (Fmt.f32.decode b).isNan) = true →
    ∀ c < 8, fCond c a b = decide (c = 1 ∨ c = 6)) ∧
  (∀ (a b m n : Nat) (p q : Bool) (e k : Int), Fmt.f32.decode a = .fin p m e → Fmt.f32.decode b = .fin q n k →
    (fCond 0 a b = true ↔ val p m e = val q n k) ∧ (fCond 1 a b = true ↔ val p m e ≠ val q n k) ∧
    (fCond 2 a b = true ↔ val p m e < val q n k) ∧ (fCond 3 a b = true ↔ val p m e ≤ val q n k) ∧
    (fCond 4 a b = true ↔ val q n k < val p m e) ∧ (fCond 5 a b = true ↔ val q n k ≤ val p m e) ∧ fCond 6 a b = false ∧ fCond 7 a b = true) ∧
  (∀ (a b m : Nat) (p q : Bool) (e : Int), Fmt.f32.decode a = .inf p → Fmt.f32.decode b = .fin q m e →
    fCond 2 a b = p ∧ fCond 4 a b = !p ∧ fCond 0 a b = false ∧ fCond 2 b a = !p ∧ fCond 4 b a = p) ∧
  (∀ (a b : Nat) (p q : Bool), Fmt.f32.decode a = .inf p → Fmt.f32.decode b = .inf q →
    fCond 0 a b = (p == q) ∧ fCond 2 a b = (p && !q) ∧ fCond 4 a b = (!p && q)) ∧
  (∀ a b : Nat, ((Fmt.f32.decode a).isNan || (Fmt.f32.decode b).isNan) = false →
    fCond 1 a b = !fCond 0 a b ∧ fCond 3 a b = (fCond 2 a b || fCond 0 a b) ∧ fCond 5 a b = (fCond 4 a b || fCond 0 a b) ∧
    fCond 6 a b = false ∧ fCond 7 a b = true) ∧
  (∀ w : W96, (w.extractLsb' 0 9 = 0x086 ∨ w.extractLsb' 0 9 = 0x087) → 8 ≤ (w.extractLsb' 13 6).toNat → ∀ i, decode w ≠ .ok i) ∧
  (∀ (f : FormR) (s : State) (v : Visit), Issues 0x086 (.r f) v s →
    exec (.ftst f) s = .next (s.written 0x086 (.r f) v (fun x s i t =>
      [if fCond (f.md.toNat % 8) (x.a s i t).toNat (x.b s i t).toNat then 1 else 0]))) ∧
  (∀ (f : FormR) (s : State) (v : Visit), Issues 0x087 (.r f) v s →
    exec (.fcmp f) s = .next (s.written 0x087 (.r f) v (fun x s i t =>
      [if fCond (f.md.toNat % 8) (x.a s i t).toNat (x.b s i t).toNat then 0xFFFFFFFF else 0])))

/-- Rounding keeps what a format can represent: in each of the five floating-point formats and every rounding mode, the stochastic one at every draw
included, a nonzero finite value that the format encodes rounds to its own encoding. -/
def Obligations.RoundingKeepsRepresentableValues : Prop :=
  ∀ f ∈ [Fmt.f32, Fmt.f16, Fmt.bf16, Fmt.e4m3, Fmt.e5m2], ∀ (rm : RMode) (c m : Nat) (neg : Bool) (e : Int), c < 2 ^ f.w →
    f.decode c = .fin neg m e → m ≠ 0 → f.round rm (f.decode c).dy = c

/-- The frame of the 100 register instructions (the arithmetic, conversion, packed, predicate and cross-thread ones, RDSR, TAGFF, CBRD, POOLQ, MXVP and
NOP): whenever one answers a next state, with its result or with a trap, memory, every cache and queue, every other block, and in its own block the
bench, tags, barriers, quorum registers, tiles and every slice outside the visit are as they were, but for this: of the cores, the gang slots and the
sections' time; of the block, its stop, its watchdog count and its recorded block traps; of a slice outside the visit, what a REGANG of its block may
move, which is its strand, its issue count, its first REGANG, and the kind of the wait it stands in and whether its condition has held; and the
contents of trap records. The device's time does not go back, every trap record keeps its number, and at most one is added. -/
def Obligations.RegisterInstructionsStayInTheirVisit : Prop :=
  (∀ c ∈ ([.iadd, .isub, .imul, .imulh, .imad, .imadw, .imin, .imax, .iabs, .ineg, .shl, .shr, .sar, .rot, .andW, .orW, .xorW, .andn, .notW,
      .bfe, .bfi, .popc, .clz, .ctz, .brev, .lea, .lea64, .mov, .sel, .itst, .icmp, .iadd64, .isub64, .imul64, .shl64, .shr64, .iaddc,
      .isubb, .fadd, .fsub, .fmul, .ffma, .fmin, .fmax, .ftst, .fcmp, .frnd, .fdiv, .fsqrt, .frcp, .frsq, .fex2, .flg2, .fsin, .fcos,
      .ftanh, .hadd2, .hmul2, .hfma2, .badd2, .bmul2, .bfma2, .cvt, .cvts, .f2i, .i2f, .qnt, .fcls, .dqnt, .vadd, .vsub, .vmin, .vmax,
      .vabsd, .vdot4, .vdot2, .pand, .por, .pxor, .pnot, .pmov, .p2v, .v2p, .shfl, .bcast, .vote, .matchLanes, .rank, .prfx, .rngk, .hshk,
      .redg, .rdsr, .tagff, .cbrd, .poolq, .mxvp, .nop] : List (FormR → Instr)),
    ∀ f, StaysInItsVisit (c f)) ∧
  ∀ c ∈ ([.movi, .movh] : List (FormL → Instr)), ∀ f, StaysInItsVisit (c f)

/-- What a register instruction leaves in each slice that its visit serves: the slice as the issue opened it, its program counter 12 on and the results
that its wait mask releases visible, with the instruction's own writes made as its latency class says and the distance count one on at the end of the turn,
and nothing else but the marks of reconvergence (its strand, issue count, first REGANG, and the kind of its wait and whether it is met) and deferred
traps. -/
def Obligations.RegisterResultsInServedSlices : Prop :=
  ∀ (key : Nat) (f : Fields) (s : State) (v : Visit) (val : Ctx → State → Nat → Nat → List W32), v.Stands s → ∀ i ∈ v.slices,
    let x := Ctx.make key f v s
    let s1 := s.opened key f v
    ((s.written key f v val).sl v.bid i).settled = ((s1.sl v.bid i).result x.row.lat (x.writesTo s1 f.od i (val x s1 i))).advance.settled ∧
    (x.row.lat ≠ .v → s1.sl v.bid i = (s.sl v.bid i).begin f.wm) ∧ (s1.sl v.bid i).pc = (s.sl v.bid i).pc + 12

/-- One write of a register element: the element takes the result's bits under the mask where a lane register lies within the allocation, a write to p7
changes nothing and p7 reads true, and every other register element, predicate and field of the slice keeps its value. -/
def Obligations.OneElementPerWrite : Prop :=
  (∀ (sl : Slice) (w : RegWrite), mwf 0 sl.v = true → mwf 0 sl.k = true →
    (match w.dest with
      | .lane _ t => t < 4
      | .uni _ => True
      | .pred n t => n < 8 ∧ t < 4) →
    let u := sl.write w
    (∀ r t, t < 4 → u.lane r t = if w.dest = .lane r t ∧ r < 8 * sl.alloc then maskMerge (sl.lane r t) w.val w.mask else sl.lane r t) ∧
    (∀ r, u.uni r = if w.dest = .uni r then maskMerge (sl.uni r) w.val w.mask else sl.uni r) ∧
    (∀ n t, n < 7 → t < 4 → u.pred n t = if w.dest = .pred n t ∧ w.mask.getLsbD 0 = true then w.val.getLsbD 0 else sl.pred n t) ∧
    { u with v := [], k := [], prd := 0, pois := [] } = { sl with v := [], k := [], prd := 0, pois := [] } ∧
    mwf 0 u.v = true ∧ mwf 0 u.k = true) ∧
  (∀ (sl : Slice) (t : Nat), sl.pred 7 t = true) ∧
  (∀ (sl : Slice) (w : RegWrite) (t : Nat), w.dest = .pred 7 t → sl.write w = sl)

/-- When results become visible: a result of latency class 1 at once, one of class 3 at the third advance of the distance count, of which the one that ends its
producer's own turn is the first, and not before, with the registers reading their old values until then. A held result is written at the first instruction whose wait mask names its flag,
before that instruction reads its operands, and stays held at an instruction whose mask does not name it; an element that a later instruction has
written since keeps the later value. -/
def Obligations.ResultsBecomeVisibleWhenDue : Prop :=
  (∀ (sl : Slice) (ws : List RegWrite), sl.pend = [] →
    sl.result .one ws = sl.writeAll sl.seq ws ∧
    (let r := sl.result .three ws
     (r.v = sl.v ∧ r.k = sl.k ∧ r.prd = sl.prd) ∧
     (r.advance.v = sl.v ∧ r.advance.k = sl.k ∧ r.advance.prd = sl.prd) ∧
     (r.advance.advance.v = sl.v ∧ r.advance.advance.k = sl.k ∧ r.advance.advance.prd = sl.prd) ∧
     r.advance.advance.advance = { sl.writeAll sl.seq ws with dcnt := sl.dcnt + 3, since := sl.since.map (fun n => n + 3) })) ∧
  ((∀ (sl : Slice) (p : Pend) (f : Nat) (wm : BitVec 12), sl.pend = [p] → p.due = .flag f →
    let u := sl.begin wm
    (wm.getLsbD f = true → u.pend = [] ∧ u.v = (sl.writeAll p.seq p.writes).v ∧ u.k = (sl.writeAll p.seq p.writes).k ∧
      u.prd = (sl.writeAll p.seq p.writes).prd) ∧
    (wm.getLsbD f = false → u.pend = [p] ∧ u.v = sl.v ∧ u.k = sl.k ∧ u.prd = sl.prd)) ∧
  (∀ (sl : Slice) (p : Pend) (w : RegWrite) (seq r t : Nat), mwf 0 sl.v = true → sl.pend = [p] → p.seq < seq → w.dest = .lane r t → t < 4 →
    r < 8 * sl.alloc → (∀ x ∈ p.writes, ∀ r' t', x.dest = .lane r' t' → t' < 4) →
    (((sl.writeSeq seq w).release (fun _ => true)).lane r t) &&& w.mask = w.val &&& w.mask))

/-- A completion flag counts the operations of its slice outstanding against it: an operation that begins raises the flag its instruction names by one, to
at most 15, and its completion lowers it by one; no other flag of the slice, and no flag of another slice or block, changes. -/
def Obligations.FlagsCountOutstandingOperations : Prop :=
  (∀ (x : Ctx) (s : State) (i : Nat) (m : Mop) (ws : List RegWrite), (s.blocks.find? (fun b => b.bid == x.bid)).isSome →
    i < (s.blk x.bid).slices.length →
    ∀ bid j f, f < 12 → ((x.startOp s i m ws).sl bid j).flag f =
      if bid = x.bid ∧ j = i ∧ f = x.setf then min 15 ((s.sl bid j).flag f + 1) else (s.sl bid j).flag f) ∧
  (∀ (s : State) (b i : Nat) (m : Mop) (vals : Option (List (RegDest × W32))), (s.blocks.find? (fun y => y.bid == b)).isSome →
    i < (s.blk b).slices.length →
    ∀ bid j f, f < 12 → ((s.endOp b i m vals).sl bid j).flag f =
      if bid = b ∧ j = i ∧ f = m.flag then (s.sl bid j).flag f - 1 else (s.sl bid j).flag f)

/-- Which threads an instruction has as participants: in the Thread class the active threads whose guard predicate, inverted by GN, holds; in the Slice
class, whose opcodes are listed, every active thread of a slice where the guard holds in at least one, or under the .all of the transfers in every,
active thread, and otherwise none; LMMA, LMMS and LMMG are of the Thread class with a quorum register named and of the Slice class without; PUSHJ, JOIN,
REGANG and REFILL are Always: every active thread, and a word of one with another guard is an illegal encoding. GP 7 with GN 0 always holds and with GN
1 never. Only participants write, and a slice without one keeps its registers. -/
def Obligations.GuardsChooseParticipants : Prop :=
  let whole := ([0x001, 0x002, 0x003, 0x004, 0x005, 0x006, 0x00B, 0x00D, 0x00E, 0x00F, 0x010, 0x013, 0x140, 0x142, 0x144, 0x145, 0x146, 0x148, 0x149,
    0x14A, 0x14C, 0x14D, 0x180, 0x181, 0x182, 0x183, 0x184, 0x188, 0x189, 0x18A] ++ (List.range 21).map (fun n => 0x1C0 + n) : List Nat)
  let always := ([0x008, 0x009, 0x00A, 0x00C] : List Nat)
  let either := ([0x185, 0x186, 0x187] : List Nat)
  (∀ r ∈ opRows, (r.guard = .slice ↔ r.key ∈ whole) ∧ (r.guard = .always ↔ r.key ∈ always) ∧ (r.guard = .quorum ↔ r.key ∈ either)) ∧
  (∀ (key : Nat) (f : Fields) (s s1 : State) (v : Visit) (i : Nat), (opRow? key).isSome = true → let x := Ctx.make key f v s
    let holds := fun (t : Nat) => (s1.sl v.bid i).pred f.common.gp.toNat t = !f.common.gn
    let act := posOf (s1.sl v.bid i).act
    (key ∉ whole → key ∉ always → (key ∈ either → f.ob ≠ .none) → ∀ t, t ∈ x.parts s1 i ↔ t < 4 ∧ (s1.sl v.bid i).act.getLsbD t = true ∧ holds t) ∧
    (key ∈ whole ∨ key ∈ either ∧ f.ob = .none → x.parts s1 i =
      if (∃ t ∈ act, holds t) ∧ (key ∈ [0x002, 0x003, 0x004, 0x005, 0x006] → f.common.md.getLsbD 0 = true → ∀ t ∈ act, holds t) then act else []) ∧
    (key ∈ always → x.parts s1 i = act ∧ (¬(f.common.gp = 7 ∧ f.common.gn = false) → encodingFault x.row f = some 3))) ∧
  (∀ (s : State) (bid i key : Nat) (c : Common), c.gp = 7 →
    s.participants bid i key .thread c = if c.gn then [] else posOf (s.sl bid i).act) ∧
  (∀ (x : Ctx) (s : State) (o : Opnd) (i : Nat) (val : Nat → List W32) (w : RegWrite) (r t : Nat), w ∈ x.writesTo s o i val →
    w.dest = .lane r t → t ∈ x.parts s i) ∧
  (∀ (x : Ctx) (s : State) (i : Nat) (val : Nat → Nat → List W32), x.parts s i = [] → (x.put s val).sl x.bid i = s.sl x.bid i)

/-- Where the transfers go: in each slice in which one takes effect the program counter becomes the target, PC + 12 plus the signed offset for BRA and
CALL and the pair's value for BRX, CALLX and RET; CALL and CALLX write the link PC + 12 to their pair; in every other slice execution goes on at PC +
12. A target that is not a multiple of 4 in some slice in effect traps instead with MISALIGNED. -/
def Obligations.TransfersReachTheirTargets : Prop :=
  (∀ (x : Ctx) (s : State) (target : Nat → W64), x.targetTrap s target = none ↔ ∀ i ∈ x.inEffect s, (target i).toNat % 4 = 0) ∧
  (∀ (x : Ctx) (s : State) (target : Nat → W64) (t : Trap), x.targetTrap s target = some t →
    t.cause = .misaligned ∧ t.kind = 0 ∧ t.pc = x.pc ∧ t.slc ∈ x.inEffect s ∧ (target t.slc).toNat % 4 ≠ 0) ∧
  (∀ (x : Ctx) (s : State) (target : Nat → W64) (link : Bool) (i : Nat), x.v.Stands s →
    ((x.goTo s target link).sl x.bid i).pc = if i ∈ x.inEffect s then target i else (s.sl x.bid i).pc) ∧
  (∀ (x : Ctx) (s : State) (target : Nat → W64) (i : Nat) (num : BitVec 6) (view : View) (sel : BitVec 3), x.v.Stands s → i ∈ x.inEffect s →
    x.f.od = .uni num view sel → x.row.lat = .one → mwf 0 (s.sl x.bid i).k = true →
    ((x.goTo s target true).sl x.bid i).uni num.toNat = (x.pc + 12).setWidth 32 ∧
    ((x.goTo s target true).sl x.bid i).uni (num.toNat + 1) = (x.pc + 12).extractLsb' 32 32) ∧
  (∀ (f : FormL) (s : State) (v : Visit),
    (Issues 0x002 (.l f) v s →
      let x := Ctx.make 0x002 (.l f) v s
      let s1 := s.opened 0x002 (.l f) v
      let target := x.pc + 12 + f.imm.signExtend 64
      (x.inEffect s1 = [] ∨ target.toNat % 4 = 0) →
        exec (.bra f) s = .next (s.closed 0x002 (.l f) v (x.goTo s1 (fun _ => target) false))) ∧
    (Issues 0x004 (.l f) v s →
      let x := Ctx.make 0x004 (.l f) v s
      let s1 := s.opened 0x004 (.l f) v
      let target := x.pc + 12 + f.imm.signExtend 64
      (x.inEffect s1 = [] ∨ target.toNat % 4 = 0) →
        exec (.call f) s = .next (s.closed 0x004 (.l f) v (x.goTo s1 (fun _ => target) true)))) ∧
  (∀ p ∈ ([(.brx, 0x003, false), (.callx, 0x005, true), (.ret, 0x006, false)] : List ((FormR → Instr) × Nat × Bool)),
    ∀ (f : FormR) (s : State) (v : Visit), Issues p.2.1 (.r f) v s →
      let x := Ctx.make p.2.1 (.r f) v s
      let s1 := s.opened p.2.1 (.r f) v
      (∀ i ∈ x.inEffect s1, (s1.src64 v.bid i 0 f.oa).toNat % 4 = 0) →
        exec (p.1 f) s = .next (s.closed p.2.1 (.r f) v (x.goTo s1 (fun i => s1.src64 v.bid i 0 f.oa) p.2.2)))

/-- A mask-stack entry holds its kind, its set of positions and bits [51:2] of its address in the bits of the specification, with zero between and below.
EXIT takes the ending threads out of the live set, the active set and the set of every entry of the mask stack, each entry in its place with every other
bit of it kept, and out of nothing else of the slice. -/
def Obligations.MaskStackEntriesFollowTheirThreads : Prop :=
  (∀ (k : Bool) (m : BitVec 4) (pc : W64), let e := stackEntry k m pc
    e.getLsbD 63 = k ∧ e.extractLsb' 59 4 = m ∧ e.extractLsb' 52 7 = 0 ∧ e.extractLsb' 2 50 = pc.extractLsb' 2 50 ∧ e.extractLsb' 0 2 = 0 ∧
    entryMask e = m ∧ (pc.toNat < 2 ^ 52 → pc.toNat % 4 = 0 → entryPc e = pc)) ∧
  (∀ (sl : Slice) (gone : BitVec 4), let u := sl.lose gone
    u.live = sl.live &&& ~~~gone ∧ u.act = sl.act &&& ~~~gone ∧
    (∃ drop : BitVec 64 → BitVec 64, u.mstk = sl.mstk.map drop ∧
      ∀ e, entryMask (drop e) = entryMask e &&& ~~~gone ∧ ∀ n, n < 59 ∨ 62 < n → (drop e).getLsbD n = e.getLsbD n) ∧
    { u with live := sl.live, act := sl.act, mstk := sl.mstk } = sl)

/-- PUSHJ divides the active set A into the taken set and the rest: it pushes a reconvergence entry for A and, where both are non-empty, a pending-path
entry for the taken set, and goes on with the rest at PC + 12; where only one is non-empty it goes on with that one. Whatever stands below on the stack
and whatever threads have ended since, the JOINs that end the paths bring back the living threads of the taken set at its address and those of A at the
join address, pass over a set of which none lives, and leave the stack as it was. So they do in nested divergence: of a second PUSHJ on the fall-through
path the JOINs bring back its taken set, the whole of the path, and then the first taken set and A. -/
def Obligations.PushjAndJoinReconverge : Prop :=
  ∀ (x : Ctx) (s : State) (i : Nat) (sl : Slice), sl = s.sl x.bid i → sl.act ≠ 0 →
    let tk := x.taken s i
    let ft := sl.act &&& ~~~tk
    let tgt := x.pc + 12 + x.wordOff 0
    let jn := x.pc + 12 + x.wordOff 16
    let u := x.pushj s i sl
    (tk ≠ 0 → ft ≠ 0 → u.mstk = stackEntry true tk tgt :: stackEntry false sl.act jn :: sl.mstk ∧ u.act = ft ∧ u.pc = sl.pc) ∧
    (tk = 0 → u.mstk = stackEntry false sl.act jn :: sl.mstk ∧ u.act = sl.act ∧ u.pc = sl.pc) ∧
    (ft = 0 → u.mstk = stackEntry false sl.act jn :: sl.mstk ∧ u.act = sl.act ∧ u.pc = tgt) ∧
    (∀ live : BitVec 4, let below := stackEntry false sl.act jn :: sl.mstk
      (tk ≠ 0 → ft ≠ 0 → popLive live u.mstk =
        if tk &&& live = 0 then popLive live below else some (tk &&& live, entryPc (stackEntry true tk tgt), below)) ∧
      (tk = 0 ∨ ft = 0 → u.mstk = below) ∧
      popLive live below = (if sl.act &&& live = 0 then popLive live sl.mstk else some (sl.act &&& live, entryPc (stackEntry false sl.act jn), sl.mstk))) ∧
    (∀ (y : Ctx) (s2 : State) (j : Nat), let in_ := s2.sl y.bid j
      tk ≠ 0 → ft ≠ 0 → in_.act = u.act → in_.mstk = u.mstk → in_.live = u.live → sl.act &&& ~~~sl.live = 0 →
      let tk2 := y.taken s2 j
      let w := y.pushj s2 j in_
      tk2 ≠ 0 → ft &&& ~~~tk2 ≠ 0 →
      let tgt2 := entryPc (stackEntry true tk2 (y.pc + 12 + y.wordOff 0))
      let jn2 := entryPc (stackEntry false ft (y.pc + 12 + y.wordOff 16))
      w.act = ft &&& ~~~tk2 ∧ ∃ l1 l3 : List (BitVec 64),
        popLive w.live w.mstk = some (tk2, tgt2, l1) ∧ popLive w.live l1 = some (ft, jn2, u.mstk) ∧
        popLive w.live u.mstk = some (tk, entryPc (stackEntry true tk tgt), l3) ∧
        popLive w.live l3 = some (sl.act, entryPc (stackEntry false sl.act jn), sl.mstk))

/-- JOIN pops entries until one gives a non-empty set of live threads, and takes that entry's set and address; where none does it finds nothing, and the
slice ends. An empty stack at a JOIN, and a PUSHJ that would pass 16 entries, trap with INDEX_BOUNDS. -/
def Obligations.JoinPassesOverDeadPaths : Prop :=
  (∀ (live : BitVec 4) (pre post : List (BitVec 64)) (e : BitVec 64), (∀ d ∈ pre, entryMask d &&& live = 0) → entryMask e &&& live ≠ 0 →
    popLive live (pre ++ e :: post) = some (entryMask e &&& live, entryPc e, post)) ∧
  (∀ (live : BitVec 4) (l : List (BitVec 64)), popLive live l = none ↔ ∀ d ∈ l, entryMask d &&& live = 0) ∧
  (∀ (x : Ctx) (s : State), x.joinTrap s = none ↔ ∀ i ∈ x.v.slices, (s.sl x.bid i).mstk ≠ []) ∧
  (∀ (x : Ctx) (s : State) (t : Trap), x.joinTrap s = some t → t.cause = .indexBounds ∧ t.kind = 0 ∧ (s.sl x.bid t.slc).mstk = []) ∧
  (∀ (x : Ctx) (s : State), x.pushjTrap s = none ↔ ∀ i ∈ x.v.slices,
    (s.sl x.bid i).mstk.length + (if x.taken s i ≠ 0 ∧ (s.sl x.bid i).act &&& ~~~(x.taken s i) ≠ 0 then 2 else 1) ≤ 16) ∧
  (∀ (x : Ctx) (s : State) (t : Trap), x.pushjTrap s = some t → t.cause = .indexBounds ∧ t.kind = 0)

/-- YIELD n makes each slice in effect sit out its next min(n, 255) visits: a visit in which a served slice sits out is passed over, with no cycle, no
issue and no advance of a distance count, and takes one from every served slice's count. A block restored with saved records that are still to be
performed takes no visit, and its slices' counts stand.
That clause is the model's reading of R335 and R345 (log entry 95). -/
def Obligations.YieldSitsOutVisits : Prop :=
  (∀ (f : FormR) (s : State) (v : Visit), Issues 0x00E (.r f) v s →
    let x := Ctx.make 0x00E (.r f) v s
    let s1 := s.opened 0x00E (.r f) v
    exec (.yield f) s = .next (s.closed 0x00E (.r f) v
      (s1.forSlices v.bid (x.inEffect s1) (fun i sl => { sl with ycnt := min (s1.src v.bid i 0 f.ty f.oa).toNat 255 })))) ∧
  (∀ (s : State) (v : Visit), s.visit = some v → (s.blk v.bid).stop = none → s.redoLeft (s.blk v.bid) = [] → (∃ i ∈ v.slices, 0 < (s.sl v.bid i).ycnt) → v.Stands s →
    ∃ t, step s = .next t ∧ t.visit = none ∧ t.clock = s.clock ∧
      (∀ i ∈ v.slices, t.sl v.bid i = { s.sl v.bid i with ycnt := (s.sl v.bid i).ycnt - 1 }) ∧
      ∀ c k : Nat, ((t.core c).secs[k]?).map Section.time = ((s.core c).secs[k]?).map Section.time) ∧
  (∀ (s : State) (v : Visit), s.visit = some v → (s.blk v.bid).stop = none → s.redoLeft (s.blk v.bid) ≠ [] →
    ∃ t, step s = .next t ∧ t.visit = none ∧ ∀ i, (t.sl v.bid i).ycnt = (s.sl v.bid i).ycnt)

/-- The work queues are first in, first out: items pushed by a block of a launch that is not deterministic onto an empty queue with room come back from
its REFILL in the order pushed, and leave the queue as it was. -/
def Obligations.WorkQueuesAreFirstInFirstOut : Prop :=
  ∀ (s : State) (bid q : Nat) (l : List W32), s.det bid = false → (s.core (s.blk bid).core).queue q = [] → q < 4 →
    (s.blk bid).core < s.cores.length → (s.core (s.blk bid).core).wq.length = 4 → l.length + s.reservedEntries (s.blk bid).core ≤ 1024 →
    let r := s.pushItems bid q l
    r.1 = l.length ∧ ((r.2.core (s.blk bid).core).queue q).map (fun e => e.item) = l ∧
    (∀ k ≤ l.length, (r.2.take bid q k).1 = l.take k) ∧ ((r.2.take bid q l.length).2.core (s.blk bid).core).queue q = []

/-- A privileged special register that WRSR writes reads back as written on that core: the watchdog limit whole, the batch threshold and the stealing
bound in their low four bits, the residency threshold in its low three, the queue depth in its low eight, every other bit zero; a write of one leaves
the others. %privl reads whether the launch has privilege. -/
def Obligations.PrivilegedRegistersReadBack : Prop :=
  (∀ (s : State) (bid i t core : Nat) (w : W32), (s.blk bid).core = core → core < s.cores.length →
    (s.writeSreg core 0x84 w).sreg bid i t 0x84 = w.zeroExtend 64 ∧
    (∀ p ∈ [(0x81, 0xF), (0x82, 0x7), (0x83, 0xFF), (0x85, 0xF)],
      (s.writeSreg core p.1 w).sreg bid i t p.1 = (w &&& BitVec.ofNat 32 p.2).zeroExtend 64) ∧
    (∀ m ∈ [0x81, 0x82, 0x83, 0x84, 0x85], ∀ n ∈ [0x80, 0x81, 0x82, 0x83, 0x84, 0x85], m ≠ n →
      (s.writeSreg core m w).sreg bid i t n = s.sreg bid i t n)) ∧
  (∀ (s : State) (bid i t : Nat), s.sreg bid i t 0x80 = if (s.grid (s.blk bid).gid).priv then 1 else 0)

/-- A privileged instruction in a launch without privilege, WRSR, HARVEST, TFENCE at .dev or .sys, RDSR of a register at or above 0x80 and every other
instruction a source of which names such a register, traps with PRIV where no deferred trap is due, precise at the instruction. -/
def Obligations.PrivilegeIsChecked : Prop :=
  let Turned := fun (c : FormR → Instr) (key : Nat) => ∀ (f : FormR) (s : State) (v : Visit), s.visit = some v →
    (key = 0x113 → 3 ≤ f.md.toNat % 8) → (key = 0x011 → ∃ n : BitVec 8, f.oa = .sreg n ∧ 0x80 ≤ n.toNat) →
    (s.grid (s.blk v.bid).gid).priv = false →
    (Ctx.make key (.r f) v s).deferredTrap (s.opened key (.r f) v) = none →
    ∃ t : Trap, t.cause = .priv ∧ t.kind = 0 ∧ t.pc = (Ctx.make key (.r f) v s).pc ∧ exec (c f) s = .next (s.stopped key (.r f) v t)
  Turned .wrsr 0x012 ∧ Turned .harvest 0x115 ∧ Turned .tfence 0x113 ∧ Turned .rdsr 0x011 ∧
  (∀ (i : Instr) (key : Nat) (f : Fields) (s : State) (v : Visit) (n : BitVec 8), i.fields = some (key, f) → s.visit = some v →
    (f.oa = .sreg n ∨ f.ob = .sreg n) → 0x80 ≤ n.toNat → (s.grid (s.blk v.bid).gid).priv = false →
    (Ctx.make key f v s).deferredTrap (s.opened key f v) = none →
    ∃ t : Trap, t.cause = .priv ∧ t.kind = 0 ∧ t.pc = (Ctx.make key f v s).pc ∧ exec i s = .next (s.stopped key f v t)) ∧
  Cause.priv.code = 0x06

/-- Signs of a quorum register with a declared count D complete a phase at every D-th sign: n signs from a signed count S below D leave (S + n) mod D
signed and the phase inverted once for each completed phase, and where one completed, every slice armed for the register is done. -/
def Obligations.QuorumPhasesComplete : Prop :=
  ∀ (s : State) (bid q n : Nat), (s.blocks.find? (fun b => b.bid == bid)).isSome → mwf ⟨0, 0, false, none, []⟩ (s.blk bid).q = true → q < 16 →
    let d := ((s.blk bid).quorum q).decl
    let c := ((s.blk bid).quorum q).signed
    0 < d → c < d → ((s.blk bid).quorum q).sign = none →
    let u := s.signs bid q n
    ((u.blk bid).quorum q).decl = d ∧ ((u.blk bid).quorum q).signed = (c + n) % d ∧
    (((u.blk bid).quorum q).phase = if (c + n) / d % 2 = 0 then ((s.blk bid).quorum q).phase else !((s.blk bid).quorum q).phase) ∧
    ∀ i, (u.sl bid i).qdone = if d ≤ c + n ∧ (s.sl bid i).qarm.getLsbD q = true then (s.sl bid i).qdone ||| (1#16 <<< q) else (s.sl bid i).qdone

/-- A sign on a quorum register that is not declared traps with COUNT_RESIDUE and counts nothing, and a declared count above 1,024 traps with
INDEX_BOUNDS; with the count declared the sign has no trap of its own. -/
def Obligations.UndeclaredSignsTrap : Prop :=
  (∀ (f : FormR) (s : State) (v : Visit), Issues 0x141 (.r f) v s →
    let x := Ctx.make 0x141 (.r f) v s
    let s1 := s.opened 0x141 (.r f) v
    ((s1.blk v.bid).quorum (resNo f.oa)).decl = 0 → x.inEffect s1 ≠ [] →
      ∃ t : Trap, t.cause = .countResidue ∧ t.kind = 0 ∧ t.info = resNo f.oa ∧ exec (.qsign f) s = .next (s.stopped 0x141 (.r f) v t)) ∧
  (∀ (f : FormR) (s : State) (v : Visit), Issues 0x140 (.r f) v s →
    let x := Ctx.make 0x140 (.r f) v s
    let s1 := s.opened 0x140 (.r f) v
    (∃ i ∈ x.inEffect s1, 1024 < (x.b s1 i 0).toNat) →
      ∃ t : Trap, t.cause = .indexBounds ∧ t.kind = 0 ∧ t.info2 = 1024 ∧ exec (.qdecl f) s = .next (s.stopped 0x140 (.r f) v t)) ∧
  (∀ (x : Ctx) (s : State) (q : Nat), 0 < ((s.blk x.bid).quorum q).decl → x.undeclared s q = none)

/-- A tag is pending while a command added to it has not completed, ready when every one has, and idle once TAGCLR has taken it from ready: adding a
command makes it pending, the completion of its last command makes it ready and of an earlier one does not, TAGCLR turns exactly the ready tags of its
mask idle, and no other tag changes. -/
def Obligations.TagsFollowTheirCommands : Prop :=
  ∀ (b : Block), mwf ⟨0, false⟩ b.tags = true →
    (∀ n m, (b.tagAdd n).tag m = if m = n then ⟨(b.tag n).pending + 1, false⟩ else b.tag m) ∧
    (∀ n m, 0 < (b.tag n).pending → (b.tagDone n).tag m =
      if m = n then ⟨(b.tag n).pending - 1, decide ((b.tag n).pending = 1)⟩ else b.tag m) ∧
    (∀ (w : W64) (m : Nat), (b.tagsIdle w).tag m = if w.getLsbD m = true ∧ (b.tag m).ready = true then ⟨(b.tag m).pending, false⟩ else b.tag m) ∧
    (∀ n, ((b.tagAdd n).tagDone n).tag n = ⟨(b.tag n).pending, decide ((b.tag n).pending = 0)⟩)

/-- The tag waits: WAITT waits while a tag of its mask is pending, WAITTA until one is ready or none is pending; TAGFF gives the lowest ready tag of its
mask, or 64. -/
def Obligations.TagWaitsAndFirstReady : Prop :=
  (∀ (b : Block) (sl : Slice) (w : W64), waitHolds b sl (.tagsAll w) = true ↔ ∀ n, w.getLsbD n = true → (b.tag n).pending = 0) ∧
  (∀ (b : Block) (sl : Slice) (w : W64), waitHolds b sl (.tagsAny w) = true ↔
    (∃ n, w.getLsbD n = true ∧ (b.tag n).ready = true) ∨ ∀ n, w.getLsbD n = true → (b.tag n).pending = 0) ∧
  (∀ (f : FormR) (s : State) (v : Visit), Issues 0x147 (.r f) v s → s.det v.bid = false →
    ∃ val : State → Nat → Nat → W32, exec (.tagff f) s = .next (s.written 0x147 (.r f) v (fun _ s i t => [val s i t])) ∧
      ∀ (u : State) (i t : Nat), let w := u.src64 v.bid i t f.oa
        (∀ n, w.getLsbD n = true → ((u.blk v.bid).tag n).ready = true →
          (val u i t).toNat ≤ n ∧ w.getLsbD (val u i t).toNat = true ∧ ((u.blk v.bid).tag (val u i t).toNat).ready = true) ∧
        ((∀ n, w.getLsbD n = true → ((u.blk v.bid).tag n).ready = false) → val u i t = 64)) ∧
  (∀ (f : FormR) (s : State) (v : Visit), Issues 0x147 (.r f) v s → s.det v.bid = true →
    (Ctx.make 0x147 (.r f) v s).inEffect (s.opened 0x147 (.r f) v) ≠ [] →
    ∃ t : Trap, t.cause = .detTimer ∧ exec (.tagff f) s = .next (s.stopped 0x147 (.r f) v t))

/-- A count barrier: posting an expectation n with the count at or above n completes the phase at once, takes n from the count and raises the phase number
modulo 2^16; below n the expectation stays posted and the count stands. CBWAIT ph passes exactly when (N - ph - 1) mod 2^16 is below 2^15, so that of
two phases one apart the later has completed only if the earlier has, within half the range. CBEXP completes where the barrier has no expectation
posted in the one slice it takes effect in, and traps with COUNT_RESIDUE, the barrier unchanged, where it has. An arrival of n raises the count by n, to at
most 2^32 - 1, and completes the phase of a posted expectation that it meets; within that bound arrivals may be split as one likes. The arrival of an
engine command's counts changes its own barrier alone, and past the bound adds one deferred COUNT_RESIDUE to the traps of the slice that issued it. -/
def Obligations.CountBarriersAndExpectations : Prop :=
  ((∀ (c : CountBar) (n : Nat), c.p = false → c.expect n =
    if n ≤ c.c then { c with c := c.c - n, e := n, p := false, n := c.n + 1 } else { c with e := n, p := true }) ∧
  (∀ c : CountBar, c.check.check = c.check) ∧
  (∀ (n ph : BitVec 16), phaseDone n ph = decide ((n.toNat + 2 ^ 17 - ph.toNat - 1) % 2 ^ 16 < 2 ^ 15)) ∧
  (∀ n : BitVec 16, phaseDone n n = false ∧ phaseDone (n + 1) n = true) ∧
  (∀ (b : Block) (sl : Slice) (cb : Nat) (ph : BitVec 16), waitHolds b sl (.phase cb ph) = phaseDone (b.cb cb).n ph)) ∧
  (∀ (c : CountBar) (n : Nat), let m := min (c.c + n) 0xFFFFFFFF
    (c.arrive n).check = if c.p = true ∧ c.e ≤ m then { c with c := m - c.e, p := false, n := c.n + 1 } else { c with c := m }) ∧
  (∀ (c : CountBar) (m n : Nat), c.c + m + n ≤ 0xFFFFFFFF → ((c.arrive m).check.arrive n).check = (c.arrive (m + n)).check) ∧
  (∀ (s : State) (c : EngCmd) (n : Nat), c.cb = none → s.arrive c n = s) ∧
  (∀ (s : State) (c : EngCmd) (n k : Nat), c.cb = some k → (s.blocks.find? (fun b => b.bid == c.bid)).isSome → mwf ⟨0, 0, false, 0⟩ (s.blk c.bid).cbs = true →
    c.slice < (s.blk c.bid).slices.length → (s.sl c.bid c.slice).ended = false →
    let old := (s.blk c.bid).cb k
    let u := s.arrive c n
    (u.blk c.bid).cb k = (old.arrive n).check ∧ (∀ m, m ≠ k → (u.blk c.bid).cb m = (s.blk c.bid).cb m) ∧ (∀ b, b ≠ c.bid → u.blk b = s.blk b) ∧
    let traps := fun (s : State) => (s.sl c.bid c.slice).deferred.map (fun d => d.trap)
    (old.c + n ≤ 0xFFFFFFFF → traps u = traps s) ∧
    (0xFFFFFFFF < old.c + n → ∃ t : Trap, traps u = traps s ++ [t] ∧ t.cause = .countResidue ∧ t.kind = 1 ∧ t.slc = c.slice ∧ t.info = 0x80 + k)) ∧
  (∀ (f : FormR) (s : State) (v : Visit) (i : Nat), Issues 0x149 (.r f) v s →
    let x := Ctx.make 0x149 (.r f) v s
    let s1 := s.opened 0x149 (.r f) v
    x.inEffect s1 = [i] →
    (((s1.blk v.bid).cb (resNo f.oa)).p = false →
      exec (.cbexp f) s = .next (s.closed 0x149 (.r f) v (s1.modBlk v.bid (fun b =>
        (b.setCb (resNo f.oa) (((s1.blk v.bid).cb (resNo f.oa)).expect (x.b s1 i 0).toNat)).latch)))) ∧
    (((s1.blk v.bid).cb (resNo f.oa)).p = true →
      ∃ t : Trap, t.cause = .countResidue ∧ t.kind = 0 ∧ t.info = 0x80 + resNo f.oa ∧ exec (.cbexp f) s = .next (s.stopped 0x149 (.r f) v t)))

/-- Register units are conserved: the units of a block's slices and its reserve have the same sum before and after a claim joins the queue, whether it is
served or waits, and before and after a slice gives some of its units back. -/
def Obligations.RegisterUnitsAreConserved : Prop :=
  let total := fun (b : Block) => sumNat (b.slices.map (fun sl => sl.alloc)) + b.reserve
  (∀ (b : Block) (i n : Nat), i < b.slices.length → (∀ e ∈ b.claimQ, e.1 < b.slices.length) → total (b.claim i n) = total b) ∧
  (∀ (b : Block) (i n : Nat), i < b.slices.length → n ≤ (b.sl i).alloc → (∀ e ∈ b.claimQ, e.1 < b.slices.length) → total (b.give i n) = total b)

/-- A claim on an empty queue with room in the reserve is served at once: the slice's window grows by n units whose registers read zero, and those it had
keep their values; a claim that the reserve cannot serve, or that stands behind another that waits, waits in the queue with the slice unchanged. The
limits of the register pool: CLAIM n of a slice with a units completes where a + n is at most 32 and traps with REG_RANGE above; GIVE n completes
where n is below a and traps with REG_RANGE otherwise. -/
def Obligations.ClaimsAreServedInOrderWithinLimits : Prop :=
  ((∀ (b : Block) (i n : Nat), b.claimQ = [] → n ≤ b.reserve → i < b.slices.length → mwf 0 (b.sl i).v = true →
    (b.claim i n).claimQ = [] ∧ (b.claim i n).reserve = b.reserve - n ∧ ((b.claim i n).sl i).alloc = (b.sl i).alloc + n ∧
    ∀ r t, t < 4 → ((b.claim i n).sl i).lane r t = if r < 8 * (b.sl i).alloc then (b.sl i).lane r t else 0) ∧
  (∀ (b : Block) (i n j m : Nat) (l : List (Nat × Nat)), b.claimQ = (j, m) :: l → b.reserve < m →
    b.claim i n = { b with claimQ := b.claimQ ++ [(i, n)] }) ∧
  (∀ (b : Block) (i n : Nat), b.claimQ = [] → b.reserve < n → b.claim i n = { b with claimQ := [(i, n)] })) ∧
  ((∀ (x : Ctx) (s : State), x.claimTrap s = none ↔ ∀ i ∈ x.inEffect s, (s.sl x.bid i).alloc + x.claimed s i ≤ 32) ∧
  (∀ (x : Ctx) (s : State) (t : Trap), x.claimTrap s = some t →
    t.cause = .regRange ∧ t.kind = 0 ∧ t.info = x.claimed s t.slc ∧ t.info2 = (s.sl x.bid t.slc).alloc ∧ 32 < t.info + t.info2) ∧
  (∀ (x : Ctx) (s : State), x.giveTrap s = none ↔ ∀ i ∈ x.inEffect s, x.claimed s i < (s.sl x.bid i).alloc) ∧
  (∀ (x : Ctx) (s : State) (t : Trap), x.giveTrap s = some t →
    t.cause = .regRange ∧ t.kind = 0 ∧ t.info = x.claimed s t.slc ∧ t.info2 = (s.sl x.bid t.slc).alloc ∧ t.info2 ≤ t.info))

/-- A block whose live slices all wait in CLAIM is stopped with REG_DEADLOCK, which names its lowest-numbered waiting slice, the units that slice claims
and the block's reserve; a block with a live slice that does not wait in CLAIM is left as it stands. -/
def Obligations.ClaimDeadlockIsTrapped : Prop :=
  (∀ (s : State) (bid i : Nat), (s.blocks.find? (fun b => b.bid == bid)).isSome → (s.blk bid).stop = none →
    i < (s.blk bid).slices.length → (s.sl bid i).ended = false → (∀ j < i, (s.sl bid j).ended = true) →
    (∀ j < (s.blk bid).slices.length, (s.sl bid j).ended = false → ∃ n, (s.sl bid j).claiming = some n) →
    ∃ u t, exec (.regDeadlockDetect bid) s = .next u ∧ (u.blk bid).stop = some { state := 3, trap := some t, cycle := s.cycle bid } ∧
      t.cause = .regDeadlock ∧ t.kind = 2 ∧ t.slc = i ∧ some t.info = (s.sl bid i).claiming ∧ t.info2 = (s.blk bid).reserve) ∧
  (∀ (s : State) (bid j : Nat), j < (s.blk bid).slices.length → (s.sl bid j).ended = false → (s.sl bid j).claiming = none →
    exec (.regDeadlockDetect bid) s = .next s)

/-- A block that takes a trap stops with every slice as it stands: its stop names the trap and its cycle, one record of it is made under the next sequence
number, the visit ends, and every other block, every core and memory are as they were. Of two events of one cycle a block trap is taken before the
others, and otherwise that of the lowest slice and thread: a later one that comes first takes the place of the earlier in the block's stop and in its
one record, which keeps its number. Every other event that meets a block already stopping records nothing and merges with that stop, and so does a
pre-emption.
What counts as one cycle, and that a displaced record keeps its number, are the model's reading (log entry 89): R332 gives the order alone. -/
def Obligations.TrapStopsTheBlock : Prop :=
  ∀ (s : State) (bid : Nat), (s.blocks.find? (fun b => b.bid == bid)).isSome → let b := s.blk bid
    (∀ t : Trap, b.stop = none → let u := s.takeTrap bid t
      u.blk bid = { b with stop := some { state := if t.cause = .pageAbsent then 2 else 3, trap := some t, cycle := s.cycle bid },
                            trseq := s.seqNo } ∧
      u.seqNo = s.seqNo + 1 ∧ u.visit = none ∧ (∃ r : TrapRec, u.recs = s.recs ++ [r] ∧ r.seq = s.seqNo ∧ r.trap = t ∧ r.part = b.part ∧ r.bnum = b.bnum ∧
        r.lra = (s.launch bid).lra ∧ r.cfa = b.cfa ∧ r.core = (if b.loc = .saved then 0xFF else b.core)) ∧
      (∀ n, n ≠ bid → u.blk n = s.blk n) ∧ u.cores = s.cores ∧ u.mem = s.mem) ∧
    (∀ (t u : Trap) (st n : Nat), b.stop = some { state := st, trap := some u, cycle := n } →
      (n ≠ s.cycle bid ∨ t.before u = false → s.takeTrap bid t = { s with visit := none }) ∧
      (n = s.cycle bid → t.before u = true → let w := s.takeTrap bid t
        w.blk bid = { b with stop := some { state := if t.cause = .pageAbsent then 2 else 3, trap := some t, cycle := n } } ∧
        w.recs.map TrapRec.seq = s.recs.map TrapRec.seq ∧ (∀ r ∈ s.recs, r.seq ≠ b.trseq → r ∈ w.recs) ∧
        ((∃ r ∈ s.recs, r.seq = b.trseq) → ∃ r ∈ w.recs, r.seq = b.trseq ∧ r.trap = t) ∧
        w.seqNo = s.seqNo ∧ w.visit = none ∧ (∀ k, k ≠ bid → w.blk k = s.blk k) ∧ w.cores = s.cores ∧ w.mem = s.mem)) ∧
    (∀ (t : Trap) (st n : Nat), b.stop = some { state := st, trap := none, cycle := n } → s.takeTrap bid t = { s with visit := none }) ∧
    (∀ t u : Trap, t.before u = true ↔ u.kind ≠ 2 ∧ (t.kind = 2 ∨ t.slc < u.slc ∨ t.slc = u.slc ∧ t.thr < u.thr)) ∧
    (b.stop = none → (s.preempt bid).blk bid = { b with stop := some { state := 1, trap := none }, trseq := 0 } ∧ (s.preempt bid).recs = s.recs) ∧
    (b.stop ≠ none → (s.preempt bid).blk bid = b)

/-- The checks of a decoded word in their order: PRIV before REG_RANGE, REG_RANGE before what the instruction itself checks, and of slices the first
served one. Where a check fails, the instruction stops with its trap whichever of the 185 it is: no slice of the block changes in anything, no flag is raised and no
distance count advances, and all else keeps what it holds. -/
def Obligations.NoEffectAfterAFailedCheck : Prop :=
  (∀ (key : Nat) (f : Fields) (s : State) (v : Visit), let x := Ctx.make key f v s
    let s1 := s.opened key f v
    x.deferredTrap s1 = none →
    (x.privileged = true → (s.grid (s.blk v.bid).gid).priv = false →
      ∃ t, x.check s s1 = some t ∧ t.cause = .priv ∧ t.kind = 0 ∧ t.pc = x.pc ∧ t.slc = v.slices.headD 0) ∧
    (∀ (pre post : List Nat) (i : Nat) (t : Trap), v.slices = pre ++ i :: post → (∀ j ∈ pre, x.regRange (s.blk v.bid) j = none) →
      x.regRange (s.blk v.bid) i = some t → (x.privileged = true → (s.grid (s.blk v.bid).gid).priv = true) →
      x.check s s1 = some t ∧ t.cause = .regRange ∧ t.kind = 0 ∧ t.pc = x.pc ∧ t.slc = i)) ∧
  (∀ (i : Instr) (key : Nat) (f : Fields) (s : State) (v : Visit) (t : Trap), i.fields = some (key, f) → s.visit = some v →
    (Ctx.make key f v s).check s (s.opened key f v) = some t → exec i s = .next (s.stopped key f v t)) ∧
  ∀ (key : Nat) (f : Fields) (s : State) (v : Visit) (t : Trap), let u := s.stopped key f v t
    u.bare v.bid = s.bare v.bid ∧ ∀ j, u.sl v.bid j = s.sl v.bid j

/-- A trap record's 128 bytes: each field stands at its offset in its width, the bytes between and the last sixteen are zero, and the thirty causes have
the thirty codes of the specification, no two alike. -/
def Obligations.TrapRecordLayout : Prop :=
  (∀ r : TrapRec, let l := recordBytes r
    let t := r.trap
    l.length = 128 ∧ field l 0x00 8 = r.seq % 2 ^ 64 ∧ field l 0x08 1 = t.cause.code ∧ field l 0x09 1 = t.kind % 2 ^ 8 ∧ field l 0x0A 1 = r.part % 2 ^ 8 ∧
    field l 0x0B 1 = r.core % 2 ^ 8 ∧ field l 0x0C 4 = r.bnum % 2 ^ 32 ∧ field l 0x10 8 = r.lra.toNat ∧ field l 0x18 8 = t.pc.toNat ∧
    field l 0x20 8 = t.tpc.toNat ∧ field l 0x28 1 = t.slc % 2 ^ 8 ∧ field l 0x29 1 = t.thr % 2 ^ 8 ∧ field l 0x2A 2 = 0 ∧ field l 0x2C 4 = t.unit % 2 ^ 32 ∧
    field l 0x30 8 = t.ea % 2 ^ 64 ∧ field l 0x38 12 = t.word.toNat ∧ field l 0x44 4 = t.info % 2 ^ 32 ∧ field l 0x48 8 = t.info2 % 2 ^ 64 ∧
    field l 0x50 16 = t.ext.toNat ∧ field l 0x60 8 = r.cfa % 2 ^ 64 ∧ field l 0x68 8 = r.clk % 2 ^ 64 ∧ field l 0x70 16 = 0) ∧
  allCauses.map Cause.code = [0x01, 0x02, 0x03, 0x04, 0x05, 0x06, 0x07, 0x10, 0x11, 0x12, 0x13, 0x14, 0x15, 0x16, 0x17, 0x20, 0x21, 0x22, 0x23, 0x24, 0x25,
    0x26, 0x30, 0x31, 0x40, 0x41, 0x42, 0x50, 0x51, 0x60] ∧
  (∀ c : Cause, c ∈ allCauses) ∧ ∀ c d : Cause, c.code = d.code → c = d

/-- The return from a trap by the frame's DISP: RETRY leaves the block as it was saved, but after TRAP or BRK, whose block goes on at the next
instruction, it is SKIP. SKIP moves, after a precise trap, the slices of the named slice's gang that stand at the instruction to PC + 12; after a
deferred trap it is RETRY; after a block trap it releases the named slice from its waiting instruction and takes its claim out of the queue. Nothing
else of the block changes. -/
def Obligations.ReturnFromTrap : Prop :=
  (∀ b : Block, (∀ (st n : Nat) (t : Trap), b.stop = some { state := st, trap := some t, cycle := n } → t.cause ≠ .trap ∧ t.cause ≠ .brk) →
    b.resumeDisp 0 = { b with resume := true }) ∧
  (∀ (b : Block) (st n : Nat) (t : Trap), b.stop = some { state := st, trap := some t, cycle := n } → (t.cause = .trap ∨ t.cause = .brk) → t.kind = 0 →
    b.resumeDisp 0 = b.resumeDisp 1) ∧
  (∀ (b : Block) (st n : Nat) (t : Trap), b.stop = some { state := st, trap := some t, cycle := n } → let u := b.resumeDisp 1
    (t.kind = 0 → { u with slices := b.slices } = { b with resume := true } ∧ u.slices.length = b.slices.length ∧
      ∀ i < b.slices.length, u.sl i =
        if (b.sl i).pc = t.pc ∧ (b.sl i).ended = false ∧ (∃ g ∈ b.gangs, t.slc ∈ g.2 ∧ i ∈ g.2) then { b.sl i with pc := (b.sl i).pc + 12 } else b.sl i) ∧
    (t.kind = 1 → u = { b with resume := true }) ∧
    (t.kind = 2 → { u with slices := b.slices, claimQ := b.claimQ } = { b with resume := true } ∧
      (∀ i < b.slices.length, u.sl i = if i = t.slc then { b.sl i with wait := none } else b.sl i) ∧
      u.claimQ = b.claimQ.filter (fun e => e.1 != t.slc)))

/-- A bench load returns the value of the last bench store before it: the bytes a store writes read back as its data, every byte outside them keeps its
value, and nothing else of the block changes but the poison that a word written whole loses. A line written to memory under a key reads back under
that key, whole, with the poison of its units, which a device without check symbols does not hold; every byte of every other line, under every key, and
the poison of every other line read as before; and memory keeps its canonical form.
By the model's choice or reading: where poison stands (log entry 37, beside R306), and that a unit written under an identifier with no key loaded reads
back under it (log entry 10). -/
def Obligations.StoredBytesReadBack : Prop :=
  (∀ (b : Block) (a n data : Nat), mwf 0 b.bench = true → let u := b.benchWrite a (bytesOf n data)
    u.benchNat a n = data % 2 ^ (8 * n) ∧ mwf 0 u.bench = true ∧
    (∀ c m, c + m ≤ a ∨ a + n ≤ c → u.benchNat c m = b.benchNat c m) ∧ { u with bench := b.bench, bpois := b.bpois } = b ∧
    (∀ w, u.bpois.contains w = true → b.bpois.contains w = true)) ∧
  (∀ (s : State) (line kid : Nat) (d : LineData) (p : Pois), Memory.wf s.mem = true → mwf 0 s.memKey = true → isRemote (128 * line) = false →
    let u := s.setMemLine line kid d p
    u.memLine line kid = d ∧ u.memPoison line = { unit := if s.checks then p.units else 0, word := 0 } ∧ Memory.wf u.mem = true ∧
    (∀ k a, a / 128 ≠ line → u.memByte k a = s.memByte k a) ∧ (∀ l, l ≠ line → u.memPoison l = s.memPoison l) ∧
    { u with mem := s.mem, memKey := s.memKey, poison := s.poison } = s)

/-- The frame of the instructions BRA, BRX, CALL, CALLX, RET, PUSHJ, REGANG, PART, YIELD, QWAIT, WAITF, WAITT, WAITTA, TAGCLR, CBEXP, CBWAIT, CLAIM and
GIVE, which act on their own block: whenever one answers a next state, completed or trapped, every other block, memory, every cache, queue and engine,
and every register of the cores outside the gang slots are as they were. -/
def Obligations.ControlStaysInItsBlock : Prop :=
  let stays := fun (i : Instr) => ∀ (s t : State) (v : Visit), s.visit = some v → exec i s = .next t →
    let out := fun (s : State) => { s.bare v.bid with blocks := s.blocks.filter (fun b => b.bid != v.bid) }
    out t = out s
  (∀ c ∈ ([.brx, .callx, .ret, .part, .yield, .qwait, .waitf, .waitt, .waitta, .tagclr, .cbexp, .cbwait, .claim, .give] : List (FormR → Instr)),
    ∀ f, stays (c f)) ∧
  ∀ c ∈ ([.bra, .call, .pushj, .regang] : List (FormL → Instr)), ∀ f, stays (c f)

/-- The issue of an instruction stores nothing: operations of memory, matrix and engine instructions begin at their issue and store later, in steps of
their own. No bench, no line of an L1, no write under way and no memory changes; and where the instruction walks no page table, no line of the L2s and
the L3 changes either. -/
def Obligations.AnIssueStoresNothing : Prop :=
  ∀ (i : Instr) (key : Nat) (f : Fields) (s t : State) (v : Visit), i.fields = some (key, f) → s.visit = some v → exec i s = .next t →
    t.mem = s.mem ∧ t.memKey = s.memKey ∧ t.netw = s.netw ∧ t.l2w = s.l2w ∧ (∀ b, (t.blk b).bench = (s.blk b).bench) ∧
    (∀ c, (t.core c).l1 = (s.core c).l1) ∧
    (key ∉ [0x00D, 0x100, 0x101, 0x102, 0x103, 0x108, 0x109, 0x10A, 0x10B, 0x10C, 0x10D, 0x10F, 0x110, 0x111, 0x114] → t.l3 = s.l3 ∧ t.l2 = s.l2)

/-- Memory keeps its canonical form: whatever step the machine takes from a state in which memory's entries stand at rising addresses, none equal to what
an unlisted address reads as, they do so after it. -/
def Obligations.MemoryKeepsItsForm : Prop :=
  ∀ s t : State, Memory.wf s.mem = true → step s = .next t → Memory.wf t.mem = true

end
end

