-- ==== Sys2Proof/Laws/Home.lean ====
section
/-! SUPPORT. What a write at an L3 home can change, said once: the caches, the memory a line leaves the L3 for, the operand lines taken before it, and
no other field of the state. -/
open Sys2Proof Sys2Proof.Machine

namespace Sys2Proof.Laws

/-- A property of the result that every element of a list keeps holds of the fold. -/
theorem foldl_keeps {α σ : Type} (P : σ → Prop) (f : σ → α → σ) (l : List α) (s : σ) (h0 : P s) (h : ∀ s, P s → ∀ a ∈ l, P (f s a)) :
    P (l.foldl f s) := by
  induction l generalizing s with
  | nil => exact h0
  | cons a l ih =>
    exact ih (f s a) (h s h0 a (by simp)) (fun t ht b hb => h t ht b (by simp [hb]))

/-- `t` differs from `s` at most in the caches, memory with its keys and poison, the written bits, the walker's cache, the operand lines that operations
have taken and the traps of addends (blocks and cores), the partials on their way to their slots, and the free-value counter. -/
def SameButHome (s t : State) : Prop :=
  { t with l3 := s.l3, l2 := s.l2, free := s.free, walkCache := s.walkCache, mem := s.mem, memKey := s.memKey, poison := s.poison, wo := s.wo,
           cores := s.cores, blocks := s.blocks, partials := s.partials, partQ := s.partQ } = s

theorem SameButHome.refl (s : State) : SameButHome s s := by simp [SameButHome]

theorem SameButHome.trans {s t u : State} (h1 : SameButHome s t) (h2 : SameButHome t u) : SameButHome s u := by
  unfold SameButHome at *
  rw [← h1, ← h2]

theorem SameButHome.fields {s t : State} (h : SameButHome s t) : t.windows = s.windows ∧ t.host = s.host ∧ t.grids = s.grids ∧ t.keys = s.keys ∧
    t.parts = s.parts ∧ t.recs = s.recs := by
  unfold SameButHome at h
  rw [← h]
  exact ⟨(Eq.refl _), (Eq.refl _), (Eq.refl _), (Eq.refl _), (Eq.refl _), (Eq.refl _)⟩

theorem modL2_home (s : State) (sl line kid : Nat) (f : L2Line → L2Line) : SameButHome s (s.modL2 sl line kid f) := (Eq.refl _)
theorem dropL2_home (s : State) (sl line kid : Nat) : SameButHome s (s.dropL2 sl line kid) := (Eq.refl _)
theorem dropWalk_home (s : State) (line : Nat) : SameButHome s (s.dropWalk line) := (Eq.refl _)
theorem setMemLine_home (s : State) (line kid : Nat) (d : LineData) (p : Pois) : SameButHome s (s.setMemLine line kid d p) := by
  simp only [SameButHome, State.setMemLine]
theorem withL3_home (s : State) (l : List L3Line) : SameButHome s { s with l3 := l } := (Eq.refl _)

theorem forgetWo_home (s : State) (line kid : Nat) : SameButHome s (s.forgetWo line kid) := by
  unfold State.forgetWo
  split
  · exact .refl s
  · exact (Eq.refl _)

theorem dropWo_home (s : State) : SameButHome s s.dropWo := by
  unfold State.dropWo
  split
  · exact .refl s
  · exact (Eq.refl _)

theorem sweepWo_home (s : State) (line kid : Nat) : SameButHome s (s.sweepWo line kid) := by
  unfold State.sweepWo
  split
  · exact .refl s
  · exact dropWo_home s

theorem evictL3_home (s : State) (line kid : Nat) : SameButHome s (s.evictL3 line kid) := by
  unfold State.evictL3
  split
  · exact .refl s
  · dsimp only
    split
    · exact ((setMemLine_home ..).trans (withL3_home ..)).trans (forgetWo_home ..)
    · exact (withL3_home ..).trans (forgetWo_home ..)

theorem l3Room_home (s : State) (line : Nat) : SameButHome s (s.l3Room line) := by
  unfold State.l3Room
  split
  · exact .refl s
  · dsimp only
    split
    · split
      · exact .refl s
      · exact evictL3_home ..
    · exact .refl s

theorem setL3_home (s : State) (x : L3Line) : SameButHome s (s.setL3 x) := by
  unfold State.setL3
  dsimp only
  split
  · exact Eq.refl _
  · have h1 : SameButHome s { s with free := s.free + 1 } := Eq.refl _
    exact (h1.trans (l3Room_home _ x.line)).trans (Eq.refl _)

theorem writeBackL2_home (s : State) (x : L2Line) : SameButHome s (s.writeBackL2 x) := by
  unfold State.writeBackL2
  split
  · exact modL2_home ..
  · exact (setL3_home ..).trans (modL2_home ..)

theorem collect_home (s : State) (line kid : Nat) : SameButHome s (s.collect line kid) :=
  foldl_keeps (SameButHome s) _ _ _ (.refl s) (fun _ h x _ => (h.trans (writeBackL2_home _ x)).trans (dropL2_home ..))

theorem takePin_home (s : State) (core : Nat) (p : Pin) : SameButHome s (s.takePin core p) := (Eq.refl _)

theorem takePins_home (s : State) (line kid : Nat) : SameButHome s (s.takePins line kid) :=
  foldl_keeps (SameButHome s) _ _ _ (.refl s) (fun _ h _ _ =>
    foldl_keeps (SameButHome s) _ _ _ h (fun _ h2 _ _ => h2.trans (takePin_home ..)))

theorem homeWriteLine_home (s : State) (line kid : Nat) (mask : LineMask) (d : LineData) (p : LineMask) :
    SameButHome s (s.homeWriteLine line kid mask d p) := by
  unfold State.homeWriteLine
  split
  · exact (Eq.refl _)
  · exact (((takePins_home s line kid).trans (collect_home ..)).trans (setL3_home ..)).trans (sweepWo_home ..)

theorem homeWrite_home (s : State) (kid pa : Nat) (l : List Byte) : SameButHome s (s.homeWrite kid pa l) :=
  foldl_keeps (SameButHome s) _ _ _ (.refl s) (fun _ h _ _ => (h.trans (homeWriteLine_home ..)).trans (dropWalk_home ..))

theorem saturate_home (s : State) (te : Bool) (src : Source) : SameButHome s (s.saturate te src) := by
  unfold State.saturate
  split
  · exact (Eq.refl _)
  · exact .refl s

theorem foldEl_home (s : State) (line kid : Nat) (e : Nat × PartEl) : SameButHome s (s.foldEl line kid e) := by
  unfold State.foldEl
  split
  · exact .refl s
  · dsimp only
    split
    · exact (homeWrite_home ..).trans (saturate_home ..)
    · exact homeWrite_home ..

theorem foldLine_home (s : State) (p : PartLine) : SameButHome s (s.foldLine p) := by
  have h := foldl_keeps (SameButHome s) (fun s e => s.foldEl p.line p.kid e) p.els s (.refl s) (fun _ h e _ => h.trans (foldEl_home _ _ _ e))
  unfold State.foldLine
  dsimp only
  split
  · exact h.trans (homeWriteLine_home ..)
  · exact h

theorem recallLine_home (s : State) (line kid : Nat) : SameButHome s (s.recallLine line kid) := by
  unfold State.recallLine
  dsimp only
  split
  · exact .refl s
  · exact foldl_keeps (SameButHome s) _ _ _ (Eq.refl _) (fun _ h p _ => h.trans (foldLine_home _ p))

theorem recallSpan_home (s : State) (pa n : Nat) : SameButHome s (s.recallSpan pa n) :=
  foldl_keeps (SameButHome s) _ _ _ (.refl s) (fun _ h _ _ => h.trans (recallLine_home ..))

theorem recallWalk_home (va level table : Nat) (s : State) : SameButHome s (s.recallWalk va level table) := by
  induction level generalizing s table with
  | zero =>
    unfold State.recallWalk
    split
    · exact .refl s
    · dsimp only
      split
      · exact recallSpan_home ..
      · exact (recallSpan_home ..).trans (recallSpan_home ..)
  | succ k ih =>
    unfold State.recallWalk
    split
    · exact .refl s
    · dsimp only
      split
      · exact (recallSpan_home ..).trans (ih ..)
      · exact (recallSpan_home ..).trans (recallSpan_home ..)

theorem orEntry_home (s : State) (addr bit : Nat) : SameButHome s (s.orEntry addr bit) := by
  unfold State.orEntry
  dsimp only
  split
  · exact recallSpan_home ..
  · exact (recallSpan_home ..).trans (homeWrite_home ..)

theorem flushExtent_home (s : State) (part : Nat) (e : Extent) : SameButHome s (s.flushExtent part e).1 := by
  unfold State.flushExtent
  split
  · exact .refl s
  · refine foldl_keeps (fun r : State × Nat => SameButHome s r.1) _ _ _ (.refl s) (fun r h k _ => ?_)
    have h := h.trans (recallWalk_home (65536 * (e.vb + k)) 3 (r.1.root part) r.1)
    dsimp only
    split
    · split
      · exact h.trans (orEntry_home ..)
      · exact h
    · exact h

/-- Extents flushed and discarded: the windows and the host's registers stand. -/
theorem discardExtents_windows (s : State) (hit : Block → Extent → Bool) : (s.discardExtents hit).windows = s.windows ∧
    (s.discardExtents hit).host = s.host := by
  refine foldl_keeps (fun t : State => t.windows = s.windows ∧ t.host = s.host) _ _ _ ⟨rfl, rfl⟩ (fun t h b _ => ?_)
  have : ∀ l : List Extent, (l.foldl (fun (s : State) e => let r := s.flushExtent b.part e
      { r.1 with dlost := r.1.dlost + r.2 }) t).windows = s.windows ∧ (l.foldl (fun (s : State) e => let r := s.flushExtent b.part e
      { r.1 with dlost := r.1.dlost + r.2 }) t).host = s.host := fun l =>
    foldl_keeps (fun t : State => t.windows = s.windows ∧ t.host = s.host) _ l _ h (fun u hu e _ => by
      have h2 := (flushExtent_home u b.part e).fields
      exact ⟨h2.1.trans hu.1, h2.2.1.trans hu.2⟩)
  exact this _

end Sys2Proof.Laws
end

