-- ==== Sys2Proof/Laws/Issue.lean ====
section
/-! SUPPORT. The shared issue: what `issue`, `issueTry`, `issueAll` and `issueVia` answer, in every case. -/

namespace Sys2Proof.Machine

variable {key : Nat} {f : Fields} {s : State} {v : Visit} {t : Trap}

theorem firstSome_eq_none {α β : Type} {g : α → Option β} {l : List α} : firstSome g l = none ↔ ∀ a ∈ l, g a = none := by
  induction l with
  | nil => simp [firstSome]
  | cons a l ih => cases h : g a <;> simp [firstSome, h, ih]

/-- The checks of R67 pass exactly where `Issues` holds. -/
theorem Issues.check (h : Issues key f v s) : (Ctx.make key f v s).check s ((Ctx.make key f v s).begin s) = none := by
  have hr := firstSome_eq_none.2 h.inRange
  have hp : ((Ctx.make key f v s).privileged && !(s.grid (s.blk (Ctx.make key f v s).bid).gid).priv) = false := by
    rcases hq : (Ctx.make key f v s).privileged with _ | _
    · rfl
    · simp only [Bool.true_and, Bool.not_eq_false']; exact h.allowed hq
  simp only [Ctx.check, h.noDeferred, hp, Bool.false_eq_true, if_false]
  rw [show firstSome ((Ctx.make key f v s).regRange (s.blk (Ctx.make key f v s).bid)) (Ctx.make key f v s).v.slices = none from hr]
  exact h.noTimer

theorem issue_noVisit {eff : Ctx → State → Except Trap State} (h : s.visit = none) : issue key f eff s = .fault .noVisit := by
  simp [issue, h]

theorem issue_next {eff : Ctx → State → Except Trap State} {s2 : State} (h : Issues key f v s)
    (he : eff (Ctx.make key f v s) (s.opened key f v) = .ok s2) : issue key f eff s = .next (s.closed key f v s2) := by
  simp only [State.opened] at he
  simp only [issue, h.visit, h.check, he]
  rfl

theorem issue_stop {eff : Ctx → State → Except Trap State} (hv : s.visit = some v)
    (hc : (Ctx.make key f v s).check s (s.opened key f v) = some t) : issue key f eff s = .next (s.stopped key f v t) := by
  simp only [State.opened] at hc
  simp only [issue, hv, hc]
  rfl

theorem issue_fail {eff : Ctx → State → Except Trap State} (h : Issues key f v s)
    (he : eff (Ctx.make key f v s) (s.opened key f v) = .error t) : issue key f eff s = .next (s.stopped key f v t) := by
  simp only [State.opened] at he
  simp only [issue, h.visit, h.check, he]
  rfl

theorem issueAll_next {eff : Ctx → State → State} (h : Issues key f v s) :
    issueAll key f eff s = .next (s.closed key f v (eff (Ctx.make key f v s) (s.opened key f v))) := issue_next h rfl

theorem issueTry_next {bad : Ctx → State → Option Trap} {eff : Ctx → State → State} (h : Issues key f v s)
    (hb : bad (Ctx.make key f v s) (s.opened key f v) = none) :
    issueTry key f bad eff s = .next (s.closed key f v (eff (Ctx.make key f v s) (s.opened key f v))) := by
  simp only [issueTry]
  exact issue_next h (by simp only [hb])

theorem issueTry_fail {bad : Ctx → State → Option Trap} {eff : Ctx → State → State} (h : Issues key f v s)
    (hb : bad (Ctx.make key f v s) (s.opened key f v) = some t) : issueTry key f bad eff s = .next (s.stopped key f v t) := by
  simp only [issueTry]
  exact issue_fail h (by simp only [hb])

theorem regOp_next {f : FormR} {g : Ctx → State → Nat → Nat → List W32} (h : Issues key (.r f) v s) :
    regOp key f g s = .next (s.written key (.r f) v g) := issueAll_next h

theorem issueVia_next {α : Type} {chk : Ctx → State → State → State × Except (Option Trap) α} {eff : Ctx → State → α → State} {s2 : State} {a : α}
    (h : Issues key f v s) (hc : chk (Ctx.make key f v s) (s.opened key f v) (s.opened key f v) = (s2, .ok a)) :
    issueVia key f chk eff s = .next (s.closed key f v (eff (Ctx.make key f v s) s2 a)) := by
  simp only [State.opened] at hc
  simp only [issueVia, h.visit, h.check, hc]
  rfl

theorem issueVia_stop {α : Type} {chk : Ctx → State → State → State × Except (Option Trap) α} {eff : Ctx → State → α → State} (hv : s.visit = some v)
    (hc : (Ctx.make key f v s).check s (s.opened key f v) = some t) : issueVia key f chk eff s = .next (s.stopped key f v t) := by
  simp only [State.opened] at hc
  simp only [issueVia, hv, hc]
  rfl

theorem issueVia_fail {α : Type} {chk : Ctx → State → State → State × Except (Option Trap) α} {eff : Ctx → State → α → State} {s2 : State}
    (h : Issues key f v s) (hc : chk (Ctx.make key f v s) (s.opened key f v) (s.opened key f v) = (s2, .error (some t))) :
    issueVia key f chk eff s = .next ((Ctx.make key f v s).trapped (chk (Ctx.make key f v s) (s.opened key f v) s).1 t) := by
  simp only [State.opened] at hc ⊢
  simp only [issueVia, h.visit, h.check, hc]

/-- An access that waits for the retirement of a key makes the turn empty (R396; log entry 53). -/
theorem issueVia_wait {α : Type} {chk : Ctx → State → State → State × Except (Option Trap) α} {eff : Ctx → State → α → State} {s2 : State}
    (h : Issues key f v s) (hc : chk (Ctx.make key f v s) (s.opened key f v) (s.opened key f v) = (s2, .error Option.none)) :
    issueVia key f chk eff s = .next (s.emptyTurn v (fun _ => false)) := by
  simp only [State.opened] at hc
  simp only [issueVia, h.visit, h.check, hc]

/-- An issue goes on wherever a visit is in progress. -/
theorem issue_cases (eff : Ctx → State → Except Trap State) (hv : s.visit = some v) :
    (∃ t, issue key f eff s = .next (s.stopped key f v t)) ∨
    ∃ s2, eff (Ctx.make key f v s) (s.opened key f v) = .ok s2 ∧ issue key f eff s = .next (s.closed key f v s2) := by
  simp only [issue, hv, State.opened]
  cases (Ctx.make key f v s).check s ((Ctx.make key f v s).begin s) with
  | some t => exact .inl ⟨t, rfl⟩
  | none =>
    cases he : eff (Ctx.make key f v s) ((Ctx.make key f v s).begin s) with
    | error t => exact .inl ⟨t, rfl⟩
    | ok s2 => exact .inr ⟨s2, rfl, rfl⟩

end Sys2Proof.Machine
end

