-- ==== Sys2Proof/Laws/Map.lean ====
section
/-! SUPPORT. The sparse maps of Machine/Map.lean: every operation keeps the canonical form, a read after a write, and equal readings of
canonical maps are equal data. -/

namespace Sys2Proof.Machine

@[simp] theorem mget_nil {α : Type} (d : α) (a : Nat) : mget d ([] : List (Nat × α)) a = d := rfl

variable {α : Type} [DecidableEq α] {d : α}

theorem mwfFrom_cons {lo k : Nat} {v : α} {m : List (Nat × α)} :
    mwfFrom d lo ((k, v) :: m) = true ↔ lo ≤ k ∧ v ≠ d ∧ mwfFrom d (k + 1) m = true := by
  simp [mwfFrom, and_assoc]

theorem mwfFrom_mono {m : List (Nat × α)} {lo lo' : Nat} (h : lo' ≤ lo) (w : mwfFrom d lo m = true) : mwfFrom d lo' m = true := by
  cases m with
  | nil => rfl
  | cons e m => exact mwfFrom_cons.2 ⟨Nat.le_trans h (mwfFrom_cons.1 w).1, (mwfFrom_cons.1 w).2⟩

/-- Below its first key a canonical map reads as the default. -/
theorem mget_below {m : List (Nat × α)} {lo a : Nat} (w : mwfFrom d lo m = true) (h : a < lo) : mget d m a = d := by
  cases m with
  | nil => rfl
  | cons e m =>
    have hk := (mwfFrom_cons.1 w).1
    simp only [mget]
    rw [if_neg (by omega), if_pos (by omega)]

theorem mput_wfFrom {m : List (Nat × α)} {lo a : Nat} {x : α} (h : lo ≤ a) (w : mwfFrom d lo m = true) :
    mwfFrom d lo (mput d m a x) = true := by
  induction m generalizing lo with
  | nil => by_cases hx : x = d <;> simp [mput, hx, mwfFrom, h]
  | cons e m ih =>
    obtain ⟨k, v⟩ := e
    obtain ⟨hk, hv, hm⟩ := mwfFrom_cons.1 w
    simp only [mput]
    split
    · next heq =>
      split
      · exact mwfFrom_mono (by omega) hm
      · next hx => exact mwfFrom_cons.2 ⟨h, hx, heq ▸ hm⟩
    · split
      · split
        · exact w
        · next hx => exact mwfFrom_cons.2 ⟨h, hx, mwfFrom_cons.2 ⟨by omega, hv, hm⟩⟩
      · exact mwfFrom_cons.2 ⟨hk, hv, ih (by omega) hm⟩

/-- A write keeps the canonical form. -/
theorem mput_wf {m : List (Nat × α)} (a : Nat) (x : α) (w : mwf d m = true) : mwf d (mput d m a x) = true :=
  mput_wfFrom (Nat.zero_le a) w

theorem mputs_wf {m : List (Nat × α)} (a : Nat) (l : List α) (w : mwf d m = true) : mwf d (mputs d m a l) = true := by
  induction l generalizing m a with
  | nil => exact w
  | cons x l ih => exact ih (a + 1) (mput_wf a x w)

theorem mdrop_wfFrom {m : List (Nat × α)} {lo : Nat} (p : Nat → Bool) (w : mwfFrom d lo m = true) : mwfFrom d lo (mdrop p m) = true := by
  induction m generalizing lo with
  | nil => rfl
  | cons e m ih =>
    obtain ⟨k, v⟩ := e
    obtain ⟨hk, hv, hm⟩ := mwfFrom_cons.1 w
    simp only [mdrop, List.filter_cons]
    split
    · exact mwfFrom_cons.2 ⟨hk, hv, ih hm⟩
    · exact mwfFrom_mono (by omega) (ih hm)

/-- Removing entries keeps the canonical form. -/
theorem mdrop_wf {m : List (Nat × α)} (p : Nat → Bool) (w : mwf d m = true) : mwf d (mdrop p m) = true := mdrop_wfFrom p w

theorem mofList_wfFrom (a : Nat) (l : List α) : mwfFrom d a (mofList d a l) = true := by
  induction l generalizing a with
  | nil => rfl
  | cons x l ih =>
    simp only [mofList]
    split
    · exact mwfFrom_mono (Nat.le_succ a) (ih (a + 1))
    · next hx => exact mwfFrom_cons.2 ⟨Nat.le_refl a, hx, ih (a + 1)⟩

/-- A read after a write to the same key gives the value written. -/
theorem mget_mput_same {m : List (Nat × α)} (a : Nat) (x : α) (w : mwf d m = true) : mget d (mput d m a x) a = x := by
  suffices h : ∀ {lo : Nat}, mwfFrom d lo m = true → mget d (mput d m a x) a = x from h w
  clear w
  intro lo w
  induction m generalizing lo with
  | nil => by_cases hx : x = d <;> simp [mput, hx, mget]
  | cons e m ih =>
    obtain ⟨k, v⟩ := e
    obtain ⟨hk, hv, hm⟩ := mwfFrom_cons.1 w
    simp only [mput]
    split
    · next heq =>
      split
      · next hx => rw [mget_below hm (by omega), hx]
      · simp [mget]
    · split
      · split
        · next hx => simp only [mget]; rw [if_neg (by omega), if_pos (by omega), hx]
        · simp [mget]
      · simp only [mget]
        rw [if_neg (by omega), if_neg (by omega)]
        exact ih hm

/-- A write leaves every other key alone. -/
theorem mget_mput_other {m : List (Nat × α)} {a b : Nat} (x : α) (hab : b ≠ a) (w : mwf d m = true) : mget d (mput d m a x) b = mget d m b := by
  suffices h : ∀ {lo : Nat}, mwfFrom d lo m = true → mget d (mput d m a x) b = mget d m b from h w
  clear w
  intro lo w
  induction m generalizing lo with
  | nil => by_cases hx : x = d <;> simp [mput, hx, mget, hab]
  | cons e m ih =>
    obtain ⟨k, v⟩ := e
    obtain ⟨hk, hv, hm⟩ := mwfFrom_cons.1 w
    simp only [mput]
    split
    · next heq =>
      subst heq
      split
      · simp only [mget]
        rw [if_neg hab]
        split
        · next hlt => exact mget_below hm (by omega)
        · rfl
      · simp only [mget]; rw [if_neg hab, if_neg hab]
    · split
      · split
        · rfl
        · simp only [mget]
          rw [if_neg hab]
          split
          · next h1 => rw [if_neg (by omega), if_pos (by omega)]
          · rfl
      · simp only [mget]
        split
        · rfl
        · split
          · rfl
          · exact ih hm

/-- The reading of a map after a write. -/
theorem mget_mput {m : List (Nat × α)} (a b : Nat) (x : α) (w : mwf d m = true) :
    mget d (mput d m a x) b = if b = a then x else mget d m b := by
  split
  · next h => rw [h, mget_mput_same a x w]
  · next h => exact mget_mput_other x h w

/-- The reading of a map after consecutive writes. -/
theorem mget_mputs {m : List (Nat × α)} (a b : Nat) (l : List α) (w : mwf d m = true) :
    mget d (mputs d m a l) b = if a ≤ b ∧ b < a + l.length then (l[b - a]?).getD d else mget d m b := by
  induction l generalizing m a with
  | nil => rw [if_neg (by simp only [List.length_nil]; omega)]; rfl
  | cons x l ih =>
    simp only [mputs]
    rw [ih (a + 1) (mput_wf a x w), mget_mput a b x w]
    by_cases h1 : b = a
    · subst h1
      rw [if_neg (by omega), if_pos rfl, if_pos ⟨Nat.le_refl b, by simp only [List.length_cons]; omega⟩, Nat.sub_self]
      rfl
    · by_cases h2 : a + 1 ≤ b ∧ b < a + 1 + l.length
      · rw [if_pos h2, if_pos ⟨by omega, by simp only [List.length_cons]; omega⟩]
        obtain ⟨c, rfl⟩ : ∃ c, b = a + 1 + c := ⟨b - (a + 1), by omega⟩
        rw [show a + 1 + c - a = c + 1 by omega, List.getElem?_cons_succ, show a + 1 + c - (a + 1) = c by omega]
      · rw [if_neg h2, if_neg h1, if_neg (by simp only [List.length_cons]; omega)]

/-- Canonical maps that read alike are equal data. -/
theorem mget_ext {m n : List (Nat × α)} (wm : mwf d m = true) (wn : mwf d n = true) (h : ∀ a, mget d m a = mget d n a) : m = n := by
  suffices g : ∀ {lo : Nat}, mwfFrom d lo m = true → mwfFrom d lo n = true → m = n from g wm wn
  clear wm wn
  induction m generalizing n with
  | nil =>
    intro lo _ wn
    cases n with
    | nil => rfl
    | cons e n =>
      obtain ⟨-, hv, -⟩ := mwfFrom_cons.1 wn
      exact absurd (by simpa [mget] using (h e.1).symm) hv
  | cons e m ih =>
    intro lo wm wn
    obtain ⟨k, v⟩ := e
    obtain ⟨hk, hv, hm⟩ := mwfFrom_cons.1 wm
    cases n with
    | nil => exact absurd (by simpa [mget] using h k) hv
    | cons e n =>
      obtain ⟨k', v'⟩ := e
      obtain ⟨hk', hv', hn⟩ := mwfFrom_cons.1 wn
      have hkk : k = k' := by
        rcases Nat.lt_trichotomy k k' with hl | he | hl
        · have := h k
          simp only [mget, if_true, if_neg (show ¬ k = k' by omega), if_pos hl] at this
          exact absurd this hv
        · exact he
        · have := h k'
          simp only [mget, if_true, if_neg (show ¬ k' = k by omega), if_pos hl] at this
          exact absurd this.symm hv'
      subst hkk
      have hvv : v = v' := by simpa [mget] using h k
      subst hvv
      congr 1
      refine ih (fun a => ?_) hm hn
      by_cases ha : a < k + 1
      · rw [mget_below hm ha, mget_below hn ha]
      · have := h a
        simp only [mget, if_neg (show ¬ a = k by omega), if_neg (show ¬ a < k by omega)] at this
        exact this

end Sys2Proof.Machine
end

