-- ==== Sys2Proof/Laws/Memory.lean ====
section
/-! SUPPORT. The operations over memory and the bench keep the canonical form of Machine/Map.lean, and reset has it. -/

namespace Sys2Proof.Laws

open Sys2Proof Sys2Proof.Machine

/-- A line written to memory keeps memory's canonical form. -/
theorem setMemLine_wf {s : State} (line kid : Nat) (d : LineData) (pois : Pois) (h : Memory.wf s.mem = true) :
    Memory.wf (s.setMemLine line kid d pois).mem = true := by
  simp only [State.setMemLine, Memory.wf] at h ⊢
  exact mputs_wf _ _ h

/-- A line written to memory keeps the canonical form of the keys that memory's units stand under. -/
theorem setMemLine_memKey_wf {s : State} (line kid : Nat) (d : LineData) (pois : Pois) (h : mwf 0 s.memKey = true) :
    mwf 0 (s.setMemLine line kid d pois).memKey = true := by
  simp only [State.setMemLine]
  exact mput_wf _ _ (mput_wf _ _ h)

/-- A bench write keeps the bench's canonical form. -/
theorem benchWrite_wf {b : Block} (a : Nat) (l : List Byte) (h : mwf 0 b.bench = true) : mwf 0 (b.benchWrite a l).bench = true := mputs_wf _ _ h

/-- Memory stands in canonical form at reset, and so do the keys of its units. -/
theorem reset_mem_wf : Memory.wf State.reset.mem = true ∧ mwf 0 State.reset.memKey = true := ⟨rfl, rfl⟩

end Sys2Proof.Laws
end

