-- ==== Sys2Proof/Laws/PerInstr.lean ====
section
/-! SUPPORT. One lemma per constructor: the key and the fields that `Instr.fields` reads from an instruction of the opcode map name a row of the
map of the same form, and make the instruction again (R46, R67). -/

namespace Sys2Proof.Laws.Keyed

/-- The form of the fields. -/
def isL : Fields → Bool
  | .r _ => false
  | .l _ => true

/-- An instruction that has a word names a row of the opcode map of its form by its key, and its key and fields make it again. -/
def Statement (i : Instr) : Prop :=
  ∀ key f, i.fields = some (key, f) →
    (Machine.opRow? key).any (fun row => row.formL == isL f) = true ∧ Machine.mkInstr key f = some i

theorem of_fields {i : Instr} {key : Nat} {f : Fields} (hf : i.fields = some (key, f))
    (hr : (Machine.opRow? key).any (fun row => row.formL == isL f) = true)
    (hm : Machine.mkInstr key f = some i) : Statement i := by
  intro key' f' h
  rw [hf] at h
  cases h
  exact ⟨hr, hm⟩

theorem of_none {i : Instr} (hf : i.fields = none) : Statement i := by
  intro key f h
  rw [hf] at h
  cases h

theorem nop (f : FormR) : Statement (.nop f) := of_fields rfl rfl rfl
theorem bra (f : FormL) : Statement (.bra f) := of_fields rfl rfl rfl
theorem brx (f : FormR) : Statement (.brx f) := of_fields rfl rfl rfl
theorem call (f : FormL) : Statement (.call f) := of_fields rfl rfl rfl
theorem callx (f : FormR) : Statement (.callx f) := of_fields rfl rfl rfl
theorem ret (f : FormR) : Statement (.ret f) := of_fields rfl rfl rfl
theorem exit (f : FormR) : Statement (.exit f) := of_fields rfl rfl rfl
theorem pushj (f : FormL) : Statement (.pushj f) := of_fields rfl rfl rfl
theorem join (f : FormR) : Statement (.join f) := of_fields rfl rfl rfl
theorem regang (f : FormL) : Statement (.regang f) := of_fields rfl rfl rfl
theorem part (f : FormR) : Statement (.part f) := of_fields rfl rfl rfl
theorem refill (f : FormR) : Statement (.refill f) := of_fields rfl rfl rfl
theorem refillPush (f : FormR) : Statement (.refillPush f) := of_fields rfl rfl rfl
theorem tlaunch (f : FormR) : Statement (.tlaunch f) := of_fields rfl rfl rfl
theorem yield (f : FormR) : Statement (.yield f) := of_fields rfl rfl rfl
theorem trap (f : FormR) : Statement (.trap f) := of_fields rfl rfl rfl
theorem brk (f : FormR) : Statement (.brk f) := of_fields rfl rfl rfl
theorem rdsr (f : FormR) : Statement (.rdsr f) := of_fields rfl rfl rfl
theorem wrsr (f : FormR) : Statement (.wrsr f) := of_fields rfl rfl rfl
theorem ifence (f : FormR) : Statement (.ifence f) := of_fields rfl rfl rfl
theorem iadd (f : FormR) : Statement (.iadd f) := of_fields rfl rfl rfl
theorem isub (f : FormR) : Statement (.isub f) := of_fields rfl rfl rfl
theorem imul (f : FormR) : Statement (.imul f) := of_fields rfl rfl rfl
theorem imulh (f : FormR) : Statement (.imulh f) := of_fields rfl rfl rfl
theorem imad (f : FormR) : Statement (.imad f) := of_fields rfl rfl rfl
theorem imadw (f : FormR) : Statement (.imadw f) := of_fields rfl rfl rfl
theorem idiv (f : FormR) : Statement (.idiv f) := of_fields rfl rfl rfl
theorem irem (f : FormR) : Statement (.irem f) := of_fields rfl rfl rfl
theorem imin (f : FormR) : Statement (.imin f) := of_fields rfl rfl rfl
theorem imax (f : FormR) : Statement (.imax f) := of_fields rfl rfl rfl
theorem iabs (f : FormR) : Statement (.iabs f) := of_fields rfl rfl rfl
theorem ineg (f : FormR) : Statement (.ineg f) := of_fields rfl rfl rfl
theorem iaddc (f : FormR) : Statement (.iaddc f) := of_fields rfl rfl rfl
theorem isubb (f : FormR) : Statement (.isubb f) := of_fields rfl rfl rfl
theorem shl (f : FormR) : Statement (.shl f) := of_fields rfl rfl rfl
theorem shr (f : FormR) : Statement (.shr f) := of_fields rfl rfl rfl
theorem sar (f : FormR) : Statement (.sar f) := of_fields rfl rfl rfl
theorem rot (f : FormR) : Statement (.rot f) := of_fields rfl rfl rfl
theorem andW (f : FormR) : Statement (.andW f) := of_fields rfl rfl rfl
theorem orW (f : FormR) : Statement (.orW f) := of_fields rfl rfl rfl
theorem xorW (f : FormR) : Statement (.xorW f) := of_fields rfl rfl rfl
theorem andn (f : FormR) : Statement (.andn f) := of_fields rfl rfl rfl
theorem notW (f : FormR) : Statement (.notW f) := of_fields rfl rfl rfl
theorem bfe (f : FormR) : Statement (.bfe f) := of_fields rfl rfl rfl
theorem bfi (f : FormR) : Statement (.bfi f) := of_fields rfl rfl rfl
theorem popc (f : FormR) : Statement (.popc f) := of_fields rfl rfl rfl
theorem clz (f : FormR) : Statement (.clz f) := of_fields rfl rfl rfl
theorem ctz (f : FormR) : Statement (.ctz f) := of_fields rfl rfl rfl
theorem brev (f : FormR) : Statement (.brev f) := of_fields rfl rfl rfl
theorem lea (f : FormR) : Statement (.lea f) := of_fields rfl rfl rfl
theorem lea64 (f : FormR) : Statement (.lea64 f) := of_fields rfl rfl rfl
theorem mov (f : FormR) : Statement (.mov f) := of_fields rfl rfl rfl
theorem movi (f : FormL) : Statement (.movi f) := of_fields rfl rfl rfl
theorem movh (f : FormL) : Statement (.movh f) := of_fields rfl rfl rfl
theorem sel (f : FormR) : Statement (.sel f) := of_fields rfl rfl rfl
theorem itst (f : FormR) : Statement (.itst f) := of_fields rfl rfl rfl
theorem icmp (f : FormR) : Statement (.icmp f) := of_fields rfl rfl rfl
theorem iadd64 (f : FormR) : Statement (.iadd64 f) := of_fields rfl rfl rfl
theorem isub64 (f : FormR) : Statement (.isub64 f) := of_fields rfl rfl rfl
theorem imul64 (f : FormR) : Statement (.imul64 f) := of_fields rfl rfl rfl
theorem shl64 (f : FormR) : Statement (.shl64 f) := of_fields rfl rfl rfl
theorem shr64 (f : FormR) : Statement (.shr64 f) := of_fields rfl rfl rfl
theorem fadd (f : FormR) : Statement (.fadd f) := of_fields rfl rfl rfl
theorem fsub (f : FormR) : Statement (.fsub f) := of_fields rfl rfl rfl
theorem fmul (f : FormR) : Statement (.fmul f) := of_fields rfl rfl rfl
theorem ffma (f : FormR) : Statement (.ffma f) := of_fields rfl rfl rfl
theorem fmin (f : FormR) : Statement (.fmin f) := of_fields rfl rfl rfl
theorem fmax (f : FormR) : Statement (.fmax f) := of_fields rfl rfl rfl
theorem ftst (f : FormR) : Statement (.ftst f) := of_fields rfl rfl rfl
theorem fcmp (f : FormR) : Statement (.fcmp f) := of_fields rfl rfl rfl
theorem frnd (f : FormR) : Statement (.frnd f) := of_fields rfl rfl rfl
theorem fdiv (f : FormR) : Statement (.fdiv f) := of_fields rfl rfl rfl
theorem fsqrt (f : FormR) : Statement (.fsqrt f) := of_fields rfl rfl rfl
theorem frcp (f : FormR) : Statement (.frcp f) := of_fields rfl rfl rfl
theorem frsq (f : FormR) : Statement (.frsq f) := of_fields rfl rfl rfl
theorem fex2 (f : FormR) : Statement (.fex2 f) := of_fields rfl rfl rfl
theorem flg2 (f : FormR) : Statement (.flg2 f) := of_fields rfl rfl rfl
theorem fsin (f : FormR) : Statement (.fsin f) := of_fields rfl rfl rfl
theorem fcos (f : FormR) : Statement (.fcos f) := of_fields rfl rfl rfl
theorem ftanh (f : FormR) : Statement (.ftanh f) := of_fields rfl rfl rfl
theorem hadd2 (f : FormR) : Statement (.hadd2 f) := of_fields rfl rfl rfl
theorem hmul2 (f : FormR) : Statement (.hmul2 f) := of_fields rfl rfl rfl
theorem hfma2 (f : FormR) : Statement (.hfma2 f) := of_fields rfl rfl rfl
theorem badd2 (f : FormR) : Statement (.badd2 f) := of_fields rfl rfl rfl
theorem bmul2 (f : FormR) : Statement (.bmul2 f) := of_fields rfl rfl rfl
theorem bfma2 (f : FormR) : Statement (.bfma2 f) := of_fields rfl rfl rfl
theorem cvt (f : FormR) : Statement (.cvt f) := of_fields rfl rfl rfl
theorem cvts (f : FormR) : Statement (.cvts f) := of_fields rfl rfl rfl
theorem f2i (f : FormR) : Statement (.f2i f) := of_fields rfl rfl rfl
theorem i2f (f : FormR) : Statement (.i2f f) := of_fields rfl rfl rfl
theorem qnt (f : FormR) : Statement (.qnt f) := of_fields rfl rfl rfl
theorem dqnt (f : FormR) : Statement (.dqnt f) := of_fields rfl rfl rfl
theorem fcls (f : FormR) : Statement (.fcls f) := of_fields rfl rfl rfl
theorem vadd (f : FormR) : Statement (.vadd f) := of_fields rfl rfl rfl
theorem vsub (f : FormR) : Statement (.vsub f) := of_fields rfl rfl rfl
theorem vmin (f : FormR) : Statement (.vmin f) := of_fields rfl rfl rfl
theorem vmax (f : FormR) : Statement (.vmax f) := of_fields rfl rfl rfl
theorem vabsd (f : FormR) : Statement (.vabsd f) := of_fields rfl rfl rfl
theorem vdot4 (f : FormR) : Statement (.vdot4 f) := of_fields rfl rfl rfl
theorem vdot2 (f : FormR) : Statement (.vdot2 f) := of_fields rfl rfl rfl
theorem pand (f : FormR) : Statement (.pand f) := of_fields rfl rfl rfl
theorem por (f : FormR) : Statement (.por f) := of_fields rfl rfl rfl
theorem pxor (f : FormR) : Statement (.pxor f) := of_fields rfl rfl rfl
theorem pnot (f : FormR) : Statement (.pnot f) := of_fields rfl rfl rfl
theorem pmov (f : FormR) : Statement (.pmov f) := of_fields rfl rfl rfl
theorem p2v (f : FormR) : Statement (.p2v f) := of_fields rfl rfl rfl
theorem v2p (f : FormR) : Statement (.v2p f) := of_fields rfl rfl rfl
theorem shfl (f : FormR) : Statement (.shfl f) := of_fields rfl rfl rfl
theorem bcast (f : FormR) : Statement (.bcast f) := of_fields rfl rfl rfl
theorem vote (f : FormR) : Statement (.vote f) := of_fields rfl rfl rfl
theorem matchLanes (f : FormR) : Statement (.matchLanes f) := of_fields rfl rfl rfl
theorem rank (f : FormR) : Statement (.rank f) := of_fields rfl rfl rfl
theorem prfx (f : FormR) : Statement (.prfx f) := of_fields rfl rfl rfl
theorem redg (f : FormR) : Statement (.redg f) := of_fields rfl rfl rfl
theorem rngk (f : FormR) : Statement (.rngk f) := of_fields rfl rfl rfl
theorem hshk (f : FormR) : Statement (.hshk f) := of_fields rfl rfl rfl
theorem ld (f : FormR) : Statement (.ld f) := of_fields rfl rfl rfl
theorem st (f : FormR) : Statement (.st f) := of_fields rfl rfl rfl
theorem ldv (f : FormR) : Statement (.ldv f) := of_fields rfl rfl rfl
theorem stv (f : FormR) : Statement (.stv f) := of_fields rfl rfl rfl
theorem ldb (f : FormR) : Statement (.ldb f) := of_fields rfl rfl rfl
theorem stb (f : FormR) : Statement (.stb f) := of_fields rfl rfl rfl
theorem ldbv (f : FormR) : Statement (.ldbv f) := of_fields rfl rfl rfl
theorem stbv (f : FormR) : Statement (.stbv f) := of_fields rfl rfl rfl
theorem atom (f : FormR) : Statement (.atom f) := of_fields rfl rfl rfl
theorem acas (f : FormR) : Statement (.acas f) := of_fields rfl rfl rfl
theorem red (f : FormR) : Statement (.red f) := of_fields rfl rfl rfl
theorem redf (f : FormR) : Statement (.redf f) := of_fields rfl rfl rfl
theorem reddcl (f : FormR) : Statement (.reddcl f) := of_fields rfl rfl rfl
theorem redrd (f : FormR) : Statement (.redrd f) := of_fields rfl rfl rfl
theorem atomb (f : FormR) : Statement (.atomb f) := of_fields rfl rfl rfl
theorem rwb (f : FormR) : Statement (.rwb f) := of_fields rfl rfl rfl
theorem rinv (f : FormR) : Statement (.rinv f) := of_fields rfl rfl rfl
theorem rwbi (f : FormR) : Statement (.rwbi f) := of_fields rfl rfl rfl
theorem fence (f : FormR) : Statement (.fence f) := of_fields rfl rfl rfl
theorem tfence (f : FormR) : Statement (.tfence f) := of_fields rfl rfl rfl
theorem pref (f : FormR) : Statement (.pref f) := of_fields rfl rfl rfl
theorem harvest (f : FormR) : Statement (.harvest f) := of_fields rfl rfl rfl
theorem qdecl (f : FormR) : Statement (.qdecl f) := of_fields rfl rfl rfl
theorem qsign (f : FormR) : Statement (.qsign f) := of_fields rfl rfl rfl
theorem qwait (f : FormR) : Statement (.qwait f) := of_fields rfl rfl rfl
theorem bar (f : FormR) : Statement (.bar f) := of_fields rfl rfl rfl
theorem waitf (f : FormR) : Statement (.waitf f) := of_fields rfl rfl rfl
theorem waitt (f : FormR) : Statement (.waitt f) := of_fields rfl rfl rfl
theorem waitta (f : FormR) : Statement (.waitta f) := of_fields rfl rfl rfl
theorem tagff (f : FormR) : Statement (.tagff f) := of_fields rfl rfl rfl
theorem tagclr (f : FormR) : Statement (.tagclr f) := of_fields rfl rfl rfl
theorem cbexp (f : FormR) : Statement (.cbexp f) := of_fields rfl rfl rfl
theorem cbwait (f : FormR) : Statement (.cbwait f) := of_fields rfl rfl rfl
theorem cbrd (f : FormR) : Statement (.cbrd f) := of_fields rfl rfl rfl
theorem claim (f : FormR) : Statement (.claim f) := of_fields rfl rfl rfl
theorem give (f : FormR) : Statement (.give f) := of_fields rfl rfl rfl
theorem poolq (f : FormR) : Statement (.poolq f) := of_fields rfl rfl rfl
theorem lalloc (f : FormR) : Statement (.lalloc f) := of_fields rfl rfl rfl
theorem lfree (f : FormR) : Statement (.lfree f) := of_fields rfl rfl rfl
theorem lzero (f : FormR) : Statement (.lzero f) := of_fields rfl rfl rfl
theorem lldc (f : FormR) : Statement (.lldc f) := of_fields rfl rfl rfl
theorem lopf (f : FormR) : Statement (.lopf f) := of_fields rfl rfl rfl
theorem lmma (f : FormR) : Statement (.lmma f) := of_fields rfl rfl rfl
theorem lmms (f : FormR) : Statement (.lmms f) := of_fields rfl rfl rfl
theorem lmmg (f : FormR) : Statement (.lmmg f) := of_fields rfl rfl rfl
theorem ldrn (f : FormR) : Statement (.ldrn f) := of_fields rfl rfl rfl
theorem ldrx (f : FormR) : Statement (.ldrx f) := of_fields rfl rfl rfl
theorem mxv (f : FormR) : Statement (.mxv f) := of_fields rfl rfl rfl
theorem mxvp (f : FormR) : Statement (.mxvp f) := of_fields rfl rfl rfl
theorem dcpy (f : FormR) : Statement (.dcpy f) := of_fields rfl rfl rfl
theorem dgth (f : FormR) : Statement (.dgth f) := of_fields rfl rfl rfl
theorem dsct (f : FormR) : Statement (.dsct f) := of_fields rfl rfl rfl
theorem dsca (f : FormR) : Statement (.dsca f) := of_fields rfl rfl rfl
theorem dcsr (f : FormR) : Statement (.dcsr f) := of_fields rfl rfl rfl
theorem dfil (f : FormR) : Statement (.dfil f) := of_fields rfl rfl rfl
theorem svpt (f : FormR) : Statement (.svpt f) := of_fields rfl rfl rfl
theorem svvox (f : FormR) : Statement (.svvox f) := of_fields rfl rfl rfl
theorem svqry (f : FormR) : Statement (.svqry f) := of_fields rfl rfl rfl
theorem svnbr (f : FormR) : Statement (.svnbr f) := of_fields rfl rfl rfl
theorem svdwn (f : FormR) : Statement (.svdwn f) := of_fields rfl rfl rfl
theorem svmap (f : FormR) : Statement (.svmap f) := of_fields rfl rfl rfl
theorem svfree (f : FormR) : Statement (.svfree f) := of_fields rfl rfl rfl
theorem svclr (f : FormR) : Statement (.svclr f) := of_fields rfl rfl rfl
theorem atstrm (f : FormR) : Statement (.atstrm f) := of_fields rfl rfl rfl
theorem atsub (f : FormR) : Statement (.atsub f) := of_fields rfl rfl rfl
theorem atnext (f : FormR) : Statement (.atnext f) := of_fields rfl rfl rfl
theorem atpost (f : FormR) : Statement (.atpost f) := of_fields rfl rfl rfl
theorem atdone (f : FormR) : Statement (.atdone f) := of_fields rfl rfl rfl
theorem atmrg (f : FormR) : Statement (.atmrg f) := of_fields rfl rfl rfl
theorem atuns (f : FormR) : Statement (.atuns f) := of_fields rfl rfl rfl
theorem slotVisit (core : Nat) (sec : Nat) : Statement (.slotVisit core sec) := of_none rfl
theorem rotationEnd (core : Nat) (sec : Nat) : Statement (.rotationEnd core sec) := of_none rfl
theorem regDeadlockDetect (bid : Nat) : Statement (.regDeadlockDetect bid) := of_none rfl
theorem memoryOpComplete (bid : Nat) (slice : Nat) (op : Nat) : Statement (.memoryOpComplete bid slice op) := of_none rfl
theorem promotionRequest (core : Nat) : Statement (.promotionRequest core) := of_none rfl
theorem l1Eviction (core : Nat) (line : Nat) : Statement (.l1Eviction core line) := of_none rfl
theorem l1ParityError (core : Nat) (line : Nat) (byte : Nat) : Statement (.l1ParityError core line byte) := of_none rfl
theorem l2WriteReceive (n : Nat) : Statement (.l2WriteReceive n) := of_none rfl
theorem l2Eviction (l2 : Nat) (line : Nat) (kid : Nat) : Statement (.l2Eviction l2 line kid) := of_none rfl
theorem memoryEccError (unit : Nat) (symbols : Nat) : Statement (.memoryEccError unit symbols) := of_none rfl
theorem directoryRequest (n : Nat) : Statement (.directoryRequest n) := of_none rfl
theorem recallInvalidationReceive (n : Nat) : Statement (.recallInvalidationReceive n) := of_none rfl
theorem directoryAckReceive (n : Nat) : Statement (.directoryAckReceive n) := of_none rfl
theorem directoryQuietTick : Statement .directoryQuietTick := of_none rfl
theorem directoryEntryError (entry : Nat) (bits : Nat) (trusted : Bool) : Statement (.directoryEntryError entry bits trusted) := of_none rfl
theorem flitRetry (n : Nat) (fails : Nat) : Statement (.flitRetry n fails) := of_none rfl
theorem atomicPerform (n : Nat) : Statement (.atomicPerform n) := of_none rfl
theorem reductionAddendFold (n : Nat) : Statement (.reductionAddendFold n) := of_none rfl
theorem partialIdleTimeout (l2 : Nat) (line : Nat) (kid : Nat) : Statement (.partialIdleTimeout l2 line kid) := of_none rfl
theorem partialFold (n : Nat) : Statement (.partialFold n) := of_none rfl
theorem loomAccept (core : Nat) : Statement (.loomAccept core) := of_none rfl
theorem metadataGrant (core : Nat) : Statement (.metadataGrant core) := of_none rfl
theorem loomOperationComplete (core : Nat) : Statement (.loomOperationComplete core) := of_none rfl
theorem drainStoreComplete (core : Nat) : Statement (.drainStoreComplete core) := of_none rfl
theorem mxvSegmentComplete (id : Nat) : Statement (.mxvSegmentComplete id) := of_none rfl
theorem millBlockForward (id : Nat) (row : Nat) (blk : Nat) : Statement (.millBlockForward id row blk) := of_none rfl
theorem drayCommandStart (core : Nat) : Statement (.drayCommandStart core) := of_none rfl
theorem drayChunkComplete (core : Nat) (id : Nat) : Statement (.drayChunkComplete core id) := of_none rfl
theorem engineCommandComplete (id : Nat) : Statement (.engineCommandComplete id) := of_none rfl
theorem surveyorCommandStart (unit : Nat) : Statement (.surveyorCommandStart unit) := of_none rfl
theorem surveyorBatchComplete (unit : Nat) : Statement (.surveyorBatchComplete unit) := of_none rfl
theorem subscriptionAccept (unit : Nat) (n : Nat) : Statement (.subscriptionAccept unit n) := of_none rfl
theorem crierPageFetch (unit : Nat) : Statement (.crierPageFetch unit) := of_none rfl
theorem pageDelivery (unit : Nat) (n : Nat) : Statement (.pageDelivery unit n) := of_none rfl
theorem mergeFold (unit : Nat) (n : Nat) : Statement (.mergeFold unit n) := of_none rfl
theorem pageWalk (bid : Nat) (page : Nat) : Statement (.pageWalk bid page) := of_none rfl
theorem queueEntryAccept (queue : Nat) : Statement (.queueEntryAccept queue) := of_none rfl
theorem coreGrantDecision : Statement .coreGrantDecision := of_none rfl
theorem detGridStart (queue : Nat) : Statement (.detGridStart queue) := of_none rfl
theorem blockAdmission (part : Nat) : Statement (.blockAdmission part) := of_none rfl
theorem blockRetire (bid : Nat) : Statement (.blockRetire bid) := of_none rfl
theorem gridRetire (gid : Nat) : Statement (.gridRetire gid) := of_none rfl
theorem blockStop (bid : Nat) : Statement (.blockStop bid) := of_none rfl
theorem blockSave (bid : Nat) : Statement (.blockSave bid) := of_none rfl
theorem trapRecordWrite (n : Nat) : Statement (.trapRecordWrite n) := of_none rfl
theorem blockRestore (bid : Nat) (core : Nat) : Statement (.blockRestore bid core) := of_none rfl
theorem watchdogExpiry (bid : Nat) : Statement (.watchdogExpiry bid) := of_none rfl
theorem queueDoorbell (queue : Nat) (tail : Nat) : Statement (.queueDoorbell queue tail) := of_none rfl
theorem queueRingSetup (queue : Nat) (base : Nat) (size : Nat) : Statement (.queueRingSetup queue base size) := of_none rfl
theorem commandDoorbell (tail : Nat) : Statement (.commandDoorbell tail) := of_none rfl
theorem commandRingSetup (base : Nat) (size : Nat) : Statement (.commandRingSetup base size) := of_none rfl
theorem registerWrite (fn : Nat) (off : Nat) (value : Nat) : Statement (.registerWrite fn off value) := of_none rfl
theorem cmdShootdown : Statement .cmdShootdown := of_none rfl
theorem cmdResume : Statement .cmdResume := of_none rfl
theorem cmdPartition : Statement .cmdPartition := of_none rfl
theorem cmdAttributeTable : Statement .cmdAttributeTable := of_none rfl
theorem cmdLoadKey : Statement .cmdLoadKey := of_none rfl
theorem cmdRetireKey : Statement .cmdRetireKey := of_none rfl
theorem cmdOpenWindow : Statement .cmdOpenWindow := of_none rfl
theorem cmdCloseWindow : Statement .cmdCloseWindow := of_none rfl
theorem cmdResetPartition : Statement .cmdResetPartition := of_none rfl
theorem cmdPreempt : Statement .cmdPreempt := of_none rfl
theorem cmdClearTrapLog : Statement .cmdClearTrapLog := of_none rfl
theorem cmdReserved : Statement .cmdReserved := of_none rfl
theorem vfFunctionLevelReset (vf : Nat) : Statement (.vfFunctionLevelReset vf) := of_none rfl
theorem hostBar2Access (fn : Nat) (off : Nat) (len : Nat) (write : Bool) (data : Nat) : Statement (.hostBar2Access fn off len write data) := of_none rfl
theorem powerOn : Statement .powerOn := of_none rfl
theorem firmwareGo : Statement .firmwareGo := of_none rfl
theorem memoryTraining (found : Training) : Statement (.memoryTraining found) := of_none rfl
theorem attestationGo (part : Nat) : Statement (.attestationGo part) := of_none rfl
theorem stepcapWrite (value : Nat) : Statement (.stepcapWrite value) := of_none rfl
theorem throttleStepDown : Statement .throttleStepDown := of_none rfl
theorem throttleStepUp : Statement .throttleStepUp := of_none rfl
theorem thermalCritical : Statement .thermalCritical := of_none rfl
theorem pwrfailN : Statement .pwrfailN := of_none rfl
theorem peerRequestTimeout (link : Nat) : Statement (.peerRequestTimeout link) := of_none rfl
theorem peerResetSignal (link : Nat) : Statement (.peerResetSignal link) := of_none rfl
theorem peerLinkRetrain (link : Nat) : Statement (.peerLinkRetrain link) := of_none rfl
theorem peerIncomingRequest (pa kid len : Nat) (req : PeerReq) (data : Nat) : Statement (.peerIncomingRequest pa kid len req data) := of_none rfl
theorem idivIremCompletion (bid : Nat) (slice : Nat) (seq : Nat) : Statement (.idivIremCompletion bid slice seq) := of_none rfl
theorem l3Eviction (line : Nat) (kid : Nat) : Statement (.l3Eviction line kid) := of_none rfl
theorem operandBufferLineEntry (core : Nat) : Statement (.operandBufferLineEntry core) := of_none rfl
theorem powerLoss (words : Nat) : Statement (.powerLoss words) := of_none rfl
theorem softError (store : Nat) (index : Nat) (bits : Nat) : Statement (.softError store index bits) := of_none rfl
theorem sensorReading (tempQ8 : Int) (powerQ4 : Nat) : Statement (.sensorReading tempQ8 powerQ4) := of_none rfl

end Sys2Proof.Laws.Keyed
end

