-- ==== Sys2Proof/Laws/State.lean ====
section
/-! SUPPORT. One lemma for each field of State under each named update: the field is not the one that the update changes. Then what the
updated field reads as. -/

namespace Sys2Proof.Machine

variable (s : State)

/-! ## modBlk -/

@[simp] theorem modBlk_cores (bid : Nat) (f : Block → Block) : (s.modBlk bid f).cores = s.cores := rfl
@[simp] theorem modBlk_grids (bid : Nat) (f : Block → Block) : (s.modBlk bid f).grids = s.grids := rfl
@[simp] theorem modBlk_ready (bid : Nat) (f : Block → Block) : (s.modBlk bid f).ready = s.ready := rfl
@[simp] theorem modBlk_parked (bid : Nat) (f : Block → Block) : (s.modBlk bid f).parked = s.parked := rfl
@[simp] theorem modBlk_parts (bid : Nat) (f : Block → Block) : (s.modBlk bid f).parts = s.parts := rfl
@[simp] theorem modBlk_frames (bid : Nat) (f : Block → Block) : (s.modBlk bid f).frames = s.frames := rfl
@[simp] theorem modBlk_wdogLim (bid : Nat) (f : Block → Block) : (s.modBlk bid f).wdogLim = s.wdogLim := rfl
@[simp] theorem modBlk_seqNo (bid : Nat) (f : Block → Block) : (s.modBlk bid f).seqNo = s.seqNo := rfl
@[simp] theorem modBlk_recs (bid : Nat) (f : Block → Block) : (s.modBlk bid f).recs = s.recs := rfl
@[simp] theorem modBlk_mram (bid : Nat) (f : Block → Block) : (s.modBlk bid f).mram = s.mram := rfl
@[simp] theorem modBlk_mem (bid : Nat) (f : Block → Block) : (s.modBlk bid f).mem = s.mem := rfl
@[simp] theorem modBlk_memKey (bid : Nat) (f : Block → Block) : (s.modBlk bid f).memKey = s.memKey := rfl
@[simp] theorem modBlk_poison (bid : Nat) (f : Block → Block) : (s.modBlk bid f).poison = s.poison := rfl
@[simp] theorem modBlk_l3 (bid : Nat) (f : Block → Block) : (s.modBlk bid f).l3 = s.l3 := rfl
@[simp] theorem modBlk_l2 (bid : Nat) (f : Block → Block) : (s.modBlk bid f).l2 = s.l2 := rfl
@[simp] theorem modBlk_wo (bid : Nat) (f : Block → Block) : (s.modBlk bid f).wo = s.wo := rfl
@[simp] theorem modBlk_netw (bid : Nat) (f : Block → Block) : (s.modBlk bid f).netw = s.netw := rfl
@[simp] theorem modBlk_l2w (bid : Nat) (f : Block → Block) : (s.modBlk bid f).l2w = s.l2w := rfl
@[simp] theorem modBlk_dir (bid : Nat) (f : Block → Block) : (s.modBlk bid f).dir = s.dir := rfl
@[simp] theorem modBlk_dirQ (bid : Nat) (f : Block → Block) : (s.modBlk bid f).dirQ = s.dirQ := rfl
@[simp] theorem modBlk_recQ (bid : Nat) (f : Block → Block) : (s.modBlk bid f).recQ = s.recQ := rfl
@[simp] theorem modBlk_ackQ (bid : Nat) (f : Block → Block) : (s.modBlk bid f).ackQ = s.ackQ := rfl
@[simp] theorem modBlk_lost (bid : Nat) (f : Block → Block) : (s.modBlk bid f).lost = s.lost := rfl
@[simp] theorem modBlk_atomQ (bid : Nat) (f : Block → Block) : (s.modBlk bid f).atomQ = s.atomQ := rfl
@[simp] theorem modBlk_addQ (bid : Nat) (f : Block → Block) : (s.modBlk bid f).addQ = s.addQ := rfl
@[simp] theorem modBlk_partials (bid : Nat) (f : Block → Block) : (s.modBlk bid f).partials = s.partials := rfl
@[simp] theorem modBlk_partQ (bid : Nat) (f : Block → Block) : (s.modBlk bid f).partQ = s.partQ := rfl
@[simp] theorem modBlk_pv (bid : Nat) (f : Block → Block) : (s.modBlk bid f).pv = s.pv := rfl
@[simp] theorem modBlk_walkCache (bid : Nat) (f : Block → Block) : (s.modBlk bid f).walkCache = s.walkCache := rfl
@[simp] theorem modBlk_checks (bid : Nat) (f : Block → Block) : (s.modBlk bid f).checks = s.checks := rfl
@[simp] theorem modBlk_retiring (bid : Nat) (f : Block → Block) : (s.modBlk bid f).retiring = s.retiring := rfl
@[simp] theorem modBlk_shooting (bid : Nat) (f : Block → Block) : (s.modBlk bid f).shooting = s.shooting := rfl
@[simp] theorem modBlk_lostRead (bid : Nat) (f : Block → Block) : (s.modBlk bid f).lostRead = s.lostRead := rfl
@[simp] theorem modBlk_fatb (bid : Nat) (f : Block → Block) : (s.modBlk bid f).fatb = s.fatb := rfl
@[simp] theorem modBlk_fn (bid : Nat) (f : Block → Block) : (s.modBlk bid f).fn = s.fn := rfl
@[simp] theorem modBlk_keys (bid : Nat) (f : Block → Block) : (s.modBlk bid f).keys = s.keys := rfl
@[simp] theorem modBlk_windows (bid : Nat) (f : Block → Block) : (s.modBlk bid f).windows = s.windows := rfl
@[simp] theorem modBlk_cmds (bid : Nat) (f : Block → Block) : (s.modBlk bid f).cmds = s.cmds := rfl
@[simp] theorem modBlk_mxvs (bid : Nat) (f : Block → Block) : (s.modBlk bid f).mxvs = s.mxvs := rfl
@[simp] theorem modBlk_tables (bid : Nat) (f : Block → Block) : (s.modBlk bid f).tables = s.tables := rfl
@[simp] theorem modBlk_criers (bid : Nat) (f : Block → Block) : (s.modBlk bid f).criers = s.criers := rfl
@[simp] theorem modBlk_host (bid : Nat) (f : Block → Block) : (s.modBlk bid f).host = s.host := rfl
@[simp] theorem modBlk_clock (bid : Nat) (f : Block → Block) : (s.modBlk bid f).clock = s.clock := rfl
@[simp] theorem modBlk_agenda (bid : Nat) (f : Block → Block) : (s.modBlk bid f).agenda = s.agenda := rfl
@[simp] theorem modBlk_visit (bid : Nat) (f : Block → Block) : (s.modBlk bid f).visit = s.visit := rfl
@[simp] theorem modBlk_free (bid : Nat) (f : Block → Block) : (s.modBlk bid f).free = s.free := rfl
@[simp] theorem modBlk_iss (bid : Nat) (f : Block → Block) : (s.modBlk bid f).iss = s.iss := rfl
@[simp] theorem modBlk_nextId (bid : Nat) (f : Block → Block) : (s.modBlk bid f).nextId = s.nextId := rfl
@[simp] theorem modBlk_dlost (bid : Nat) (f : Block → Block) : (s.modBlk bid f).dlost = s.dlost := rfl

/-! ## modSl -/

@[simp] theorem modSl_cores (bid i : Nat) (f : Slice → Slice) : (s.modSl bid i f).cores = s.cores := rfl
@[simp] theorem modSl_grids (bid i : Nat) (f : Slice → Slice) : (s.modSl bid i f).grids = s.grids := rfl
@[simp] theorem modSl_ready (bid i : Nat) (f : Slice → Slice) : (s.modSl bid i f).ready = s.ready := rfl
@[simp] theorem modSl_parked (bid i : Nat) (f : Slice → Slice) : (s.modSl bid i f).parked = s.parked := rfl
@[simp] theorem modSl_parts (bid i : Nat) (f : Slice → Slice) : (s.modSl bid i f).parts = s.parts := rfl
@[simp] theorem modSl_frames (bid i : Nat) (f : Slice → Slice) : (s.modSl bid i f).frames = s.frames := rfl
@[simp] theorem modSl_wdogLim (bid i : Nat) (f : Slice → Slice) : (s.modSl bid i f).wdogLim = s.wdogLim := rfl
@[simp] theorem modSl_seqNo (bid i : Nat) (f : Slice → Slice) : (s.modSl bid i f).seqNo = s.seqNo := rfl
@[simp] theorem modSl_recs (bid i : Nat) (f : Slice → Slice) : (s.modSl bid i f).recs = s.recs := rfl
@[simp] theorem modSl_mram (bid i : Nat) (f : Slice → Slice) : (s.modSl bid i f).mram = s.mram := rfl
@[simp] theorem modSl_mem (bid i : Nat) (f : Slice → Slice) : (s.modSl bid i f).mem = s.mem := rfl
@[simp] theorem modSl_memKey (bid i : Nat) (f : Slice → Slice) : (s.modSl bid i f).memKey = s.memKey := rfl
@[simp] theorem modSl_poison (bid i : Nat) (f : Slice → Slice) : (s.modSl bid i f).poison = s.poison := rfl
@[simp] theorem modSl_l3 (bid i : Nat) (f : Slice → Slice) : (s.modSl bid i f).l3 = s.l3 := rfl
@[simp] theorem modSl_l2 (bid i : Nat) (f : Slice → Slice) : (s.modSl bid i f).l2 = s.l2 := rfl
@[simp] theorem modSl_wo (bid i : Nat) (f : Slice → Slice) : (s.modSl bid i f).wo = s.wo := rfl
@[simp] theorem modSl_netw (bid i : Nat) (f : Slice → Slice) : (s.modSl bid i f).netw = s.netw := rfl
@[simp] theorem modSl_l2w (bid i : Nat) (f : Slice → Slice) : (s.modSl bid i f).l2w = s.l2w := rfl
@[simp] theorem modSl_dir (bid i : Nat) (f : Slice → Slice) : (s.modSl bid i f).dir = s.dir := rfl
@[simp] theorem modSl_dirQ (bid i : Nat) (f : Slice → Slice) : (s.modSl bid i f).dirQ = s.dirQ := rfl
@[simp] theorem modSl_recQ (bid i : Nat) (f : Slice → Slice) : (s.modSl bid i f).recQ = s.recQ := rfl
@[simp] theorem modSl_ackQ (bid i : Nat) (f : Slice → Slice) : (s.modSl bid i f).ackQ = s.ackQ := rfl
@[simp] theorem modSl_lost (bid i : Nat) (f : Slice → Slice) : (s.modSl bid i f).lost = s.lost := rfl
@[simp] theorem modSl_atomQ (bid i : Nat) (f : Slice → Slice) : (s.modSl bid i f).atomQ = s.atomQ := rfl
@[simp] theorem modSl_addQ (bid i : Nat) (f : Slice → Slice) : (s.modSl bid i f).addQ = s.addQ := rfl
@[simp] theorem modSl_partials (bid i : Nat) (f : Slice → Slice) : (s.modSl bid i f).partials = s.partials := rfl
@[simp] theorem modSl_partQ (bid i : Nat) (f : Slice → Slice) : (s.modSl bid i f).partQ = s.partQ := rfl
@[simp] theorem modSl_pv (bid i : Nat) (f : Slice → Slice) : (s.modSl bid i f).pv = s.pv := rfl
@[simp] theorem modSl_walkCache (bid i : Nat) (f : Slice → Slice) : (s.modSl bid i f).walkCache = s.walkCache := rfl
@[simp] theorem modSl_checks (bid i : Nat) (f : Slice → Slice) : (s.modSl bid i f).checks = s.checks := rfl
@[simp] theorem modSl_retiring (bid i : Nat) (f : Slice → Slice) : (s.modSl bid i f).retiring = s.retiring := rfl
@[simp] theorem modSl_shooting (bid i : Nat) (f : Slice → Slice) : (s.modSl bid i f).shooting = s.shooting := rfl
@[simp] theorem modSl_lostRead (bid i : Nat) (f : Slice → Slice) : (s.modSl bid i f).lostRead = s.lostRead := rfl
@[simp] theorem modSl_fatb (bid i : Nat) (f : Slice → Slice) : (s.modSl bid i f).fatb = s.fatb := rfl
@[simp] theorem modSl_fn (bid i : Nat) (f : Slice → Slice) : (s.modSl bid i f).fn = s.fn := rfl
@[simp] theorem modSl_keys (bid i : Nat) (f : Slice → Slice) : (s.modSl bid i f).keys = s.keys := rfl
@[simp] theorem modSl_windows (bid i : Nat) (f : Slice → Slice) : (s.modSl bid i f).windows = s.windows := rfl
@[simp] theorem modSl_cmds (bid i : Nat) (f : Slice → Slice) : (s.modSl bid i f).cmds = s.cmds := rfl
@[simp] theorem modSl_mxvs (bid i : Nat) (f : Slice → Slice) : (s.modSl bid i f).mxvs = s.mxvs := rfl
@[simp] theorem modSl_tables (bid i : Nat) (f : Slice → Slice) : (s.modSl bid i f).tables = s.tables := rfl
@[simp] theorem modSl_criers (bid i : Nat) (f : Slice → Slice) : (s.modSl bid i f).criers = s.criers := rfl
@[simp] theorem modSl_host (bid i : Nat) (f : Slice → Slice) : (s.modSl bid i f).host = s.host := rfl
@[simp] theorem modSl_clock (bid i : Nat) (f : Slice → Slice) : (s.modSl bid i f).clock = s.clock := rfl
@[simp] theorem modSl_agenda (bid i : Nat) (f : Slice → Slice) : (s.modSl bid i f).agenda = s.agenda := rfl
@[simp] theorem modSl_visit (bid i : Nat) (f : Slice → Slice) : (s.modSl bid i f).visit = s.visit := rfl
@[simp] theorem modSl_free (bid i : Nat) (f : Slice → Slice) : (s.modSl bid i f).free = s.free := rfl
@[simp] theorem modSl_iss (bid i : Nat) (f : Slice → Slice) : (s.modSl bid i f).iss = s.iss := rfl
@[simp] theorem modSl_nextId (bid i : Nat) (f : Slice → Slice) : (s.modSl bid i f).nextId = s.nextId := rfl
@[simp] theorem modSl_dlost (bid i : Nat) (f : Slice → Slice) : (s.modSl bid i f).dlost = s.dlost := rfl

/-! ## modGrid -/

@[simp] theorem modGrid_cores (gid : Nat) (f : Grid → Grid) : (s.modGrid gid f).cores = s.cores := rfl
@[simp] theorem modGrid_blocks (gid : Nat) (f : Grid → Grid) : (s.modGrid gid f).blocks = s.blocks := rfl
@[simp] theorem modGrid_ready (gid : Nat) (f : Grid → Grid) : (s.modGrid gid f).ready = s.ready := rfl
@[simp] theorem modGrid_parked (gid : Nat) (f : Grid → Grid) : (s.modGrid gid f).parked = s.parked := rfl
@[simp] theorem modGrid_parts (gid : Nat) (f : Grid → Grid) : (s.modGrid gid f).parts = s.parts := rfl
@[simp] theorem modGrid_frames (gid : Nat) (f : Grid → Grid) : (s.modGrid gid f).frames = s.frames := rfl
@[simp] theorem modGrid_wdogLim (gid : Nat) (f : Grid → Grid) : (s.modGrid gid f).wdogLim = s.wdogLim := rfl
@[simp] theorem modGrid_seqNo (gid : Nat) (f : Grid → Grid) : (s.modGrid gid f).seqNo = s.seqNo := rfl
@[simp] theorem modGrid_recs (gid : Nat) (f : Grid → Grid) : (s.modGrid gid f).recs = s.recs := rfl
@[simp] theorem modGrid_mram (gid : Nat) (f : Grid → Grid) : (s.modGrid gid f).mram = s.mram := rfl
@[simp] theorem modGrid_mem (gid : Nat) (f : Grid → Grid) : (s.modGrid gid f).mem = s.mem := rfl
@[simp] theorem modGrid_memKey (gid : Nat) (f : Grid → Grid) : (s.modGrid gid f).memKey = s.memKey := rfl
@[simp] theorem modGrid_poison (gid : Nat) (f : Grid → Grid) : (s.modGrid gid f).poison = s.poison := rfl
@[simp] theorem modGrid_l3 (gid : Nat) (f : Grid → Grid) : (s.modGrid gid f).l3 = s.l3 := rfl
@[simp] theorem modGrid_l2 (gid : Nat) (f : Grid → Grid) : (s.modGrid gid f).l2 = s.l2 := rfl
@[simp] theorem modGrid_wo (gid : Nat) (f : Grid → Grid) : (s.modGrid gid f).wo = s.wo := rfl
@[simp] theorem modGrid_netw (gid : Nat) (f : Grid → Grid) : (s.modGrid gid f).netw = s.netw := rfl
@[simp] theorem modGrid_l2w (gid : Nat) (f : Grid → Grid) : (s.modGrid gid f).l2w = s.l2w := rfl
@[simp] theorem modGrid_dir (gid : Nat) (f : Grid → Grid) : (s.modGrid gid f).dir = s.dir := rfl
@[simp] theorem modGrid_dirQ (gid : Nat) (f : Grid → Grid) : (s.modGrid gid f).dirQ = s.dirQ := rfl
@[simp] theorem modGrid_recQ (gid : Nat) (f : Grid → Grid) : (s.modGrid gid f).recQ = s.recQ := rfl
@[simp] theorem modGrid_ackQ (gid : Nat) (f : Grid → Grid) : (s.modGrid gid f).ackQ = s.ackQ := rfl
@[simp] theorem modGrid_lost (gid : Nat) (f : Grid → Grid) : (s.modGrid gid f).lost = s.lost := rfl
@[simp] theorem modGrid_atomQ (gid : Nat) (f : Grid → Grid) : (s.modGrid gid f).atomQ = s.atomQ := rfl
@[simp] theorem modGrid_addQ (gid : Nat) (f : Grid → Grid) : (s.modGrid gid f).addQ = s.addQ := rfl
@[simp] theorem modGrid_partials (gid : Nat) (f : Grid → Grid) : (s.modGrid gid f).partials = s.partials := rfl
@[simp] theorem modGrid_partQ (gid : Nat) (f : Grid → Grid) : (s.modGrid gid f).partQ = s.partQ := rfl
@[simp] theorem modGrid_pv (gid : Nat) (f : Grid → Grid) : (s.modGrid gid f).pv = s.pv := rfl
@[simp] theorem modGrid_walkCache (gid : Nat) (f : Grid → Grid) : (s.modGrid gid f).walkCache = s.walkCache := rfl
@[simp] theorem modGrid_checks (gid : Nat) (f : Grid → Grid) : (s.modGrid gid f).checks = s.checks := rfl
@[simp] theorem modGrid_retiring (gid : Nat) (f : Grid → Grid) : (s.modGrid gid f).retiring = s.retiring := rfl
@[simp] theorem modGrid_shooting (gid : Nat) (f : Grid → Grid) : (s.modGrid gid f).shooting = s.shooting := rfl
@[simp] theorem modGrid_lostRead (gid : Nat) (f : Grid → Grid) : (s.modGrid gid f).lostRead = s.lostRead := rfl
@[simp] theorem modGrid_fatb (gid : Nat) (f : Grid → Grid) : (s.modGrid gid f).fatb = s.fatb := rfl
@[simp] theorem modGrid_fn (gid : Nat) (f : Grid → Grid) : (s.modGrid gid f).fn = s.fn := rfl
@[simp] theorem modGrid_keys (gid : Nat) (f : Grid → Grid) : (s.modGrid gid f).keys = s.keys := rfl
@[simp] theorem modGrid_windows (gid : Nat) (f : Grid → Grid) : (s.modGrid gid f).windows = s.windows := rfl
@[simp] theorem modGrid_cmds (gid : Nat) (f : Grid → Grid) : (s.modGrid gid f).cmds = s.cmds := rfl
@[simp] theorem modGrid_mxvs (gid : Nat) (f : Grid → Grid) : (s.modGrid gid f).mxvs = s.mxvs := rfl
@[simp] theorem modGrid_tables (gid : Nat) (f : Grid → Grid) : (s.modGrid gid f).tables = s.tables := rfl
@[simp] theorem modGrid_criers (gid : Nat) (f : Grid → Grid) : (s.modGrid gid f).criers = s.criers := rfl
@[simp] theorem modGrid_host (gid : Nat) (f : Grid → Grid) : (s.modGrid gid f).host = s.host := rfl
@[simp] theorem modGrid_clock (gid : Nat) (f : Grid → Grid) : (s.modGrid gid f).clock = s.clock := rfl
@[simp] theorem modGrid_agenda (gid : Nat) (f : Grid → Grid) : (s.modGrid gid f).agenda = s.agenda := rfl
@[simp] theorem modGrid_visit (gid : Nat) (f : Grid → Grid) : (s.modGrid gid f).visit = s.visit := rfl
@[simp] theorem modGrid_free (gid : Nat) (f : Grid → Grid) : (s.modGrid gid f).free = s.free := rfl
@[simp] theorem modGrid_iss (gid : Nat) (f : Grid → Grid) : (s.modGrid gid f).iss = s.iss := rfl
@[simp] theorem modGrid_nextId (gid : Nat) (f : Grid → Grid) : (s.modGrid gid f).nextId = s.nextId := rfl
@[simp] theorem modGrid_dlost (gid : Nat) (f : Grid → Grid) : (s.modGrid gid f).dlost = s.dlost := rfl

/-! ## modCore -/

@[simp] theorem modCore_blocks (c : Nat) (f : Core → Core) : (s.modCore c f).blocks = s.blocks := rfl
@[simp] theorem modCore_grids (c : Nat) (f : Core → Core) : (s.modCore c f).grids = s.grids := rfl
@[simp] theorem modCore_ready (c : Nat) (f : Core → Core) : (s.modCore c f).ready = s.ready := rfl
@[simp] theorem modCore_parked (c : Nat) (f : Core → Core) : (s.modCore c f).parked = s.parked := rfl
@[simp] theorem modCore_parts (c : Nat) (f : Core → Core) : (s.modCore c f).parts = s.parts := rfl
@[simp] theorem modCore_frames (c : Nat) (f : Core → Core) : (s.modCore c f).frames = s.frames := rfl
@[simp] theorem modCore_wdogLim (c : Nat) (f : Core → Core) : (s.modCore c f).wdogLim = s.wdogLim := rfl
@[simp] theorem modCore_seqNo (c : Nat) (f : Core → Core) : (s.modCore c f).seqNo = s.seqNo := rfl
@[simp] theorem modCore_recs (c : Nat) (f : Core → Core) : (s.modCore c f).recs = s.recs := rfl
@[simp] theorem modCore_mram (c : Nat) (f : Core → Core) : (s.modCore c f).mram = s.mram := rfl
@[simp] theorem modCore_mem (c : Nat) (f : Core → Core) : (s.modCore c f).mem = s.mem := rfl
@[simp] theorem modCore_memKey (c : Nat) (f : Core → Core) : (s.modCore c f).memKey = s.memKey := rfl
@[simp] theorem modCore_poison (c : Nat) (f : Core → Core) : (s.modCore c f).poison = s.poison := rfl
@[simp] theorem modCore_l3 (c : Nat) (f : Core → Core) : (s.modCore c f).l3 = s.l3 := rfl
@[simp] theorem modCore_l2 (c : Nat) (f : Core → Core) : (s.modCore c f).l2 = s.l2 := rfl
@[simp] theorem modCore_wo (c : Nat) (f : Core → Core) : (s.modCore c f).wo = s.wo := rfl
@[simp] theorem modCore_netw (c : Nat) (f : Core → Core) : (s.modCore c f).netw = s.netw := rfl
@[simp] theorem modCore_l2w (c : Nat) (f : Core → Core) : (s.modCore c f).l2w = s.l2w := rfl
@[simp] theorem modCore_dir (c : Nat) (f : Core → Core) : (s.modCore c f).dir = s.dir := rfl
@[simp] theorem modCore_dirQ (c : Nat) (f : Core → Core) : (s.modCore c f).dirQ = s.dirQ := rfl
@[simp] theorem modCore_recQ (c : Nat) (f : Core → Core) : (s.modCore c f).recQ = s.recQ := rfl
@[simp] theorem modCore_ackQ (c : Nat) (f : Core → Core) : (s.modCore c f).ackQ = s.ackQ := rfl
@[simp] theorem modCore_lost (c : Nat) (f : Core → Core) : (s.modCore c f).lost = s.lost := rfl
@[simp] theorem modCore_atomQ (c : Nat) (f : Core → Core) : (s.modCore c f).atomQ = s.atomQ := rfl
@[simp] theorem modCore_addQ (c : Nat) (f : Core → Core) : (s.modCore c f).addQ = s.addQ := rfl
@[simp] theorem modCore_partials (c : Nat) (f : Core → Core) : (s.modCore c f).partials = s.partials := rfl
@[simp] theorem modCore_partQ (c : Nat) (f : Core → Core) : (s.modCore c f).partQ = s.partQ := rfl
@[simp] theorem modCore_pv (c : Nat) (f : Core → Core) : (s.modCore c f).pv = s.pv := rfl
@[simp] theorem modCore_walkCache (c : Nat) (f : Core → Core) : (s.modCore c f).walkCache = s.walkCache := rfl
@[simp] theorem modCore_checks (c : Nat) (f : Core → Core) : (s.modCore c f).checks = s.checks := rfl
@[simp] theorem modCore_retiring (c : Nat) (f : Core → Core) : (s.modCore c f).retiring = s.retiring := rfl
@[simp] theorem modCore_shooting (c : Nat) (f : Core → Core) : (s.modCore c f).shooting = s.shooting := rfl
@[simp] theorem modCore_lostRead (c : Nat) (f : Core → Core) : (s.modCore c f).lostRead = s.lostRead := rfl
@[simp] theorem modCore_fatb (c : Nat) (f : Core → Core) : (s.modCore c f).fatb = s.fatb := rfl
@[simp] theorem modCore_fn (c : Nat) (f : Core → Core) : (s.modCore c f).fn = s.fn := rfl
@[simp] theorem modCore_keys (c : Nat) (f : Core → Core) : (s.modCore c f).keys = s.keys := rfl
@[simp] theorem modCore_windows (c : Nat) (f : Core → Core) : (s.modCore c f).windows = s.windows := rfl
@[simp] theorem modCore_cmds (c : Nat) (f : Core → Core) : (s.modCore c f).cmds = s.cmds := rfl
@[simp] theorem modCore_mxvs (c : Nat) (f : Core → Core) : (s.modCore c f).mxvs = s.mxvs := rfl
@[simp] theorem modCore_tables (c : Nat) (f : Core → Core) : (s.modCore c f).tables = s.tables := rfl
@[simp] theorem modCore_criers (c : Nat) (f : Core → Core) : (s.modCore c f).criers = s.criers := rfl
@[simp] theorem modCore_host (c : Nat) (f : Core → Core) : (s.modCore c f).host = s.host := rfl
@[simp] theorem modCore_clock (c : Nat) (f : Core → Core) : (s.modCore c f).clock = s.clock := rfl
@[simp] theorem modCore_agenda (c : Nat) (f : Core → Core) : (s.modCore c f).agenda = s.agenda := rfl
@[simp] theorem modCore_visit (c : Nat) (f : Core → Core) : (s.modCore c f).visit = s.visit := rfl
@[simp] theorem modCore_free (c : Nat) (f : Core → Core) : (s.modCore c f).free = s.free := rfl
@[simp] theorem modCore_iss (c : Nat) (f : Core → Core) : (s.modCore c f).iss = s.iss := rfl
@[simp] theorem modCore_nextId (c : Nat) (f : Core → Core) : (s.modCore c f).nextId = s.nextId := rfl
@[simp] theorem modCore_dlost (c : Nat) (f : Core → Core) : (s.modCore c f).dlost = s.dlost := rfl

/-! ## modSec -/

@[simp] theorem modSec_blocks (c k : Nat) (f : Section → Section) : (s.modSec c k f).blocks = s.blocks := rfl
@[simp] theorem modSec_grids (c k : Nat) (f : Section → Section) : (s.modSec c k f).grids = s.grids := rfl
@[simp] theorem modSec_ready (c k : Nat) (f : Section → Section) : (s.modSec c k f).ready = s.ready := rfl
@[simp] theorem modSec_parked (c k : Nat) (f : Section → Section) : (s.modSec c k f).parked = s.parked := rfl
@[simp] theorem modSec_parts (c k : Nat) (f : Section → Section) : (s.modSec c k f).parts = s.parts := rfl
@[simp] theorem modSec_frames (c k : Nat) (f : Section → Section) : (s.modSec c k f).frames = s.frames := rfl
@[simp] theorem modSec_wdogLim (c k : Nat) (f : Section → Section) : (s.modSec c k f).wdogLim = s.wdogLim := rfl
@[simp] theorem modSec_seqNo (c k : Nat) (f : Section → Section) : (s.modSec c k f).seqNo = s.seqNo := rfl
@[simp] theorem modSec_recs (c k : Nat) (f : Section → Section) : (s.modSec c k f).recs = s.recs := rfl
@[simp] theorem modSec_mram (c k : Nat) (f : Section → Section) : (s.modSec c k f).mram = s.mram := rfl
@[simp] theorem modSec_mem (c k : Nat) (f : Section → Section) : (s.modSec c k f).mem = s.mem := rfl
@[simp] theorem modSec_memKey (c k : Nat) (f : Section → Section) : (s.modSec c k f).memKey = s.memKey := rfl
@[simp] theorem modSec_poison (c k : Nat) (f : Section → Section) : (s.modSec c k f).poison = s.poison := rfl
@[simp] theorem modSec_l3 (c k : Nat) (f : Section → Section) : (s.modSec c k f).l3 = s.l3 := rfl
@[simp] theorem modSec_l2 (c k : Nat) (f : Section → Section) : (s.modSec c k f).l2 = s.l2 := rfl
@[simp] theorem modSec_wo (c k : Nat) (f : Section → Section) : (s.modSec c k f).wo = s.wo := rfl
@[simp] theorem modSec_netw (c k : Nat) (f : Section → Section) : (s.modSec c k f).netw = s.netw := rfl
@[simp] theorem modSec_l2w (c k : Nat) (f : Section → Section) : (s.modSec c k f).l2w = s.l2w := rfl
@[simp] theorem modSec_dir (c k : Nat) (f : Section → Section) : (s.modSec c k f).dir = s.dir := rfl
@[simp] theorem modSec_dirQ (c k : Nat) (f : Section → Section) : (s.modSec c k f).dirQ = s.dirQ := rfl
@[simp] theorem modSec_recQ (c k : Nat) (f : Section → Section) : (s.modSec c k f).recQ = s.recQ := rfl
@[simp] theorem modSec_ackQ (c k : Nat) (f : Section → Section) : (s.modSec c k f).ackQ = s.ackQ := rfl
@[simp] theorem modSec_lost (c k : Nat) (f : Section → Section) : (s.modSec c k f).lost = s.lost := rfl
@[simp] theorem modSec_atomQ (c k : Nat) (f : Section → Section) : (s.modSec c k f).atomQ = s.atomQ := rfl
@[simp] theorem modSec_addQ (c k : Nat) (f : Section → Section) : (s.modSec c k f).addQ = s.addQ := rfl
@[simp] theorem modSec_partials (c k : Nat) (f : Section → Section) : (s.modSec c k f).partials = s.partials := rfl
@[simp] theorem modSec_partQ (c k : Nat) (f : Section → Section) : (s.modSec c k f).partQ = s.partQ := rfl
@[simp] theorem modSec_pv (c k : Nat) (f : Section → Section) : (s.modSec c k f).pv = s.pv := rfl
@[simp] theorem modSec_walkCache (c k : Nat) (f : Section → Section) : (s.modSec c k f).walkCache = s.walkCache := rfl
@[simp] theorem modSec_checks (c k : Nat) (f : Section → Section) : (s.modSec c k f).checks = s.checks := rfl
@[simp] theorem modSec_retiring (c k : Nat) (f : Section → Section) : (s.modSec c k f).retiring = s.retiring := rfl
@[simp] theorem modSec_shooting (c k : Nat) (f : Section → Section) : (s.modSec c k f).shooting = s.shooting := rfl
@[simp] theorem modSec_lostRead (c k : Nat) (f : Section → Section) : (s.modSec c k f).lostRead = s.lostRead := rfl
@[simp] theorem modSec_fatb (c k : Nat) (f : Section → Section) : (s.modSec c k f).fatb = s.fatb := rfl
@[simp] theorem modSec_fn (c k : Nat) (f : Section → Section) : (s.modSec c k f).fn = s.fn := rfl
@[simp] theorem modSec_keys (c k : Nat) (f : Section → Section) : (s.modSec c k f).keys = s.keys := rfl
@[simp] theorem modSec_windows (c k : Nat) (f : Section → Section) : (s.modSec c k f).windows = s.windows := rfl
@[simp] theorem modSec_cmds (c k : Nat) (f : Section → Section) : (s.modSec c k f).cmds = s.cmds := rfl
@[simp] theorem modSec_mxvs (c k : Nat) (f : Section → Section) : (s.modSec c k f).mxvs = s.mxvs := rfl
@[simp] theorem modSec_tables (c k : Nat) (f : Section → Section) : (s.modSec c k f).tables = s.tables := rfl
@[simp] theorem modSec_criers (c k : Nat) (f : Section → Section) : (s.modSec c k f).criers = s.criers := rfl
@[simp] theorem modSec_host (c k : Nat) (f : Section → Section) : (s.modSec c k f).host = s.host := rfl
@[simp] theorem modSec_clock (c k : Nat) (f : Section → Section) : (s.modSec c k f).clock = s.clock := rfl
@[simp] theorem modSec_agenda (c k : Nat) (f : Section → Section) : (s.modSec c k f).agenda = s.agenda := rfl
@[simp] theorem modSec_visit (c k : Nat) (f : Section → Section) : (s.modSec c k f).visit = s.visit := rfl
@[simp] theorem modSec_free (c k : Nat) (f : Section → Section) : (s.modSec c k f).free = s.free := rfl
@[simp] theorem modSec_iss (c k : Nat) (f : Section → Section) : (s.modSec c k f).iss = s.iss := rfl
@[simp] theorem modSec_nextId (c k : Nat) (f : Section → Section) : (s.modSec c k f).nextId = s.nextId := rfl
@[simp] theorem modSec_dlost (c k : Nat) (f : Section → Section) : (s.modSec c k f).dlost = s.dlost := rfl

/-! ## modHost -/

@[simp] theorem modHost_cores (f : HostRegs → HostRegs) : (s.modHost f).cores = s.cores := rfl
@[simp] theorem modHost_blocks (f : HostRegs → HostRegs) : (s.modHost f).blocks = s.blocks := rfl
@[simp] theorem modHost_grids (f : HostRegs → HostRegs) : (s.modHost f).grids = s.grids := rfl
@[simp] theorem modHost_ready (f : HostRegs → HostRegs) : (s.modHost f).ready = s.ready := rfl
@[simp] theorem modHost_parked (f : HostRegs → HostRegs) : (s.modHost f).parked = s.parked := rfl
@[simp] theorem modHost_parts (f : HostRegs → HostRegs) : (s.modHost f).parts = s.parts := rfl
@[simp] theorem modHost_frames (f : HostRegs → HostRegs) : (s.modHost f).frames = s.frames := rfl
@[simp] theorem modHost_wdogLim (f : HostRegs → HostRegs) : (s.modHost f).wdogLim = s.wdogLim := rfl
@[simp] theorem modHost_seqNo (f : HostRegs → HostRegs) : (s.modHost f).seqNo = s.seqNo := rfl
@[simp] theorem modHost_recs (f : HostRegs → HostRegs) : (s.modHost f).recs = s.recs := rfl
@[simp] theorem modHost_mram (f : HostRegs → HostRegs) : (s.modHost f).mram = s.mram := rfl
@[simp] theorem modHost_mem (f : HostRegs → HostRegs) : (s.modHost f).mem = s.mem := rfl
@[simp] theorem modHost_memKey (f : HostRegs → HostRegs) : (s.modHost f).memKey = s.memKey := rfl
@[simp] theorem modHost_poison (f : HostRegs → HostRegs) : (s.modHost f).poison = s.poison := rfl
@[simp] theorem modHost_l3 (f : HostRegs → HostRegs) : (s.modHost f).l3 = s.l3 := rfl
@[simp] theorem modHost_l2 (f : HostRegs → HostRegs) : (s.modHost f).l2 = s.l2 := rfl
@[simp] theorem modHost_wo (f : HostRegs → HostRegs) : (s.modHost f).wo = s.wo := rfl
@[simp] theorem modHost_netw (f : HostRegs → HostRegs) : (s.modHost f).netw = s.netw := rfl
@[simp] theorem modHost_l2w (f : HostRegs → HostRegs) : (s.modHost f).l2w = s.l2w := rfl
@[simp] theorem modHost_dir (f : HostRegs → HostRegs) : (s.modHost f).dir = s.dir := rfl
@[simp] theorem modHost_dirQ (f : HostRegs → HostRegs) : (s.modHost f).dirQ = s.dirQ := rfl
@[simp] theorem modHost_recQ (f : HostRegs → HostRegs) : (s.modHost f).recQ = s.recQ := rfl
@[simp] theorem modHost_ackQ (f : HostRegs → HostRegs) : (s.modHost f).ackQ = s.ackQ := rfl
@[simp] theorem modHost_lost (f : HostRegs → HostRegs) : (s.modHost f).lost = s.lost := rfl
@[simp] theorem modHost_atomQ (f : HostRegs → HostRegs) : (s.modHost f).atomQ = s.atomQ := rfl
@[simp] theorem modHost_addQ (f : HostRegs → HostRegs) : (s.modHost f).addQ = s.addQ := rfl
@[simp] theorem modHost_partials (f : HostRegs → HostRegs) : (s.modHost f).partials = s.partials := rfl
@[simp] theorem modHost_partQ (f : HostRegs → HostRegs) : (s.modHost f).partQ = s.partQ := rfl
@[simp] theorem modHost_pv (f : HostRegs → HostRegs) : (s.modHost f).pv = s.pv := rfl
@[simp] theorem modHost_walkCache (f : HostRegs → HostRegs) : (s.modHost f).walkCache = s.walkCache := rfl
@[simp] theorem modHost_checks (f : HostRegs → HostRegs) : (s.modHost f).checks = s.checks := rfl
@[simp] theorem modHost_retiring (f : HostRegs → HostRegs) : (s.modHost f).retiring = s.retiring := rfl
@[simp] theorem modHost_shooting (f : HostRegs → HostRegs) : (s.modHost f).shooting = s.shooting := rfl
@[simp] theorem modHost_lostRead (f : HostRegs → HostRegs) : (s.modHost f).lostRead = s.lostRead := rfl
@[simp] theorem modHost_fatb (f : HostRegs → HostRegs) : (s.modHost f).fatb = s.fatb := rfl
@[simp] theorem modHost_fn (f : HostRegs → HostRegs) : (s.modHost f).fn = s.fn := rfl
@[simp] theorem modHost_keys (f : HostRegs → HostRegs) : (s.modHost f).keys = s.keys := rfl
@[simp] theorem modHost_windows (f : HostRegs → HostRegs) : (s.modHost f).windows = s.windows := rfl
@[simp] theorem modHost_cmds (f : HostRegs → HostRegs) : (s.modHost f).cmds = s.cmds := rfl
@[simp] theorem modHost_mxvs (f : HostRegs → HostRegs) : (s.modHost f).mxvs = s.mxvs := rfl
@[simp] theorem modHost_tables (f : HostRegs → HostRegs) : (s.modHost f).tables = s.tables := rfl
@[simp] theorem modHost_criers (f : HostRegs → HostRegs) : (s.modHost f).criers = s.criers := rfl
@[simp] theorem modHost_clock (f : HostRegs → HostRegs) : (s.modHost f).clock = s.clock := rfl
@[simp] theorem modHost_agenda (f : HostRegs → HostRegs) : (s.modHost f).agenda = s.agenda := rfl
@[simp] theorem modHost_visit (f : HostRegs → HostRegs) : (s.modHost f).visit = s.visit := rfl
@[simp] theorem modHost_free (f : HostRegs → HostRegs) : (s.modHost f).free = s.free := rfl
@[simp] theorem modHost_iss (f : HostRegs → HostRegs) : (s.modHost f).iss = s.iss := rfl
@[simp] theorem modHost_nextId (f : HostRegs → HostRegs) : (s.modHost f).nextId = s.nextId := rfl
@[simp] theorem modHost_dlost (f : HostRegs → HostRegs) : (s.modHost f).dlost = s.dlost := rfl

/-! ## modCmd -/

@[simp] theorem modCmd_cores (id : Nat) (f : EngCmd → EngCmd) : (s.modCmd id f).cores = s.cores := rfl
@[simp] theorem modCmd_blocks (id : Nat) (f : EngCmd → EngCmd) : (s.modCmd id f).blocks = s.blocks := rfl
@[simp] theorem modCmd_grids (id : Nat) (f : EngCmd → EngCmd) : (s.modCmd id f).grids = s.grids := rfl
@[simp] theorem modCmd_ready (id : Nat) (f : EngCmd → EngCmd) : (s.modCmd id f).ready = s.ready := rfl
@[simp] theorem modCmd_parked (id : Nat) (f : EngCmd → EngCmd) : (s.modCmd id f).parked = s.parked := rfl
@[simp] theorem modCmd_parts (id : Nat) (f : EngCmd → EngCmd) : (s.modCmd id f).parts = s.parts := rfl
@[simp] theorem modCmd_frames (id : Nat) (f : EngCmd → EngCmd) : (s.modCmd id f).frames = s.frames := rfl
@[simp] theorem modCmd_wdogLim (id : Nat) (f : EngCmd → EngCmd) : (s.modCmd id f).wdogLim = s.wdogLim := rfl
@[simp] theorem modCmd_seqNo (id : Nat) (f : EngCmd → EngCmd) : (s.modCmd id f).seqNo = s.seqNo := rfl
@[simp] theorem modCmd_recs (id : Nat) (f : EngCmd → EngCmd) : (s.modCmd id f).recs = s.recs := rfl
@[simp] theorem modCmd_mram (id : Nat) (f : EngCmd → EngCmd) : (s.modCmd id f).mram = s.mram := rfl
@[simp] theorem modCmd_mem (id : Nat) (f : EngCmd → EngCmd) : (s.modCmd id f).mem = s.mem := rfl
@[simp] theorem modCmd_memKey (id : Nat) (f : EngCmd → EngCmd) : (s.modCmd id f).memKey = s.memKey := rfl
@[simp] theorem modCmd_poison (id : Nat) (f : EngCmd → EngCmd) : (s.modCmd id f).poison = s.poison := rfl
@[simp] theorem modCmd_l3 (id : Nat) (f : EngCmd → EngCmd) : (s.modCmd id f).l3 = s.l3 := rfl
@[simp] theorem modCmd_l2 (id : Nat) (f : EngCmd → EngCmd) : (s.modCmd id f).l2 = s.l2 := rfl
@[simp] theorem modCmd_wo (id : Nat) (f : EngCmd → EngCmd) : (s.modCmd id f).wo = s.wo := rfl
@[simp] theorem modCmd_netw (id : Nat) (f : EngCmd → EngCmd) : (s.modCmd id f).netw = s.netw := rfl
@[simp] theorem modCmd_l2w (id : Nat) (f : EngCmd → EngCmd) : (s.modCmd id f).l2w = s.l2w := rfl
@[simp] theorem modCmd_dir (id : Nat) (f : EngCmd → EngCmd) : (s.modCmd id f).dir = s.dir := rfl
@[simp] theorem modCmd_dirQ (id : Nat) (f : EngCmd → EngCmd) : (s.modCmd id f).dirQ = s.dirQ := rfl
@[simp] theorem modCmd_recQ (id : Nat) (f : EngCmd → EngCmd) : (s.modCmd id f).recQ = s.recQ := rfl
@[simp] theorem modCmd_ackQ (id : Nat) (f : EngCmd → EngCmd) : (s.modCmd id f).ackQ = s.ackQ := rfl
@[simp] theorem modCmd_lost (id : Nat) (f : EngCmd → EngCmd) : (s.modCmd id f).lost = s.lost := rfl
@[simp] theorem modCmd_atomQ (id : Nat) (f : EngCmd → EngCmd) : (s.modCmd id f).atomQ = s.atomQ := rfl
@[simp] theorem modCmd_addQ (id : Nat) (f : EngCmd → EngCmd) : (s.modCmd id f).addQ = s.addQ := rfl
@[simp] theorem modCmd_partials (id : Nat) (f : EngCmd → EngCmd) : (s.modCmd id f).partials = s.partials := rfl
@[simp] theorem modCmd_partQ (id : Nat) (f : EngCmd → EngCmd) : (s.modCmd id f).partQ = s.partQ := rfl
@[simp] theorem modCmd_pv (id : Nat) (f : EngCmd → EngCmd) : (s.modCmd id f).pv = s.pv := rfl
@[simp] theorem modCmd_walkCache (id : Nat) (f : EngCmd → EngCmd) : (s.modCmd id f).walkCache = s.walkCache := rfl
@[simp] theorem modCmd_checks (id : Nat) (f : EngCmd → EngCmd) : (s.modCmd id f).checks = s.checks := rfl
@[simp] theorem modCmd_retiring (id : Nat) (f : EngCmd → EngCmd) : (s.modCmd id f).retiring = s.retiring := rfl
@[simp] theorem modCmd_shooting (id : Nat) (f : EngCmd → EngCmd) : (s.modCmd id f).shooting = s.shooting := rfl
@[simp] theorem modCmd_lostRead (id : Nat) (f : EngCmd → EngCmd) : (s.modCmd id f).lostRead = s.lostRead := rfl
@[simp] theorem modCmd_fatb (id : Nat) (f : EngCmd → EngCmd) : (s.modCmd id f).fatb = s.fatb := rfl
@[simp] theorem modCmd_fn (id : Nat) (f : EngCmd → EngCmd) : (s.modCmd id f).fn = s.fn := rfl
@[simp] theorem modCmd_keys (id : Nat) (f : EngCmd → EngCmd) : (s.modCmd id f).keys = s.keys := rfl
@[simp] theorem modCmd_windows (id : Nat) (f : EngCmd → EngCmd) : (s.modCmd id f).windows = s.windows := rfl
@[simp] theorem modCmd_mxvs (id : Nat) (f : EngCmd → EngCmd) : (s.modCmd id f).mxvs = s.mxvs := rfl
@[simp] theorem modCmd_tables (id : Nat) (f : EngCmd → EngCmd) : (s.modCmd id f).tables = s.tables := rfl
@[simp] theorem modCmd_criers (id : Nat) (f : EngCmd → EngCmd) : (s.modCmd id f).criers = s.criers := rfl
@[simp] theorem modCmd_host (id : Nat) (f : EngCmd → EngCmd) : (s.modCmd id f).host = s.host := rfl
@[simp] theorem modCmd_clock (id : Nat) (f : EngCmd → EngCmd) : (s.modCmd id f).clock = s.clock := rfl
@[simp] theorem modCmd_agenda (id : Nat) (f : EngCmd → EngCmd) : (s.modCmd id f).agenda = s.agenda := rfl
@[simp] theorem modCmd_visit (id : Nat) (f : EngCmd → EngCmd) : (s.modCmd id f).visit = s.visit := rfl
@[simp] theorem modCmd_free (id : Nat) (f : EngCmd → EngCmd) : (s.modCmd id f).free = s.free := rfl
@[simp] theorem modCmd_iss (id : Nat) (f : EngCmd → EngCmd) : (s.modCmd id f).iss = s.iss := rfl
@[simp] theorem modCmd_nextId (id : Nat) (f : EngCmd → EngCmd) : (s.modCmd id f).nextId = s.nextId := rfl
@[simp] theorem modCmd_dlost (id : Nat) (f : EngCmd → EngCmd) : (s.modCmd id f).dlost = s.dlost := rfl

/-! ## modMxv -/

@[simp] theorem modMxv_cores (id : Nat) (f : MxvCall → MxvCall) : (s.modMxv id f).cores = s.cores := rfl
@[simp] theorem modMxv_blocks (id : Nat) (f : MxvCall → MxvCall) : (s.modMxv id f).blocks = s.blocks := rfl
@[simp] theorem modMxv_grids (id : Nat) (f : MxvCall → MxvCall) : (s.modMxv id f).grids = s.grids := rfl
@[simp] theorem modMxv_ready (id : Nat) (f : MxvCall → MxvCall) : (s.modMxv id f).ready = s.ready := rfl
@[simp] theorem modMxv_parked (id : Nat) (f : MxvCall → MxvCall) : (s.modMxv id f).parked = s.parked := rfl
@[simp] theorem modMxv_parts (id : Nat) (f : MxvCall → MxvCall) : (s.modMxv id f).parts = s.parts := rfl
@[simp] theorem modMxv_frames (id : Nat) (f : MxvCall → MxvCall) : (s.modMxv id f).frames = s.frames := rfl
@[simp] theorem modMxv_wdogLim (id : Nat) (f : MxvCall → MxvCall) : (s.modMxv id f).wdogLim = s.wdogLim := rfl
@[simp] theorem modMxv_seqNo (id : Nat) (f : MxvCall → MxvCall) : (s.modMxv id f).seqNo = s.seqNo := rfl
@[simp] theorem modMxv_recs (id : Nat) (f : MxvCall → MxvCall) : (s.modMxv id f).recs = s.recs := rfl
@[simp] theorem modMxv_mram (id : Nat) (f : MxvCall → MxvCall) : (s.modMxv id f).mram = s.mram := rfl
@[simp] theorem modMxv_mem (id : Nat) (f : MxvCall → MxvCall) : (s.modMxv id f).mem = s.mem := rfl
@[simp] theorem modMxv_memKey (id : Nat) (f : MxvCall → MxvCall) : (s.modMxv id f).memKey = s.memKey := rfl
@[simp] theorem modMxv_poison (id : Nat) (f : MxvCall → MxvCall) : (s.modMxv id f).poison = s.poison := rfl
@[simp] theorem modMxv_l3 (id : Nat) (f : MxvCall → MxvCall) : (s.modMxv id f).l3 = s.l3 := rfl
@[simp] theorem modMxv_l2 (id : Nat) (f : MxvCall → MxvCall) : (s.modMxv id f).l2 = s.l2 := rfl
@[simp] theorem modMxv_wo (id : Nat) (f : MxvCall → MxvCall) : (s.modMxv id f).wo = s.wo := rfl
@[simp] theorem modMxv_netw (id : Nat) (f : MxvCall → MxvCall) : (s.modMxv id f).netw = s.netw := rfl
@[simp] theorem modMxv_l2w (id : Nat) (f : MxvCall → MxvCall) : (s.modMxv id f).l2w = s.l2w := rfl
@[simp] theorem modMxv_dir (id : Nat) (f : MxvCall → MxvCall) : (s.modMxv id f).dir = s.dir := rfl
@[simp] theorem modMxv_dirQ (id : Nat) (f : MxvCall → MxvCall) : (s.modMxv id f).dirQ = s.dirQ := rfl
@[simp] theorem modMxv_recQ (id : Nat) (f : MxvCall → MxvCall) : (s.modMxv id f).recQ = s.recQ := rfl
@[simp] theorem modMxv_ackQ (id : Nat) (f : MxvCall → MxvCall) : (s.modMxv id f).ackQ = s.ackQ := rfl
@[simp] theorem modMxv_lost (id : Nat) (f : MxvCall → MxvCall) : (s.modMxv id f).lost = s.lost := rfl
@[simp] theorem modMxv_atomQ (id : Nat) (f : MxvCall → MxvCall) : (s.modMxv id f).atomQ = s.atomQ := rfl
@[simp] theorem modMxv_addQ (id : Nat) (f : MxvCall → MxvCall) : (s.modMxv id f).addQ = s.addQ := rfl
@[simp] theorem modMxv_partials (id : Nat) (f : MxvCall → MxvCall) : (s.modMxv id f).partials = s.partials := rfl
@[simp] theorem modMxv_partQ (id : Nat) (f : MxvCall → MxvCall) : (s.modMxv id f).partQ = s.partQ := rfl
@[simp] theorem modMxv_pv (id : Nat) (f : MxvCall → MxvCall) : (s.modMxv id f).pv = s.pv := rfl
@[simp] theorem modMxv_walkCache (id : Nat) (f : MxvCall → MxvCall) : (s.modMxv id f).walkCache = s.walkCache := rfl
@[simp] theorem modMxv_checks (id : Nat) (f : MxvCall → MxvCall) : (s.modMxv id f).checks = s.checks := rfl
@[simp] theorem modMxv_retiring (id : Nat) (f : MxvCall → MxvCall) : (s.modMxv id f).retiring = s.retiring := rfl
@[simp] theorem modMxv_shooting (id : Nat) (f : MxvCall → MxvCall) : (s.modMxv id f).shooting = s.shooting := rfl
@[simp] theorem modMxv_lostRead (id : Nat) (f : MxvCall → MxvCall) : (s.modMxv id f).lostRead = s.lostRead := rfl
@[simp] theorem modMxv_fatb (id : Nat) (f : MxvCall → MxvCall) : (s.modMxv id f).fatb = s.fatb := rfl
@[simp] theorem modMxv_fn (id : Nat) (f : MxvCall → MxvCall) : (s.modMxv id f).fn = s.fn := rfl
@[simp] theorem modMxv_keys (id : Nat) (f : MxvCall → MxvCall) : (s.modMxv id f).keys = s.keys := rfl
@[simp] theorem modMxv_windows (id : Nat) (f : MxvCall → MxvCall) : (s.modMxv id f).windows = s.windows := rfl
@[simp] theorem modMxv_cmds (id : Nat) (f : MxvCall → MxvCall) : (s.modMxv id f).cmds = s.cmds := rfl
@[simp] theorem modMxv_tables (id : Nat) (f : MxvCall → MxvCall) : (s.modMxv id f).tables = s.tables := rfl
@[simp] theorem modMxv_criers (id : Nat) (f : MxvCall → MxvCall) : (s.modMxv id f).criers = s.criers := rfl
@[simp] theorem modMxv_host (id : Nat) (f : MxvCall → MxvCall) : (s.modMxv id f).host = s.host := rfl
@[simp] theorem modMxv_clock (id : Nat) (f : MxvCall → MxvCall) : (s.modMxv id f).clock = s.clock := rfl
@[simp] theorem modMxv_agenda (id : Nat) (f : MxvCall → MxvCall) : (s.modMxv id f).agenda = s.agenda := rfl
@[simp] theorem modMxv_visit (id : Nat) (f : MxvCall → MxvCall) : (s.modMxv id f).visit = s.visit := rfl
@[simp] theorem modMxv_free (id : Nat) (f : MxvCall → MxvCall) : (s.modMxv id f).free = s.free := rfl
@[simp] theorem modMxv_iss (id : Nat) (f : MxvCall → MxvCall) : (s.modMxv id f).iss = s.iss := rfl
@[simp] theorem modMxv_nextId (id : Nat) (f : MxvCall → MxvCall) : (s.modMxv id f).nextId = s.nextId := rfl
@[simp] theorem modMxv_dlost (id : Nat) (f : MxvCall → MxvCall) : (s.modMxv id f).dlost = s.dlost := rfl

/-! ## modCrier -/

@[simp] theorem modCrier_cores (u : Nat) (f : Crier → Crier) : (s.modCrier u f).cores = s.cores := rfl
@[simp] theorem modCrier_blocks (u : Nat) (f : Crier → Crier) : (s.modCrier u f).blocks = s.blocks := rfl
@[simp] theorem modCrier_grids (u : Nat) (f : Crier → Crier) : (s.modCrier u f).grids = s.grids := rfl
@[simp] theorem modCrier_ready (u : Nat) (f : Crier → Crier) : (s.modCrier u f).ready = s.ready := rfl
@[simp] theorem modCrier_parked (u : Nat) (f : Crier → Crier) : (s.modCrier u f).parked = s.parked := rfl
@[simp] theorem modCrier_parts (u : Nat) (f : Crier → Crier) : (s.modCrier u f).parts = s.parts := rfl
@[simp] theorem modCrier_frames (u : Nat) (f : Crier → Crier) : (s.modCrier u f).frames = s.frames := rfl
@[simp] theorem modCrier_wdogLim (u : Nat) (f : Crier → Crier) : (s.modCrier u f).wdogLim = s.wdogLim := rfl
@[simp] theorem modCrier_seqNo (u : Nat) (f : Crier → Crier) : (s.modCrier u f).seqNo = s.seqNo := rfl
@[simp] theorem modCrier_recs (u : Nat) (f : Crier → Crier) : (s.modCrier u f).recs = s.recs := rfl
@[simp] theorem modCrier_mram (u : Nat) (f : Crier → Crier) : (s.modCrier u f).mram = s.mram := rfl
@[simp] theorem modCrier_mem (u : Nat) (f : Crier → Crier) : (s.modCrier u f).mem = s.mem := rfl
@[simp] theorem modCrier_memKey (u : Nat) (f : Crier → Crier) : (s.modCrier u f).memKey = s.memKey := rfl
@[simp] theorem modCrier_poison (u : Nat) (f : Crier → Crier) : (s.modCrier u f).poison = s.poison := rfl
@[simp] theorem modCrier_l3 (u : Nat) (f : Crier → Crier) : (s.modCrier u f).l3 = s.l3 := rfl
@[simp] theorem modCrier_l2 (u : Nat) (f : Crier → Crier) : (s.modCrier u f).l2 = s.l2 := rfl
@[simp] theorem modCrier_wo (u : Nat) (f : Crier → Crier) : (s.modCrier u f).wo = s.wo := rfl
@[simp] theorem modCrier_netw (u : Nat) (f : Crier → Crier) : (s.modCrier u f).netw = s.netw := rfl
@[simp] theorem modCrier_l2w (u : Nat) (f : Crier → Crier) : (s.modCrier u f).l2w = s.l2w := rfl
@[simp] theorem modCrier_dir (u : Nat) (f : Crier → Crier) : (s.modCrier u f).dir = s.dir := rfl
@[simp] theorem modCrier_dirQ (u : Nat) (f : Crier → Crier) : (s.modCrier u f).dirQ = s.dirQ := rfl
@[simp] theorem modCrier_recQ (u : Nat) (f : Crier → Crier) : (s.modCrier u f).recQ = s.recQ := rfl
@[simp] theorem modCrier_ackQ (u : Nat) (f : Crier → Crier) : (s.modCrier u f).ackQ = s.ackQ := rfl
@[simp] theorem modCrier_lost (u : Nat) (f : Crier → Crier) : (s.modCrier u f).lost = s.lost := rfl
@[simp] theorem modCrier_atomQ (u : Nat) (f : Crier → Crier) : (s.modCrier u f).atomQ = s.atomQ := rfl
@[simp] theorem modCrier_addQ (u : Nat) (f : Crier → Crier) : (s.modCrier u f).addQ = s.addQ := rfl
@[simp] theorem modCrier_partials (u : Nat) (f : Crier → Crier) : (s.modCrier u f).partials = s.partials := rfl
@[simp] theorem modCrier_partQ (u : Nat) (f : Crier → Crier) : (s.modCrier u f).partQ = s.partQ := rfl
@[simp] theorem modCrier_pv (u : Nat) (f : Crier → Crier) : (s.modCrier u f).pv = s.pv := rfl
@[simp] theorem modCrier_walkCache (u : Nat) (f : Crier → Crier) : (s.modCrier u f).walkCache = s.walkCache := rfl
@[simp] theorem modCrier_checks (u : Nat) (f : Crier → Crier) : (s.modCrier u f).checks = s.checks := rfl
@[simp] theorem modCrier_retiring (u : Nat) (f : Crier → Crier) : (s.modCrier u f).retiring = s.retiring := rfl
@[simp] theorem modCrier_shooting (u : Nat) (f : Crier → Crier) : (s.modCrier u f).shooting = s.shooting := rfl
@[simp] theorem modCrier_lostRead (u : Nat) (f : Crier → Crier) : (s.modCrier u f).lostRead = s.lostRead := rfl
@[simp] theorem modCrier_fatb (u : Nat) (f : Crier → Crier) : (s.modCrier u f).fatb = s.fatb := rfl
@[simp] theorem modCrier_fn (u : Nat) (f : Crier → Crier) : (s.modCrier u f).fn = s.fn := rfl
@[simp] theorem modCrier_keys (u : Nat) (f : Crier → Crier) : (s.modCrier u f).keys = s.keys := rfl
@[simp] theorem modCrier_windows (u : Nat) (f : Crier → Crier) : (s.modCrier u f).windows = s.windows := rfl
@[simp] theorem modCrier_cmds (u : Nat) (f : Crier → Crier) : (s.modCrier u f).cmds = s.cmds := rfl
@[simp] theorem modCrier_mxvs (u : Nat) (f : Crier → Crier) : (s.modCrier u f).mxvs = s.mxvs := rfl
@[simp] theorem modCrier_tables (u : Nat) (f : Crier → Crier) : (s.modCrier u f).tables = s.tables := rfl
@[simp] theorem modCrier_host (u : Nat) (f : Crier → Crier) : (s.modCrier u f).host = s.host := rfl
@[simp] theorem modCrier_clock (u : Nat) (f : Crier → Crier) : (s.modCrier u f).clock = s.clock := rfl
@[simp] theorem modCrier_agenda (u : Nat) (f : Crier → Crier) : (s.modCrier u f).agenda = s.agenda := rfl
@[simp] theorem modCrier_visit (u : Nat) (f : Crier → Crier) : (s.modCrier u f).visit = s.visit := rfl
@[simp] theorem modCrier_free (u : Nat) (f : Crier → Crier) : (s.modCrier u f).free = s.free := rfl
@[simp] theorem modCrier_iss (u : Nat) (f : Crier → Crier) : (s.modCrier u f).iss = s.iss := rfl
@[simp] theorem modCrier_nextId (u : Nat) (f : Crier → Crier) : (s.modCrier u f).nextId = s.nextId := rfl
@[simp] theorem modCrier_dlost (u : Nat) (f : Crier → Crier) : (s.modCrier u f).dlost = s.dlost := rfl

/-! ## modTable -/

@[simp] theorem modTable_cores (part tw : Nat) (f : Table → Table) : (s.modTable part tw f).cores = s.cores := rfl
@[simp] theorem modTable_blocks (part tw : Nat) (f : Table → Table) : (s.modTable part tw f).blocks = s.blocks := rfl
@[simp] theorem modTable_grids (part tw : Nat) (f : Table → Table) : (s.modTable part tw f).grids = s.grids := rfl
@[simp] theorem modTable_ready (part tw : Nat) (f : Table → Table) : (s.modTable part tw f).ready = s.ready := rfl
@[simp] theorem modTable_parked (part tw : Nat) (f : Table → Table) : (s.modTable part tw f).parked = s.parked := rfl
@[simp] theorem modTable_parts (part tw : Nat) (f : Table → Table) : (s.modTable part tw f).parts = s.parts := rfl
@[simp] theorem modTable_frames (part tw : Nat) (f : Table → Table) : (s.modTable part tw f).frames = s.frames := rfl
@[simp] theorem modTable_wdogLim (part tw : Nat) (f : Table → Table) : (s.modTable part tw f).wdogLim = s.wdogLim := rfl
@[simp] theorem modTable_seqNo (part tw : Nat) (f : Table → Table) : (s.modTable part tw f).seqNo = s.seqNo := rfl
@[simp] theorem modTable_recs (part tw : Nat) (f : Table → Table) : (s.modTable part tw f).recs = s.recs := rfl
@[simp] theorem modTable_mram (part tw : Nat) (f : Table → Table) : (s.modTable part tw f).mram = s.mram := rfl
@[simp] theorem modTable_mem (part tw : Nat) (f : Table → Table) : (s.modTable part tw f).mem = s.mem := rfl
@[simp] theorem modTable_memKey (part tw : Nat) (f : Table → Table) : (s.modTable part tw f).memKey = s.memKey := rfl
@[simp] theorem modTable_poison (part tw : Nat) (f : Table → Table) : (s.modTable part tw f).poison = s.poison := rfl
@[simp] theorem modTable_l3 (part tw : Nat) (f : Table → Table) : (s.modTable part tw f).l3 = s.l3 := rfl
@[simp] theorem modTable_l2 (part tw : Nat) (f : Table → Table) : (s.modTable part tw f).l2 = s.l2 := rfl
@[simp] theorem modTable_wo (part tw : Nat) (f : Table → Table) : (s.modTable part tw f).wo = s.wo := rfl
@[simp] theorem modTable_netw (part tw : Nat) (f : Table → Table) : (s.modTable part tw f).netw = s.netw := rfl
@[simp] theorem modTable_l2w (part tw : Nat) (f : Table → Table) : (s.modTable part tw f).l2w = s.l2w := rfl
@[simp] theorem modTable_dir (part tw : Nat) (f : Table → Table) : (s.modTable part tw f).dir = s.dir := rfl
@[simp] theorem modTable_dirQ (part tw : Nat) (f : Table → Table) : (s.modTable part tw f).dirQ = s.dirQ := rfl
@[simp] theorem modTable_recQ (part tw : Nat) (f : Table → Table) : (s.modTable part tw f).recQ = s.recQ := rfl
@[simp] theorem modTable_ackQ (part tw : Nat) (f : Table → Table) : (s.modTable part tw f).ackQ = s.ackQ := rfl
@[simp] theorem modTable_lost (part tw : Nat) (f : Table → Table) : (s.modTable part tw f).lost = s.lost := rfl
@[simp] theorem modTable_atomQ (part tw : Nat) (f : Table → Table) : (s.modTable part tw f).atomQ = s.atomQ := rfl
@[simp] theorem modTable_addQ (part tw : Nat) (f : Table → Table) : (s.modTable part tw f).addQ = s.addQ := rfl
@[simp] theorem modTable_partials (part tw : Nat) (f : Table → Table) : (s.modTable part tw f).partials = s.partials := rfl
@[simp] theorem modTable_partQ (part tw : Nat) (f : Table → Table) : (s.modTable part tw f).partQ = s.partQ := rfl
@[simp] theorem modTable_pv (part tw : Nat) (f : Table → Table) : (s.modTable part tw f).pv = s.pv := rfl
@[simp] theorem modTable_walkCache (part tw : Nat) (f : Table → Table) : (s.modTable part tw f).walkCache = s.walkCache := rfl
@[simp] theorem modTable_checks (part tw : Nat) (f : Table → Table) : (s.modTable part tw f).checks = s.checks := rfl
@[simp] theorem modTable_retiring (part tw : Nat) (f : Table → Table) : (s.modTable part tw f).retiring = s.retiring := rfl
@[simp] theorem modTable_shooting (part tw : Nat) (f : Table → Table) : (s.modTable part tw f).shooting = s.shooting := rfl
@[simp] theorem modTable_lostRead (part tw : Nat) (f : Table → Table) : (s.modTable part tw f).lostRead = s.lostRead := rfl
@[simp] theorem modTable_fatb (part tw : Nat) (f : Table → Table) : (s.modTable part tw f).fatb = s.fatb := rfl
@[simp] theorem modTable_fn (part tw : Nat) (f : Table → Table) : (s.modTable part tw f).fn = s.fn := rfl
@[simp] theorem modTable_keys (part tw : Nat) (f : Table → Table) : (s.modTable part tw f).keys = s.keys := rfl
@[simp] theorem modTable_windows (part tw : Nat) (f : Table → Table) : (s.modTable part tw f).windows = s.windows := rfl
@[simp] theorem modTable_cmds (part tw : Nat) (f : Table → Table) : (s.modTable part tw f).cmds = s.cmds := rfl
@[simp] theorem modTable_mxvs (part tw : Nat) (f : Table → Table) : (s.modTable part tw f).mxvs = s.mxvs := rfl
@[simp] theorem modTable_criers (part tw : Nat) (f : Table → Table) : (s.modTable part tw f).criers = s.criers := rfl
@[simp] theorem modTable_host (part tw : Nat) (f : Table → Table) : (s.modTable part tw f).host = s.host := rfl
@[simp] theorem modTable_clock (part tw : Nat) (f : Table → Table) : (s.modTable part tw f).clock = s.clock := rfl
@[simp] theorem modTable_agenda (part tw : Nat) (f : Table → Table) : (s.modTable part tw f).agenda = s.agenda := rfl
@[simp] theorem modTable_visit (part tw : Nat) (f : Table → Table) : (s.modTable part tw f).visit = s.visit := rfl
@[simp] theorem modTable_free (part tw : Nat) (f : Table → Table) : (s.modTable part tw f).free = s.free := rfl
@[simp] theorem modTable_iss (part tw : Nat) (f : Table → Table) : (s.modTable part tw f).iss = s.iss := rfl
@[simp] theorem modTable_nextId (part tw : Nat) (f : Table → Table) : (s.modTable part tw f).nextId = s.nextId := rfl
@[simp] theorem modTable_dlost (part tw : Nat) (f : Table → Table) : (s.modTable part tw f).dlost = s.dlost := rfl

/-! ## modL2 -/

@[simp] theorem modL2_cores (sl line kid : Nat) (f : L2Line → L2Line) : (s.modL2 sl line kid f).cores = s.cores := rfl
@[simp] theorem modL2_blocks (sl line kid : Nat) (f : L2Line → L2Line) : (s.modL2 sl line kid f).blocks = s.blocks := rfl
@[simp] theorem modL2_grids (sl line kid : Nat) (f : L2Line → L2Line) : (s.modL2 sl line kid f).grids = s.grids := rfl
@[simp] theorem modL2_ready (sl line kid : Nat) (f : L2Line → L2Line) : (s.modL2 sl line kid f).ready = s.ready := rfl
@[simp] theorem modL2_parked (sl line kid : Nat) (f : L2Line → L2Line) : (s.modL2 sl line kid f).parked = s.parked := rfl
@[simp] theorem modL2_parts (sl line kid : Nat) (f : L2Line → L2Line) : (s.modL2 sl line kid f).parts = s.parts := rfl
@[simp] theorem modL2_frames (sl line kid : Nat) (f : L2Line → L2Line) : (s.modL2 sl line kid f).frames = s.frames := rfl
@[simp] theorem modL2_wdogLim (sl line kid : Nat) (f : L2Line → L2Line) : (s.modL2 sl line kid f).wdogLim = s.wdogLim := rfl
@[simp] theorem modL2_seqNo (sl line kid : Nat) (f : L2Line → L2Line) : (s.modL2 sl line kid f).seqNo = s.seqNo := rfl
@[simp] theorem modL2_recs (sl line kid : Nat) (f : L2Line → L2Line) : (s.modL2 sl line kid f).recs = s.recs := rfl
@[simp] theorem modL2_mram (sl line kid : Nat) (f : L2Line → L2Line) : (s.modL2 sl line kid f).mram = s.mram := rfl
@[simp] theorem modL2_mem (sl line kid : Nat) (f : L2Line → L2Line) : (s.modL2 sl line kid f).mem = s.mem := rfl
@[simp] theorem modL2_memKey (sl line kid : Nat) (f : L2Line → L2Line) : (s.modL2 sl line kid f).memKey = s.memKey := rfl
@[simp] theorem modL2_poison (sl line kid : Nat) (f : L2Line → L2Line) : (s.modL2 sl line kid f).poison = s.poison := rfl
@[simp] theorem modL2_l3 (sl line kid : Nat) (f : L2Line → L2Line) : (s.modL2 sl line kid f).l3 = s.l3 := rfl
@[simp] theorem modL2_wo (sl line kid : Nat) (f : L2Line → L2Line) : (s.modL2 sl line kid f).wo = s.wo := rfl
@[simp] theorem modL2_netw (sl line kid : Nat) (f : L2Line → L2Line) : (s.modL2 sl line kid f).netw = s.netw := rfl
@[simp] theorem modL2_l2w (sl line kid : Nat) (f : L2Line → L2Line) : (s.modL2 sl line kid f).l2w = s.l2w := rfl
@[simp] theorem modL2_dir (sl line kid : Nat) (f : L2Line → L2Line) : (s.modL2 sl line kid f).dir = s.dir := rfl
@[simp] theorem modL2_dirQ (sl line kid : Nat) (f : L2Line → L2Line) : (s.modL2 sl line kid f).dirQ = s.dirQ := rfl
@[simp] theorem modL2_recQ (sl line kid : Nat) (f : L2Line → L2Line) : (s.modL2 sl line kid f).recQ = s.recQ := rfl
@[simp] theorem modL2_ackQ (sl line kid : Nat) (f : L2Line → L2Line) : (s.modL2 sl line kid f).ackQ = s.ackQ := rfl
@[simp] theorem modL2_lost (sl line kid : Nat) (f : L2Line → L2Line) : (s.modL2 sl line kid f).lost = s.lost := rfl
@[simp] theorem modL2_atomQ (sl line kid : Nat) (f : L2Line → L2Line) : (s.modL2 sl line kid f).atomQ = s.atomQ := rfl
@[simp] theorem modL2_addQ (sl line kid : Nat) (f : L2Line → L2Line) : (s.modL2 sl line kid f).addQ = s.addQ := rfl
@[simp] theorem modL2_partials (sl line kid : Nat) (f : L2Line → L2Line) : (s.modL2 sl line kid f).partials = s.partials := rfl
@[simp] theorem modL2_partQ (sl line kid : Nat) (f : L2Line → L2Line) : (s.modL2 sl line kid f).partQ = s.partQ := rfl
@[simp] theorem modL2_pv (sl line kid : Nat) (f : L2Line → L2Line) : (s.modL2 sl line kid f).pv = s.pv := rfl
@[simp] theorem modL2_walkCache (sl line kid : Nat) (f : L2Line → L2Line) : (s.modL2 sl line kid f).walkCache = s.walkCache := rfl
@[simp] theorem modL2_checks (sl line kid : Nat) (f : L2Line → L2Line) : (s.modL2 sl line kid f).checks = s.checks := rfl
@[simp] theorem modL2_retiring (sl line kid : Nat) (f : L2Line → L2Line) : (s.modL2 sl line kid f).retiring = s.retiring := rfl
@[simp] theorem modL2_shooting (sl line kid : Nat) (f : L2Line → L2Line) : (s.modL2 sl line kid f).shooting = s.shooting := rfl
@[simp] theorem modL2_lostRead (sl line kid : Nat) (f : L2Line → L2Line) : (s.modL2 sl line kid f).lostRead = s.lostRead := rfl
@[simp] theorem modL2_fatb (sl line kid : Nat) (f : L2Line → L2Line) : (s.modL2 sl line kid f).fatb = s.fatb := rfl
@[simp] theorem modL2_fn (sl line kid : Nat) (f : L2Line → L2Line) : (s.modL2 sl line kid f).fn = s.fn := rfl
@[simp] theorem modL2_keys (sl line kid : Nat) (f : L2Line → L2Line) : (s.modL2 sl line kid f).keys = s.keys := rfl
@[simp] theorem modL2_windows (sl line kid : Nat) (f : L2Line → L2Line) : (s.modL2 sl line kid f).windows = s.windows := rfl
@[simp] theorem modL2_cmds (sl line kid : Nat) (f : L2Line → L2Line) : (s.modL2 sl line kid f).cmds = s.cmds := rfl
@[simp] theorem modL2_mxvs (sl line kid : Nat) (f : L2Line → L2Line) : (s.modL2 sl line kid f).mxvs = s.mxvs := rfl
@[simp] theorem modL2_tables (sl line kid : Nat) (f : L2Line → L2Line) : (s.modL2 sl line kid f).tables = s.tables := rfl
@[simp] theorem modL2_criers (sl line kid : Nat) (f : L2Line → L2Line) : (s.modL2 sl line kid f).criers = s.criers := rfl
@[simp] theorem modL2_host (sl line kid : Nat) (f : L2Line → L2Line) : (s.modL2 sl line kid f).host = s.host := rfl
@[simp] theorem modL2_clock (sl line kid : Nat) (f : L2Line → L2Line) : (s.modL2 sl line kid f).clock = s.clock := rfl
@[simp] theorem modL2_agenda (sl line kid : Nat) (f : L2Line → L2Line) : (s.modL2 sl line kid f).agenda = s.agenda := rfl
@[simp] theorem modL2_visit (sl line kid : Nat) (f : L2Line → L2Line) : (s.modL2 sl line kid f).visit = s.visit := rfl
@[simp] theorem modL2_free (sl line kid : Nat) (f : L2Line → L2Line) : (s.modL2 sl line kid f).free = s.free := rfl
@[simp] theorem modL2_iss (sl line kid : Nat) (f : L2Line → L2Line) : (s.modL2 sl line kid f).iss = s.iss := rfl
@[simp] theorem modL2_nextId (sl line kid : Nat) (f : L2Line → L2Line) : (s.modL2 sl line kid f).nextId = s.nextId := rfl
@[simp] theorem modL2_dlost (sl line kid : Nat) (f : L2Line → L2Line) : (s.modL2 sl line kid f).dlost = s.dlost := rfl

/-! ## modDir -/

@[simp] theorem modDir_cores (rb sz kid : Nat) (f : DirEntry → DirEntry) : (s.modDir rb sz kid f).cores = s.cores := rfl
@[simp] theorem modDir_blocks (rb sz kid : Nat) (f : DirEntry → DirEntry) : (s.modDir rb sz kid f).blocks = s.blocks := rfl
@[simp] theorem modDir_grids (rb sz kid : Nat) (f : DirEntry → DirEntry) : (s.modDir rb sz kid f).grids = s.grids := rfl
@[simp] theorem modDir_ready (rb sz kid : Nat) (f : DirEntry → DirEntry) : (s.modDir rb sz kid f).ready = s.ready := rfl
@[simp] theorem modDir_parked (rb sz kid : Nat) (f : DirEntry → DirEntry) : (s.modDir rb sz kid f).parked = s.parked := rfl
@[simp] theorem modDir_parts (rb sz kid : Nat) (f : DirEntry → DirEntry) : (s.modDir rb sz kid f).parts = s.parts := rfl
@[simp] theorem modDir_frames (rb sz kid : Nat) (f : DirEntry → DirEntry) : (s.modDir rb sz kid f).frames = s.frames := rfl
@[simp] theorem modDir_wdogLim (rb sz kid : Nat) (f : DirEntry → DirEntry) : (s.modDir rb sz kid f).wdogLim = s.wdogLim := rfl
@[simp] theorem modDir_seqNo (rb sz kid : Nat) (f : DirEntry → DirEntry) : (s.modDir rb sz kid f).seqNo = s.seqNo := rfl
@[simp] theorem modDir_recs (rb sz kid : Nat) (f : DirEntry → DirEntry) : (s.modDir rb sz kid f).recs = s.recs := rfl
@[simp] theorem modDir_mram (rb sz kid : Nat) (f : DirEntry → DirEntry) : (s.modDir rb sz kid f).mram = s.mram := rfl
@[simp] theorem modDir_mem (rb sz kid : Nat) (f : DirEntry → DirEntry) : (s.modDir rb sz kid f).mem = s.mem := rfl
@[simp] theorem modDir_memKey (rb sz kid : Nat) (f : DirEntry → DirEntry) : (s.modDir rb sz kid f).memKey = s.memKey := rfl
@[simp] theorem modDir_poison (rb sz kid : Nat) (f : DirEntry → DirEntry) : (s.modDir rb sz kid f).poison = s.poison := rfl
@[simp] theorem modDir_l3 (rb sz kid : Nat) (f : DirEntry → DirEntry) : (s.modDir rb sz kid f).l3 = s.l3 := rfl
@[simp] theorem modDir_l2 (rb sz kid : Nat) (f : DirEntry → DirEntry) : (s.modDir rb sz kid f).l2 = s.l2 := rfl
@[simp] theorem modDir_wo (rb sz kid : Nat) (f : DirEntry → DirEntry) : (s.modDir rb sz kid f).wo = s.wo := rfl
@[simp] theorem modDir_netw (rb sz kid : Nat) (f : DirEntry → DirEntry) : (s.modDir rb sz kid f).netw = s.netw := rfl
@[simp] theorem modDir_l2w (rb sz kid : Nat) (f : DirEntry → DirEntry) : (s.modDir rb sz kid f).l2w = s.l2w := rfl
@[simp] theorem modDir_dirQ (rb sz kid : Nat) (f : DirEntry → DirEntry) : (s.modDir rb sz kid f).dirQ = s.dirQ := rfl
@[simp] theorem modDir_recQ (rb sz kid : Nat) (f : DirEntry → DirEntry) : (s.modDir rb sz kid f).recQ = s.recQ := rfl
@[simp] theorem modDir_ackQ (rb sz kid : Nat) (f : DirEntry → DirEntry) : (s.modDir rb sz kid f).ackQ = s.ackQ := rfl
@[simp] theorem modDir_lost (rb sz kid : Nat) (f : DirEntry → DirEntry) : (s.modDir rb sz kid f).lost = s.lost := rfl
@[simp] theorem modDir_atomQ (rb sz kid : Nat) (f : DirEntry → DirEntry) : (s.modDir rb sz kid f).atomQ = s.atomQ := rfl
@[simp] theorem modDir_addQ (rb sz kid : Nat) (f : DirEntry → DirEntry) : (s.modDir rb sz kid f).addQ = s.addQ := rfl
@[simp] theorem modDir_partials (rb sz kid : Nat) (f : DirEntry → DirEntry) : (s.modDir rb sz kid f).partials = s.partials := rfl
@[simp] theorem modDir_partQ (rb sz kid : Nat) (f : DirEntry → DirEntry) : (s.modDir rb sz kid f).partQ = s.partQ := rfl
@[simp] theorem modDir_pv (rb sz kid : Nat) (f : DirEntry → DirEntry) : (s.modDir rb sz kid f).pv = s.pv := rfl
@[simp] theorem modDir_walkCache (rb sz kid : Nat) (f : DirEntry → DirEntry) : (s.modDir rb sz kid f).walkCache = s.walkCache := rfl
@[simp] theorem modDir_checks (rb sz kid : Nat) (f : DirEntry → DirEntry) : (s.modDir rb sz kid f).checks = s.checks := rfl
@[simp] theorem modDir_retiring (rb sz kid : Nat) (f : DirEntry → DirEntry) : (s.modDir rb sz kid f).retiring = s.retiring := rfl
@[simp] theorem modDir_shooting (rb sz kid : Nat) (f : DirEntry → DirEntry) : (s.modDir rb sz kid f).shooting = s.shooting := rfl
@[simp] theorem modDir_lostRead (rb sz kid : Nat) (f : DirEntry → DirEntry) : (s.modDir rb sz kid f).lostRead = s.lostRead := rfl
@[simp] theorem modDir_fatb (rb sz kid : Nat) (f : DirEntry → DirEntry) : (s.modDir rb sz kid f).fatb = s.fatb := rfl
@[simp] theorem modDir_fn (rb sz kid : Nat) (f : DirEntry → DirEntry) : (s.modDir rb sz kid f).fn = s.fn := rfl
@[simp] theorem modDir_keys (rb sz kid : Nat) (f : DirEntry → DirEntry) : (s.modDir rb sz kid f).keys = s.keys := rfl
@[simp] theorem modDir_windows (rb sz kid : Nat) (f : DirEntry → DirEntry) : (s.modDir rb sz kid f).windows = s.windows := rfl
@[simp] theorem modDir_cmds (rb sz kid : Nat) (f : DirEntry → DirEntry) : (s.modDir rb sz kid f).cmds = s.cmds := rfl
@[simp] theorem modDir_mxvs (rb sz kid : Nat) (f : DirEntry → DirEntry) : (s.modDir rb sz kid f).mxvs = s.mxvs := rfl
@[simp] theorem modDir_tables (rb sz kid : Nat) (f : DirEntry → DirEntry) : (s.modDir rb sz kid f).tables = s.tables := rfl
@[simp] theorem modDir_criers (rb sz kid : Nat) (f : DirEntry → DirEntry) : (s.modDir rb sz kid f).criers = s.criers := rfl
@[simp] theorem modDir_host (rb sz kid : Nat) (f : DirEntry → DirEntry) : (s.modDir rb sz kid f).host = s.host := rfl
@[simp] theorem modDir_clock (rb sz kid : Nat) (f : DirEntry → DirEntry) : (s.modDir rb sz kid f).clock = s.clock := rfl
@[simp] theorem modDir_agenda (rb sz kid : Nat) (f : DirEntry → DirEntry) : (s.modDir rb sz kid f).agenda = s.agenda := rfl
@[simp] theorem modDir_visit (rb sz kid : Nat) (f : DirEntry → DirEntry) : (s.modDir rb sz kid f).visit = s.visit := rfl
@[simp] theorem modDir_free (rb sz kid : Nat) (f : DirEntry → DirEntry) : (s.modDir rb sz kid f).free = s.free := rfl
@[simp] theorem modDir_iss (rb sz kid : Nat) (f : DirEntry → DirEntry) : (s.modDir rb sz kid f).iss = s.iss := rfl
@[simp] theorem modDir_nextId (rb sz kid : Nat) (f : DirEntry → DirEntry) : (s.modDir rb sz kid f).nextId = s.nextId := rfl
@[simp] theorem modDir_dlost (rb sz kid : Nat) (f : DirEntry → DirEntry) : (s.modDir rb sz kid f).dlost = s.dlost := rfl

/-! ## setReq -/

@[simp] theorem setReq_cores (r : DirReq) : (s.setReq r).cores = s.cores := rfl
@[simp] theorem setReq_blocks (r : DirReq) : (s.setReq r).blocks = s.blocks := rfl
@[simp] theorem setReq_grids (r : DirReq) : (s.setReq r).grids = s.grids := rfl
@[simp] theorem setReq_ready (r : DirReq) : (s.setReq r).ready = s.ready := rfl
@[simp] theorem setReq_parked (r : DirReq) : (s.setReq r).parked = s.parked := rfl
@[simp] theorem setReq_parts (r : DirReq) : (s.setReq r).parts = s.parts := rfl
@[simp] theorem setReq_frames (r : DirReq) : (s.setReq r).frames = s.frames := rfl
@[simp] theorem setReq_wdogLim (r : DirReq) : (s.setReq r).wdogLim = s.wdogLim := rfl
@[simp] theorem setReq_seqNo (r : DirReq) : (s.setReq r).seqNo = s.seqNo := rfl
@[simp] theorem setReq_recs (r : DirReq) : (s.setReq r).recs = s.recs := rfl
@[simp] theorem setReq_mram (r : DirReq) : (s.setReq r).mram = s.mram := rfl
@[simp] theorem setReq_mem (r : DirReq) : (s.setReq r).mem = s.mem := rfl
@[simp] theorem setReq_memKey (r : DirReq) : (s.setReq r).memKey = s.memKey := rfl
@[simp] theorem setReq_poison (r : DirReq) : (s.setReq r).poison = s.poison := rfl
@[simp] theorem setReq_l3 (r : DirReq) : (s.setReq r).l3 = s.l3 := rfl
@[simp] theorem setReq_l2 (r : DirReq) : (s.setReq r).l2 = s.l2 := rfl
@[simp] theorem setReq_wo (r : DirReq) : (s.setReq r).wo = s.wo := rfl
@[simp] theorem setReq_netw (r : DirReq) : (s.setReq r).netw = s.netw := rfl
@[simp] theorem setReq_l2w (r : DirReq) : (s.setReq r).l2w = s.l2w := rfl
@[simp] theorem setReq_dir (r : DirReq) : (s.setReq r).dir = s.dir := rfl
@[simp] theorem setReq_recQ (r : DirReq) : (s.setReq r).recQ = s.recQ := rfl
@[simp] theorem setReq_ackQ (r : DirReq) : (s.setReq r).ackQ = s.ackQ := rfl
@[simp] theorem setReq_lost (r : DirReq) : (s.setReq r).lost = s.lost := rfl
@[simp] theorem setReq_atomQ (r : DirReq) : (s.setReq r).atomQ = s.atomQ := rfl
@[simp] theorem setReq_addQ (r : DirReq) : (s.setReq r).addQ = s.addQ := rfl
@[simp] theorem setReq_partials (r : DirReq) : (s.setReq r).partials = s.partials := rfl
@[simp] theorem setReq_partQ (r : DirReq) : (s.setReq r).partQ = s.partQ := rfl
@[simp] theorem setReq_pv (r : DirReq) : (s.setReq r).pv = s.pv := rfl
@[simp] theorem setReq_walkCache (r : DirReq) : (s.setReq r).walkCache = s.walkCache := rfl
@[simp] theorem setReq_checks (r : DirReq) : (s.setReq r).checks = s.checks := rfl
@[simp] theorem setReq_retiring (r : DirReq) : (s.setReq r).retiring = s.retiring := rfl
@[simp] theorem setReq_shooting (r : DirReq) : (s.setReq r).shooting = s.shooting := rfl
@[simp] theorem setReq_lostRead (r : DirReq) : (s.setReq r).lostRead = s.lostRead := rfl
@[simp] theorem setReq_fatb (r : DirReq) : (s.setReq r).fatb = s.fatb := rfl
@[simp] theorem setReq_fn (r : DirReq) : (s.setReq r).fn = s.fn := rfl
@[simp] theorem setReq_keys (r : DirReq) : (s.setReq r).keys = s.keys := rfl
@[simp] theorem setReq_windows (r : DirReq) : (s.setReq r).windows = s.windows := rfl
@[simp] theorem setReq_cmds (r : DirReq) : (s.setReq r).cmds = s.cmds := rfl
@[simp] theorem setReq_mxvs (r : DirReq) : (s.setReq r).mxvs = s.mxvs := rfl
@[simp] theorem setReq_tables (r : DirReq) : (s.setReq r).tables = s.tables := rfl
@[simp] theorem setReq_criers (r : DirReq) : (s.setReq r).criers = s.criers := rfl
@[simp] theorem setReq_host (r : DirReq) : (s.setReq r).host = s.host := rfl
@[simp] theorem setReq_clock (r : DirReq) : (s.setReq r).clock = s.clock := rfl
@[simp] theorem setReq_agenda (r : DirReq) : (s.setReq r).agenda = s.agenda := rfl
@[simp] theorem setReq_visit (r : DirReq) : (s.setReq r).visit = s.visit := rfl
@[simp] theorem setReq_free (r : DirReq) : (s.setReq r).free = s.free := rfl
@[simp] theorem setReq_iss (r : DirReq) : (s.setReq r).iss = s.iss := rfl
@[simp] theorem setReq_nextId (r : DirReq) : (s.setReq r).nextId = s.nextId := rfl
@[simp] theorem setReq_dlost (r : DirReq) : (s.setReq r).dlost = s.dlost := rfl
/-! ## What the updated fields read as -/

theorem find_updFirst_same {α : Type} {p : α → Bool} {f : α → α} (hf : ∀ a, p a = true → p (f a) = true) (l : List α) :
    (updFirst p f l).find? p = (l.find? p).map f := by
  induction l with
  | nil => rfl
  | cons a l ih =>
    cases h : p a
    · simp [updFirst, h, ih]
    · simp [updFirst, h, hf a h]

theorem find_updFirst_other {α : Type} {p q : α → Bool} {f : α → α} (hq : ∀ a, p a = true → q a = false ∧ q (f a) = false) (l : List α) :
    (updFirst p f l).find? q = l.find? q := by
  induction l with
  | nil => rfl
  | cons a l ih =>
    cases h : p a
    · simp only [updFirst, h, Bool.false_eq_true, if_false, List.find?_cons, ih]
    · simp [updFirst, h, (hq a h).1, (hq a h).2]

@[simp] theorem updFirst_length {α : Type} (p : α → Bool) (f : α → α) (l : List α) : (updFirst p f l).length = l.length := by
  induction l with
  | nil => rfl
  | cons a l ih => cases h : p a <;> simp [updFirst, h, ih]

@[simp] theorem updAt_length {α : Type} (f : α → α) (i : Nat) (l : List α) : (updAt f i l).length = l.length := by
  induction l generalizing i with
  | nil => cases i <;> rfl
  | cons a l ih => cases i <;> simp [updAt, ih]

theorem updAt_get {α : Type} (f : α → α) (i j : Nat) (l : List α) : (updAt f i l)[j]? = if j = i then (l[j]?).map f else l[j]? := by
  induction l generalizing i j with
  | nil => cases i <;> simp [updAt]
  | cons a l ih =>
    cases i with
    | zero => cases j <;> simp [updAt]
    | succ i => cases j <;> simp [updAt, ih]

/-- A block after a change of its own that keeps its identity. -/
theorem blk_modBlk_same {bid : Nat} {f : Block → Block} (hf : ∀ b, (f b).bid = b.bid)
    (hb : (s.blocks.find? (fun b => b.bid == bid)).isSome) : (s.modBlk bid f).blk bid = f (s.blk bid) := by
  simp only [State.blk, State.modBlk]
  rw [find_updFirst_same (fun a h => by rw [hf]; exact h)]
  cases h : s.blocks.find? (fun b => b.bid == bid) with
  | none => simp [h] at hb
  | some b => rfl

theorem blk_modBlk_absent {bid : Nat} {f : Block → Block} (hf : ∀ b, (f b).bid = b.bid)
    (hb : (s.blocks.find? (fun b => b.bid == bid)).isSome = false) : (s.modBlk bid f).blk bid = s.blk bid := by
  simp only [State.blk, State.modBlk]
  rw [find_updFirst_same (fun a h => by rw [hf]; exact h)]
  cases h : s.blocks.find? (fun b => b.bid == bid) with
  | none => rfl
  | some b => simp [h] at hb

/-- Another block stays as it is. -/
theorem blk_modBlk_other {bid other : Nat} {f : Block → Block} (hf : ∀ b, (f b).bid = b.bid) (h : other ≠ bid) :
    (s.modBlk bid f).blk other = s.blk other := by
  simp only [State.blk, State.modBlk]
  rw [find_updFirst_other]
  intro a ha
  have : a.bid = bid := by simpa using ha
  simp [hf, this, Ne.symm h]

/-- A slice after a change of another. -/
theorem Block.sl_modSl (b : Block) (i j : Nat) (f : Slice → Slice) (hi : i < b.slices.length) :
    (b.modSl i f).sl j = if j = i then f (b.sl i) else b.sl j := by
  simp only [Block.sl, Block.modSl, updAt_get]
  split
  · next h =>
    subst h
    cases h : b.slices[j]? with
    | none => rw [List.getElem?_eq_none_iff] at h; omega
    | some sl => rfl
  · rfl

@[simp] theorem Block.modSl_bid (b : Block) (i : Nat) (f : Slice → Slice) : (b.modSl i f).bid = b.bid := rfl
@[simp] theorem Block.modSl_length (b : Block) (i : Nat) (f : Slice → Slice) : (b.modSl i f).slices.length = b.slices.length := by
  simp [Block.modSl]

theorem sl_modSl_same {bid i : Nat} {f : Slice → Slice} (hb : (s.blocks.find? (fun b => b.bid == bid)).isSome)
    (hi : i < (s.blk bid).slices.length) : (s.modSl bid i f).sl bid i = f (s.sl bid i) := by
  simp only [State.sl, State.modSl]
  rw [blk_modBlk_same s (f := fun b => b.modSl i f) (fun _ => rfl) hb, Block.sl_modSl _ _ _ _ hi, if_pos rfl]

theorem sl_modSl_other {bid other i j : Nat} {f : Slice → Slice} (h : other ≠ bid ∨ j ≠ i) :
    (s.modSl bid i f).sl other j = s.sl other j := by
  simp only [State.sl, State.modSl]
  by_cases ho : other = bid
  · subst ho
    have hj : j ≠ i := by simpa using h
    by_cases hb : (s.blocks.find? (fun b => b.bid == other)).isSome
    · rw [blk_modBlk_same s (f := fun b => b.modSl i f) (fun _ => rfl) hb]
      simp only [Block.sl, Block.modSl, updAt_get, if_neg hj]
    · rw [blk_modBlk_absent s (f := fun b => b.modSl i f) (fun _ => rfl) (by simpa using hb)]
  · rw [blk_modBlk_other s (f := fun b => b.modSl i f) (fun _ => rfl) ho]

/-- A block is present after a change of any. -/
theorem present_modBlk {bid other : Nat} {f : Block → Block} (hf : ∀ b, (f b).bid = b.bid) :
    (((s.modBlk bid f).blocks).find? (fun b => b.bid == other)).isSome = (s.blocks.find? (fun b => b.bid == other)).isSome := by
  simp only [State.modBlk]
  by_cases h : other = bid
  · subst h
    rw [find_updFirst_same (fun a ha => by rw [hf]; exact ha)]
    cases s.blocks.find? (fun b => b.bid == other) <;> rfl
  · rw [find_updFirst_other]
    intro a ha
    have : a.bid = bid := by simpa using ha
    simp [hf, this, Ne.symm h]

theorem slices_modSl {bid i other : Nat} {f : Slice → Slice} :
    ((s.modSl bid i f).blk other).slices.length = (s.blk other).slices.length := by
  simp only [State.modSl]
  by_cases h : other = bid
  · subst h
    by_cases hb : (s.blocks.find? (fun b => b.bid == other)).isSome
    · rw [blk_modBlk_same s (f := fun b => b.modSl i f) (fun _ => rfl) hb, Block.modSl_length]
    · rw [blk_modBlk_absent s (f := fun b => b.modSl i f) (fun _ => rfl) (by simpa using hb)]
  · rw [blk_modBlk_other s (f := fun b => b.modSl i f) (fun _ => rfl) h]

/-- A slice after a change of every listed one, each once. -/
theorem sl_forSlices {bid : Nat} {l : List Nat} {f : Nat → Slice → Slice} (hb : (s.blocks.find? (fun b => b.bid == bid)).isSome)
    (hn : l.Nodup) (hl : ∀ i ∈ l, i < (s.blk bid).slices.length) (j : Nat) :
    (s.forSlices bid l f).sl bid j = if j ∈ l then f j (s.sl bid j) else s.sl bid j := by
  induction l generalizing s with
  | nil => simp [State.forSlices]
  | cons i l ih =>
    have hi : i < (s.blk bid).slices.length := hl i (by simp)
    have hn' := List.nodup_cons.1 hn
    have step := ih (s.modSl bid i (f i)) ((present_modBlk s (f := fun b => b.modSl i (f i)) (fun _ => rfl)).trans hb) hn'.2
      (fun k hk => by rw [slices_modSl]; exact hl k (by simp [hk]))
    simp only [State.forSlices, List.foldl_cons] at step ⊢
    rw [step]
    by_cases hj : j ∈ l
    · have hne : j ≠ i := fun h => hn'.1 (h ▸ hj)
      rw [if_pos hj, if_pos (by simp [hj]), sl_modSl_other s (.inr hne)]
    · rw [if_neg hj]
      by_cases hji : j = i
      · subst hji
        rw [if_pos (by simp), sl_modSl_same s hb hi]
      · rw [if_neg (by simp [hj, hji]), sl_modSl_other s (.inr hji)]

end Sys2Proof.Machine
end

