-- ==== Sys2Proof/Tests/Slice0.lean ====
section
/-! SUPPORT. The model's own tests: ill-formed words refused check by check, one word of every instruction written out from the
specification's encoding, small steps with results worked out by hand from the rules, and a witness of the hypotheses of every statement. -/

open Sys2Proof Sys2Proof.Machine

namespace Sys2Proof.Tests

set_option maxRecDepth 100000
set_option Elab.async false

/-! ## Ill-formed instructions are refused (R46 to R67) -/

/-- Fields of a well-formed IADD, from which each ill-formed term below departs in one point. -/
def good : FormR :=
  { ty := .i32, md := 0, gp := 7, gn := false, dist := 0, setf := 15, yld := false, od := .lane 3 .w 0, oa := .lane 2 .w 0, ob := .imm 5, wm := 0 }

/-- The branch form of the same. -/
def goodL : FormL := { ty := .b32, md := 0, gp := 7, gn := false, dist := 0, setf := 15, yld := false, od := .none, oa := .none, imm := 12 }

theorem test_wf_good : (Instr.iadd good).wellFormed = true ∧ (Instr.bra goodL).wellFormed = true := by decide +kernel

/-- A type outside the row's set (R58). -/
theorem test_wf_type : (Instr.iadd { good with ty := .f32 }).wellFormed = false := by decide +kernel
/-- SETF 12 to 14 (R61). -/
theorem test_wf_setf : ∀ n ∈ [12, 13, 14], (Instr.iadd { good with setf := n }).wellFormed = false := by decide +kernel
/-- An unassigned MOD (R48). -/
theorem test_wf_mod : (Instr.iadd { good with md := 1 }).wellFormed = false := by decide +kernel
/-- Operand kinds that the row does not accept, in each field (R49, R115). -/
theorem test_wf_kinds : (Instr.iadd { good with od := .imm 1 }).wellFormed = false ∧ (Instr.iadd { good with oa := .pred 1 false }).wellFormed = false ∧
    (Instr.iadd { good with ob := .none }).wellFormed = false ∧ (Instr.iadd { good with ob := .tile 0 }).wellFormed = false := by decide +kernel
/-- A destination SEL that its view does not assign (R53). -/
theorem test_wf_sel : (Instr.iadd { good with od := .lane 3 .h 3 }).wellFormed = false ∧ (Instr.iadd { good with od := .lane 3 .w 7 }).wellFormed = false := by
  decide +kernel
/-- A special register that does not exist, and one that WRSR may not write (R55, R220). -/
theorem test_wf_sreg : (Instr.iadd { good with oa := .sreg 0x13 }).wellFormed = false ∧
    (Instr.wrsr { good with ty := .b32, od := .sreg 0x80, ob := .none }).wellFormed = false ∧
    (Instr.wrsr { good with ty := .b32, od := .sreg 0x81, ob := .none }).wellFormed = true := by decide +kernel
/-- A class-V register destination without a flag (R62). -/
theorem test_wf_flag : (Instr.idiv good).wellFormed = false ∧ (Instr.idiv { good with setf := 0 }).wellFormed = true := by decide +kernel
/-- An odd register of a pair (R51). -/
theorem test_wf_pair : (Instr.iadd64 { good with ty := .i64, od := .lane 3 .w 0 }).wellFormed = false ∧
    (Instr.iadd64 { good with ty := .i64, od := .lane 4 .w 0 }).wellFormed = true := by decide +kernel
/-- A view on a 64-bit operand (R51). -/
theorem test_wf_view : (Instr.iadd64 { good with ty := .i64, od := .lane 4 .h 1 }).wellFormed = false := by decide +kernel
/-- A descriptor whose register is no multiple of 4, or that passes k63 (R224, R252). -/
theorem test_wf_descriptor : (Instr.dcpy { good with ty := .b32, od := .none, oa := .uni 5 .w 0, ob := .none }).wellFormed = false ∧
    (Instr.dcpy { good with ty := .b32, od := .none, oa := .uni 60 .w 0, ob := .none }).wellFormed = false ∧
    (Instr.dcpy { good with ty := .b32, od := .none, oa := .uni 56 .w 0, ob := .none }).wellFormed = true := by decide +kernel
/-- A uniform destination of an instruction that is not uniform (R56). -/
theorem test_wf_uniform : (Instr.iadd { good with od := .uni 3 .w 0 }).wellFormed = false ∧
    (Instr.iadd { good with od := .uni 3 .w 0, oa := .uni 2 .w 0 }).wellFormed = true := by decide +kernel
/-- A negated predicate destination (R49). -/
theorem test_wf_predicate : (Instr.pmov { good with ty := .b32, od := .pred 1 true, oa := .pred 2 true, ob := .none }).wellFormed = false := by decide +kernel
/-- A guard on an instruction of the Always class (R187). -/
theorem test_wf_guard : (Instr.join { good with ty := .b32, gp := 1, od := .none, oa := .none, ob := .none }).wellFormed = false ∧
    (Instr.join { good with ty := .b32, od := .none, oa := .none, ob := .none }).wellFormed = true := by decide +kernel
/-- A view of nibbles where a store chooses bytes (R157). -/
theorem test_wf_nibbles : (Instr.st { good with ty := .i32, md := 4, od := .lane 3 .n 3, ob := .none, setf := 1 }).wellFormed = false := by decide +kernel
/-- A vector load's register that is no multiple of its count (R161, R162). -/
theorem test_wf_span : (Instr.ldv { good with md := 4, od := .lane 3 .w 0, ob := .none, setf := 1 }).wellFormed = false ∧
    (Instr.ldv { good with md := 4, od := .lane 4 .w 0, ob := .none, setf := 1 }).wellFormed = true := by decide +kernel

/-- Words that the decoder rejects, each by its name: an unassigned opcode, a type, reserved bits [95:92], a reserved resource number, a uniform register
past k63, and a predicate with a view. -/
theorem test_decode_refuses : decode 0x014 = .error .illegalOpcode ∧ decode 0x00009FFB0040006010880640 = .error (.illegalType 3) ∧
    decode 0x10009FFB0040006010880240 = .error (.illegalEncoding 3) ∧ decode 0x0000E000E000A20078380007 = .error (.illegalEncoding 0) ∧
    decode 0x00009FFB2800006010880240 = .error (.illegalEncoding 1) ∧ decode 0x00009FFB4028006010880240 = .error (.illegalEncoding 1) := by
  refine ⟨?_, ?_, ?_, ?_, ?_, ?_⟩ <;> rfl

/-! ## A word of every instruction, written out from R46 to R63 and the opcode map -/

/-- The words of the control group and the fields they hold. -/
def controlWords0 : List (W96 × Instr) := [
  (0x0005E000E000E000F8B80001, .nop { ty := .b32, md := 0, gp := 7, gn := false, dist := 1, setf := 15, yld := true, od := .none, oa := .none, ob := .none, wm := 5 }),
  (0x00002468E000E00079382002, .bra { ty := .b32, md := 1, gp := 7, gn := false, dist := 2, setf := 15, yld := false, od := .none, oa := .none, imm := 9320 }),
  (0x000FE0002200E000F8382003, .brx { ty := .b32, md := 1, gp := 7, gn := false, dist := 0, setf := 15, yld := true, od := .none, oa := .uni 16 .w 0, ob := .none, wm := 15 }),
  (0x000048D0E000210078B82004, .call { ty := .b32, md := 1, gp := 7, gn := false, dist := 1, setf := 15, yld := false, od := .uni 8 .w 0, oa := .none, imm := 18640 }),
  (0x0019E00022002100F9382005, .callx { ty := .b32, md := 1, gp := 7, gn := false, dist := 2, setf := 15, yld := true, od := .uni 8 .w 0, oa := .uni 16 .w 0, ob := .none, wm := 25 }),
  (0x001EE0002200E00078382006, .ret { ty := .b32, md := 1, gp := 7, gn := false, dist := 0, setf := 15, yld := false, od := .none, oa := .uni 16 .w 0, ob := .none, wm := 30 }),
  (0x0023E000E000E000F8B80007, .exit { ty := .b32, md := 0, gp := 7, gn := false, dist := 1, setf := 15, yld := true, od := .none, oa := .none, ob := .none, wm := 35 }),
  (0x000091A04040E00079380008, .pushj { ty := .b32, md := 0, gp := 7, gn := false, dist := 2, setf := 15, yld := false, od := .none, oa := .pred 2 false, imm := 37280 }),
  (0x002DE000E000E000F8380009, .join { ty := .b32, md := 0, gp := 7, gn := false, dist := 0, setf := 15, yld := true, od := .none, oa := .none, ob := .none, wm := 45 }),
  (0x0000B608E000E00078BBE00A, .regang { ty := .b32, md := 31, gp := 7, gn := false, dist := 1, setf := 15, yld := false, od := .none, oa := .none, imm := 46600 }),
  (0x0037E0004040E000F938000B, .part { ty := .b32, md := 0, gp := 7, gn := false, dist := 2, setf := 15, yld := true, od := .none, oa := .pred 2 false, ob := .none, wm := 55 }),
  (0x003CE000E00021007838600C, .refill { ty := .b32, md := 3, gp := 7, gn := false, dist := 0, setf := 15, yld := false, od := .uni 8 .w 0, oa := .none, ob := .none, wm := 60 })]
def controlWords1 : List (W96 × Instr) := [
  (0x0041E0002200E000F8B8000D, .tlaunch { ty := .b32, md := 0, gp := 7, gn := false, dist := 1, setf := 15, yld := true, od := .none, oa := .uni 16 .w 0, ob := .none, wm := 65 }),
  (0x0046E0002200E0007938000E, .yield { ty := .b32, md := 0, gp := 7, gn := false, dist := 2, setf := 15, yld := false, od := .none, oa := .uni 16 .w 0, ob := .none, wm := 70 }),
  (0x004BE0002200E000F838000F, .trap { ty := .b32, md := 0, gp := 7, gn := false, dist := 0, setf := 15, yld := true, od := .none, oa := .uni 16 .w 0, ob := .none, wm := 75 }),
  (0x0050E0002200E00078B80010, .brk { ty := .b32, md := 0, gp := 7, gn := false, dist := 1, setf := 15, yld := false, od := .none, oa := .uni 16 .w 0, ob := .none, wm := 80 }),
  (0x0055E00070000100F9380011, .rdsr { ty := .b32, md := 0, gp := 7, gn := false, dist := 2, setf := 15, yld := true, od := .lane 8 .w 0, oa := .sreg 128, ob := .none, wm := 85 }),
  (0x005AE0000180702078380012, .wrsr { ty := .b32, md := 0, gp := 7, gn := false, dist := 0, setf := 15, yld := false, od := .sreg 129, oa := .lane 12 .w 0, ob := .none, wm := 90 }),
  (0x005FE000E000E00088B80013, .ifence { ty := .b32, md := 0, gp := 7, gn := false, dist := 1, setf := 1, yld := true, od := .none, oa := .none, ob := .none, wm := 95 }),
  (0x0A3CE000018001007938E00C, .refillPush { ty := .b32, md := 7, gp := 7, gn := false, dist := 2, setf := 15, yld := false, od := .lane 8 .w 0, oa := .lane 12 .w 0, ob := .none, wm := 2620 })]
theorem test_words_control : (controlWords0 ++ controlWords1).all (fun p => decodeTableWord 96 p.1.toNat == some p.2) = true := by decide +kernel

/-- The reserved numbers and nonzero zero-bits of R49 are refused in the field where they stand: k64 in OA where k63 decodes, OD, OA and OB of kind
"none" with a nonzero NUM, p8 and a predicate with a VIEW, and tile 8. -/
theorem test_reserved_operands :
    (match decode 0x00009FFB27E0006010880240 with | .ok _ => true | .error _ => false) = true ∧
    [(0x00009FFB2800006010880240, 1), (0x00009FFB0040E02010880240, 0), (0x00009FFBE020006010880240, 1), (0x0000E0200040006010880240, 2),
      (0x000041000040006010880240, 2), (0x000040080040006010880240, 2), (0x0000C1000040006010880240, 2)].all
      (fun p => match decode (BitVec.ofNat 96 p.1) with | .error (.illegalEncoding n) => n == p.2 | _ => false) = true := by decide +kernel

/-- The words of the integer group and the fields they hold. -/
def integerWords0 : List (W96 × Instr) := [
  (0x014002000180010078B81240, .iadd { ty := .n8x4, md := 0, gp := 7, gn := false, dist := 1, setf := 15, yld := false, od := .lane 8 .w 0, oa := .lane 12 .w 0, ob := .lane 16 .w 0, wm := 320 }),
  (0x0145020001800100F9381241, .isub { ty := .n8x4, md := 0, gp := 7, gn := false, dist := 2, setf := 15, yld := true, od := .lane 8 .w 0, oa := .lane 12 .w 0, ob := .lane 16 .w 0, wm := 325 }),
  (0x014A02000180010078380442, .imul { ty := .n32, md := 0, gp := 7, gn := false, dist := 0, setf := 15, yld := false, od := .lane 8 .w 0, oa := .lane 12 .w 0, ob := .lane 16 .w 0, wm := 330 }),
  (0x014F020001800100F8B80443, .imulh { ty := .n32, md := 0, gp := 7, gn := false, dist := 1, setf := 15, yld := true, od := .lane 8 .w 0, oa := .lane 12 .w 0, ob := .lane 16 .w 0, wm := 335 }),
  (0x015402000180010079380444, .imad { ty := .n32, md := 0, gp := 7, gn := false, dist := 2, setf := 15, yld := false, od := .lane 8 .w 0, oa := .lane 12 .w 0, ob := .lane 16 .w 0, wm := 340 }),
  (0x0159020001800100F8380445, .imadw { ty := .n32, md := 0, gp := 7, gn := false, dist := 0, setf := 15, yld := true, od := .lane 8 .w 0, oa := .lane 12 .w 0, ob := .lane 16 .w 0, wm := 345 }),
  (0x015E02000180010008B80446, .idiv { ty := .n32, md := 0, gp := 7, gn := false, dist := 1, setf := 1, yld := false, od := .lane 8 .w 0, oa := .lane 12 .w 0, ob := .lane 16 .w 0, wm := 350 }),
  (0x016302000180010089380447, .irem { ty := .n32, md := 0, gp := 7, gn := false, dist := 2, setf := 1, yld := true, od := .lane 8 .w 0, oa := .lane 12 .w 0, ob := .lane 16 .w 0, wm := 355 }),
  (0x016802000180010078381248, .imin { ty := .n8x4, md := 0, gp := 7, gn := false, dist := 0, setf := 15, yld := false, od := .lane 8 .w 0, oa := .lane 12 .w 0, ob := .lane 16 .w 0, wm := 360 }),
  (0x016D020001800100F8B81249, .imax { ty := .n8x4, md := 0, gp := 7, gn := false, dist := 1, setf := 15, yld := true, od := .lane 8 .w 0, oa := .lane 12 .w 0, ob := .lane 16 .w 0, wm := 365 }),
  (0x0172E000018001007938324A, .iabs { ty := .n8x4, md := 1, gp := 7, gn := false, dist := 2, setf := 15, yld := false, od := .lane 8 .w 0, oa := .lane 12 .w 0, ob := .none, wm := 370 }),
  (0x0177E00001800100F838324B, .ineg { ty := .n8x4, md := 1, gp := 7, gn := false, dist := 0, setf := 15, yld := true, od := .lane 8 .w 0, oa := .lane 12 .w 0, ob := .none, wm := 375 })]
def integerWords1 : List (W96 × Instr) := [
  (0x017C02000180010078B8E44C, .iaddc { ty := .n32, md := 7, gp := 7, gn := false, dist := 1, setf := 15, yld := false, od := .lane 8 .w 0, oa := .lane 12 .w 0, ob := .lane 16 .w 0, wm := 380 }),
  (0x0181020001800100F938E44D, .isubb { ty := .n32, md := 7, gp := 7, gn := false, dist := 2, setf := 15, yld := true, od := .lane 8 .w 0, oa := .lane 12 .w 0, ob := .lane 16 .w 0, wm := 385 }),
  (0x01860200018001007838124E, .shl { ty := .n8x4, md := 0, gp := 7, gn := false, dist := 0, setf := 15, yld := false, od := .lane 8 .w 0, oa := .lane 12 .w 0, ob := .lane 16 .w 0, wm := 390 }),
  (0x018B020001800100F8B8124F, .shr { ty := .n8x4, md := 0, gp := 7, gn := false, dist := 1, setf := 15, yld := true, od := .lane 8 .w 0, oa := .lane 12 .w 0, ob := .lane 16 .w 0, wm := 395 }),
  (0x019002000180010079381250, .sar { ty := .n8x4, md := 0, gp := 7, gn := false, dist := 2, setf := 15, yld := false, od := .lane 8 .w 0, oa := .lane 12 .w 0, ob := .lane 16 .w 0, wm := 400 }),
  (0x0195020001800100F8382051, .rot { ty := .b32, md := 1, gp := 7, gn := false, dist := 0, setf := 15, yld := true, od := .lane 8 .w 0, oa := .lane 12 .w 0, ob := .lane 16 .w 0, wm := 405 }),
  (0x019A02000180010078B80052, .andW { ty := .b32, md := 0, gp := 7, gn := false, dist := 1, setf := 15, yld := false, od := .lane 8 .w 0, oa := .lane 12 .w 0, ob := .lane 16 .w 0, wm := 410 }),
  (0x019F020001800100F9380053, .orW { ty := .b32, md := 0, gp := 7, gn := false, dist := 2, setf := 15, yld := true, od := .lane 8 .w 0, oa := .lane 12 .w 0, ob := .lane 16 .w 0, wm := 415 }),
  (0x01A402000180010078380054, .xorW { ty := .b32, md := 0, gp := 7, gn := false, dist := 0, setf := 15, yld := false, od := .lane 8 .w 0, oa := .lane 12 .w 0, ob := .lane 16 .w 0, wm := 420 }),
  (0x01A9020001800100F8B80055, .andn { ty := .b32, md := 0, gp := 7, gn := false, dist := 1, setf := 15, yld := true, od := .lane 8 .w 0, oa := .lane 12 .w 0, ob := .lane 16 .w 0, wm := 425 }),
  (0x01AEE0000180010079380056, .notW { ty := .b32, md := 0, gp := 7, gn := false, dist := 2, setf := 15, yld := false, od := .lane 8 .w 0, oa := .lane 12 .w 0, ob := .none, wm := 430 }),
  (0x01B3020001800100F8380457, .bfe { ty := .n32, md := 0, gp := 7, gn := false, dist := 0, setf := 15, yld := true, od := .lane 8 .w 0, oa := .lane 12 .w 0, ob := .lane 16 .w 0, wm := 435 })]
def integerWords2 : List (W96 × Instr) := [
  (0x01B802000180010078B80058, .bfi { ty := .b32, md := 0, gp := 7, gn := false, dist := 1, setf := 15, yld := false, od := .lane 8 .w 0, oa := .lane 12 .w 0, ob := .lane 16 .w 0, wm := 440 }),
  (0x01BDE00001800100F9380059, .popc { ty := .b32, md := 0, gp := 7, gn := false, dist := 2, setf := 15, yld := true, od := .lane 8 .w 0, oa := .lane 12 .w 0, ob := .none, wm := 445 }),
  (0x01C2E000018001007838005A, .clz { ty := .b32, md := 0, gp := 7, gn := false, dist := 0, setf := 15, yld := false, od := .lane 8 .w 0, oa := .lane 12 .w 0, ob := .none, wm := 450 }),
  (0x01C7E00001800100F8B8005B, .ctz { ty := .b32, md := 0, gp := 7, gn := false, dist := 1, setf := 15, yld := true, od := .lane 8 .w 0, oa := .lane 12 .w 0, ob := .none, wm := 455 }),
  (0x01CCE000018001007938005C, .brev { ty := .b32, md := 0, gp := 7, gn := false, dist := 2, setf := 15, yld := false, od := .lane 8 .w 0, oa := .lane 12 .w 0, ob := .none, wm := 460 }),
  (0x01D1020001800100F838E05D, .lea { ty := .b32, md := 7, gp := 7, gn := false, dist := 0, setf := 15, yld := true, od := .lane 8 .w 0, oa := .lane 12 .w 0, ob := .lane 16 .w 0, wm := 465 }),
  (0x01D602000180010078B8FA5E, .lea64 { ty := .n64, md := 7, gp := 7, gn := false, dist := 1, setf := 15, yld := false, od := .lane 8 .w 0, oa := .lane 12 .w 0, ob := .lane 16 .w 0, wm := 470 }),
  (0x01DBE00001800100F938005F, .mov { ty := .b32, md := 0, gp := 7, gn := false, dist := 2, setf := 15, yld := true, od := .lane 8 .w 0, oa := .lane 12 .w 0, ob := .none, wm := 475 }),
  (0x0006D380E000010078380060, .movi { ty := .b32, md := 0, gp := 7, gn := false, dist := 0, setf := 15, yld := false, od := .lane 8 .w 0, oa := .none, imm := 447360 }),
  (0x0006E5B401800100F8B80061, .movh { ty := .b32, md := 0, gp := 7, gn := false, dist := 1, setf := 15, yld := true, od := .lane 8 .w 0, oa := .lane 12 .w 0, imm := 452020 }),
  (0x01EA0200018001007939E062, .sel { ty := .b32, md := 15, gp := 7, gn := false, dist := 2, setf := 15, yld := false, od := .lane 8 .w 0, oa := .lane 12 .w 0, ob := .lane 16 .w 0, wm := 490 }),
  (0x01EF020001804020F838A463, .itst { ty := .n32, md := 5, gp := 7, gn := false, dist := 0, setf := 15, yld := true, od := .pred 1 false, oa := .lane 12 .w 0, ob := .lane 16 .w 0, wm := 495 })]
def integerWords3 : List (W96 × Instr) := [
  (0x01F402000180010078B8B264, .icmp { ty := .n8x4, md := 5, gp := 7, gn := false, dist := 1, setf := 15, yld := false, od := .lane 8 .w 0, oa := .lane 12 .w 0, ob := .lane 16 .w 0, wm := 500 }),
  (0x01F9020001800100F9381A65, .iadd64 { ty := .n64, md := 0, gp := 7, gn := false, dist := 2, setf := 15, yld := true, od := .lane 8 .w 0, oa := .lane 12 .w 0, ob := .lane 16 .w 0, wm := 505 }),
  (0x01FE02000180010078381A66, .isub64 { ty := .n64, md := 0, gp := 7, gn := false, dist := 0, setf := 15, yld := false, od := .lane 8 .w 0, oa := .lane 12 .w 0, ob := .lane 16 .w 0, wm := 510 }),
  (0x0203020001800100F8B81A67, .imul64 { ty := .n64, md := 0, gp := 7, gn := false, dist := 1, setf := 15, yld := true, od := .lane 8 .w 0, oa := .lane 12 .w 0, ob := .lane 16 .w 0, wm := 515 }),
  (0x020802000180010079381A68, .shl64 { ty := .n64, md := 0, gp := 7, gn := false, dist := 2, setf := 15, yld := false, od := .lane 8 .w 0, oa := .lane 12 .w 0, ob := .lane 16 .w 0, wm := 520 }),
  (0x020D020001800100F8381A69, .shr64 { ty := .n64, md := 0, gp := 7, gn := false, dist := 0, setf := 15, yld := true, od := .lane 8 .w 0, oa := .lane 12 .w 0, ob := .lane 16 .w 0, wm := 525 })]
theorem test_words_integer : (integerWords0 ++ integerWords1 ++ integerWords2 ++ integerWords3).all (fun p => decodeTableWord 96 p.1.toNat == some p.2) = true := by decide +kernel

/-- The words of the float group and the fields they hold. -/
def floatWords0 : List (W96 × Instr) := [
  (0x028002000180010079386680, .fadd { ty := .f32, md := 3, gp := 7, gn := false, dist := 2, setf := 15, yld := false, od := .lane 8 .w 0, oa := .lane 12 .w 0, ob := .lane 16 .w 0, wm := 640 }),
  (0x0285020001800100F8386681, .fsub { ty := .f32, md := 3, gp := 7, gn := false, dist := 0, setf := 15, yld := true, od := .lane 8 .w 0, oa := .lane 12 .w 0, ob := .lane 16 .w 0, wm := 645 }),
  (0x028A02000180010078B86682, .fmul { ty := .f32, md := 3, gp := 7, gn := false, dist := 1, setf := 15, yld := false, od := .lane 8 .w 0, oa := .lane 12 .w 0, ob := .lane 16 .w 0, wm := 650 }),
  (0x028F020001800100F9386683, .ffma { ty := .f32, md := 3, gp := 7, gn := false, dist := 2, setf := 15, yld := true, od := .lane 8 .w 0, oa := .lane 12 .w 0, ob := .lane 16 .w 0, wm := 655 }),
  (0x029402000180010078380684, .fmin { ty := .f32, md := 0, gp := 7, gn := false, dist := 0, setf := 15, yld := false, od := .lane 8 .w 0, oa := .lane 12 .w 0, ob := .lane 16 .w 0, wm := 660 }),
  (0x0299020001800100F8B80685, .fmax { ty := .f32, md := 0, gp := 7, gn := false, dist := 1, setf := 15, yld := true, od := .lane 8 .w 0, oa := .lane 12 .w 0, ob := .lane 16 .w 0, wm := 665 }),
  (0x029E0200018040207938E686, .ftst { ty := .f32, md := 7, gp := 7, gn := false, dist := 2, setf := 15, yld := false, od := .pred 1 false, oa := .lane 12 .w 0, ob := .lane 16 .w 0, wm := 670 }),
  (0x02A3020001800100F838E687, .fcmp { ty := .f32, md := 7, gp := 7, gn := false, dist := 0, setf := 15, yld := true, od := .lane 8 .w 0, oa := .lane 12 .w 0, ob := .lane 16 .w 0, wm := 675 }),
  (0x02A8E0000180010078B86688, .frnd { ty := .f32, md := 3, gp := 7, gn := false, dist := 1, setf := 15, yld := false, od := .lane 8 .w 0, oa := .lane 12 .w 0, ob := .none, wm := 680 }),
  (0x02AD020001800100F9380689, .fdiv { ty := .f32, md := 0, gp := 7, gn := false, dist := 2, setf := 15, yld := true, od := .lane 8 .w 0, oa := .lane 12 .w 0, ob := .lane 16 .w 0, wm := 685 }),
  (0x02B2E000018001007838068A, .fsqrt { ty := .f32, md := 0, gp := 7, gn := false, dist := 0, setf := 15, yld := false, od := .lane 8 .w 0, oa := .lane 12 .w 0, ob := .none, wm := 690 }),
  (0x02B7E00001800100F8B8068B, .frcp { ty := .f32, md := 0, gp := 7, gn := false, dist := 1, setf := 15, yld := true, od := .lane 8 .w 0, oa := .lane 12 .w 0, ob := .none, wm := 695 })]
def floatWords1 : List (W96 × Instr) := [
  (0x02BCE000018001007938068C, .frsq { ty := .f32, md := 0, gp := 7, gn := false, dist := 2, setf := 15, yld := false, od := .lane 8 .w 0, oa := .lane 12 .w 0, ob := .none, wm := 700 }),
  (0x02C1E00001800100F838068D, .fex2 { ty := .f32, md := 0, gp := 7, gn := false, dist := 0, setf := 15, yld := true, od := .lane 8 .w 0, oa := .lane 12 .w 0, ob := .none, wm := 705 }),
  (0x02C6E0000180010078B8068E, .flg2 { ty := .f32, md := 0, gp := 7, gn := false, dist := 1, setf := 15, yld := false, od := .lane 8 .w 0, oa := .lane 12 .w 0, ob := .none, wm := 710 }),
  (0x02CBE00001800100F938068F, .fsin { ty := .f32, md := 0, gp := 7, gn := false, dist := 2, setf := 15, yld := true, od := .lane 8 .w 0, oa := .lane 12 .w 0, ob := .none, wm := 715 }),
  (0x02D0E0000180010078380690, .fcos { ty := .f32, md := 0, gp := 7, gn := false, dist := 0, setf := 15, yld := false, od := .lane 8 .w 0, oa := .lane 12 .w 0, ob := .none, wm := 720 }),
  (0x02D5E00001800100F8B80691, .ftanh { ty := .f32, md := 0, gp := 7, gn := false, dist := 1, setf := 15, yld := true, od := .lane 8 .w 0, oa := .lane 12 .w 0, ob := .none, wm := 725 }),
  (0x02DA02000180010079386C92, .hadd2 { ty := .h16x2, md := 3, gp := 7, gn := false, dist := 2, setf := 15, yld := false, od := .lane 8 .w 0, oa := .lane 12 .w 0, ob := .lane 16 .w 0, wm := 730 }),
  (0x02DF020001800100F8386C93, .hmul2 { ty := .h16x2, md := 3, gp := 7, gn := false, dist := 0, setf := 15, yld := true, od := .lane 8 .w 0, oa := .lane 12 .w 0, ob := .lane 16 .w 0, wm := 735 }),
  (0x02E402000180010078B86C94, .hfma2 { ty := .h16x2, md := 3, gp := 7, gn := false, dist := 1, setf := 15, yld := false, od := .lane 8 .w 0, oa := .lane 12 .w 0, ob := .lane 16 .w 0, wm := 740 }),
  (0x02E9020001800100F9386E95, .badd2 { ty := .bf16x2, md := 3, gp := 7, gn := false, dist := 2, setf := 15, yld := true, od := .lane 8 .w 0, oa := .lane 12 .w 0, ob := .lane 16 .w 0, wm := 745 }),
  (0x02EE02000180010078386E96, .bmul2 { ty := .bf16x2, md := 3, gp := 7, gn := false, dist := 0, setf := 15, yld := false, od := .lane 8 .w 0, oa := .lane 12 .w 0, ob := .lane 16 .w 0, wm := 750 }),
  (0x02F3020001800100F8B86E97, .bfma2 { ty := .bf16x2, md := 3, gp := 7, gn := false, dist := 1, setf := 15, yld := true, od := .lane 8 .w 0, oa := .lane 12 .w 0, ob := .lane 16 .w 0, wm := 755 })]
def floatWords2 : List (W96 × Instr) := [
  (0x02F8E00001800100793FFE98, .cvt { ty := .e8m0x4, md := 63, gp := 7, gn := false, dist := 2, setf := 15, yld := false, od := .lane 8 .w 0, oa := .lane 12 .w 0, ob := .none, wm := 760 }),
  (0x02FD020001800100F83FBE99, .cvts { ty := .e8m0x4, md := 61, gp := 7, gn := false, dist := 0, setf := 15, yld := true, od := .lane 8 .w 0, oa := .lane 12 .w 0, ob := .lane 16 .w 0, wm := 765 }),
  (0x030202000180010078B8649A, .f2i { ty := .n32, md := 3, gp := 7, gn := false, dist := 1, setf := 15, yld := false, od := .lane 8 .w 0, oa := .lane 12 .w 0, ob := .lane 16 .w 0, wm := 770 }),
  (0x0307020001800100F938649B, .i2f { ty := .n32, md := 3, gp := 7, gn := false, dist := 2, setf := 15, yld := true, od := .lane 8 .w 0, oa := .lane 12 .w 0, ob := .lane 16 .w 0, wm := 775 }),
  (0x030C02002200010078387C9C, .qnt { ty := .q4, md := 3, gp := 7, gn := false, dist := 0, setf := 15, yld := false, od := .lane 8 .w 0, oa := .uni 16 .w 0, ob := .lane 16 .w 0, wm := 780 }),
  (0x0311020001800100F8B81C9D, .dqnt { ty := .q4, md := 0, gp := 7, gn := false, dist := 1, setf := 15, yld := true, od := .lane 8 .w 0, oa := .lane 12 .w 0, ob := .lane 16 .w 0, wm := 785 }),
  (0x0316E000018001007938069E, .fcls { ty := .f32, md := 0, gp := 7, gn := false, dist := 2, setf := 15, yld := false, od := .lane 8 .w 0, oa := .lane 12 .w 0, ob := .none, wm := 790 })]
theorem test_words_float : (floatWords0 ++ floatWords1 ++ floatWords2).all (fun p => decodeTableWord 96 p.1.toNat == some p.2) = true := by decide +kernel

/-- The words of the packed group and the fields they hold. -/
def packedWords0 : List (W96 × Instr) := [
  (0x03C0020001800100783852C0, .vadd { ty := .n8x4, md := 2, gp := 7, gn := false, dist := 0, setf := 15, yld := false, od := .lane 8 .w 0, oa := .lane 12 .w 0, ob := .lane 16 .w 0, wm := 960 }),
  (0x03C5020001800100F8B852C1, .vsub { ty := .n8x4, md := 2, gp := 7, gn := false, dist := 1, setf := 15, yld := true, od := .lane 8 .w 0, oa := .lane 12 .w 0, ob := .lane 16 .w 0, wm := 965 }),
  (0x03CA020001800100793812C2, .vmin { ty := .n8x4, md := 0, gp := 7, gn := false, dist := 2, setf := 15, yld := false, od := .lane 8 .w 0, oa := .lane 12 .w 0, ob := .lane 16 .w 0, wm := 970 }),
  (0x03CF020001800100F83812C3, .vmax { ty := .n8x4, md := 0, gp := 7, gn := false, dist := 0, setf := 15, yld := true, od := .lane 8 .w 0, oa := .lane 12 .w 0, ob := .lane 16 .w 0, wm := 975 }),
  (0x03D402000180010078B832C4, .vabsd { ty := .n8x4, md := 1, gp := 7, gn := false, dist := 1, setf := 15, yld := false, od := .lane 8 .w 0, oa := .lane 12 .w 0, ob := .lane 16 .w 0, wm := 980 }),
  (0x03D9020001800100F93872C5, .vdot4 { ty := .n8x4, md := 3, gp := 7, gn := false, dist := 2, setf := 15, yld := true, od := .lane 8 .w 0, oa := .lane 12 .w 0, ob := .lane 16 .w 0, wm := 985 }),
  (0x03DE02000180010078386AC6, .vdot2 { ty := .n16x2, md := 3, gp := 7, gn := false, dist := 0, setf := 15, yld := false, od := .lane 8 .w 0, oa := .lane 12 .w 0, ob := .lane 16 .w 0, wm := 990 }),
  (0x03E3406040404020F8B800C7, .pand { ty := .b32, md := 0, gp := 7, gn := false, dist := 1, setf := 15, yld := true, od := .pred 1 false, oa := .pred 2 false, ob := .pred 3 false, wm := 995 }),
  (0x03E8406040404020793800C8, .por { ty := .b32, md := 0, gp := 7, gn := false, dist := 2, setf := 15, yld := false, od := .pred 1 false, oa := .pred 2 false, ob := .pred 3 false, wm := 1000 }),
  (0x03ED406040404020F83800C9, .pxor { ty := .b32, md := 0, gp := 7, gn := false, dist := 0, setf := 15, yld := true, od := .pred 1 false, oa := .pred 2 false, ob := .pred 3 false, wm := 1005 }),
  (0x03F2E0004040402078B800CA, .pnot { ty := .b32, md := 0, gp := 7, gn := false, dist := 1, setf := 15, yld := false, od := .pred 1 false, oa := .pred 2 false, ob := .none, wm := 1010 }),
  (0x03F7E00040404020F93800CB, .pmov { ty := .b32, md := 0, gp := 7, gn := false, dist := 2, setf := 15, yld := true, od := .pred 1 false, oa := .pred 2 false, ob := .none, wm := 1015 })]
def packedWords1 : List (W96 × Instr) := [
  (0x03FCE000E0000100783800CC, .p2v { ty := .b32, md := 0, gp := 7, gn := false, dist := 0, setf := 15, yld := false, od := .lane 8 .w 0, oa := .none, ob := .none, wm := 1020 }),
  (0x040102000180E000F8B800CD, .v2p { ty := .b32, md := 0, gp := 7, gn := false, dist := 1, setf := 15, yld := true, od := .none, oa := .lane 12 .w 0, ob := .lane 16 .w 0, wm := 1025 }),
  (0x0406020001800100793860CE, .shfl { ty := .b32, md := 3, gp := 7, gn := false, dist := 2, setf := 15, yld := false, od := .lane 8 .w 0, oa := .lane 12 .w 0, ob := .lane 16 .w 0, wm := 1030 }),
  (0x040BE00040404020F83840CF, .vote { ty := .b32, md := 2, gp := 7, gn := false, dist := 0, setf := 15, yld := true, od := .pred 1 false, oa := .pred 2 false, ob := .none, wm := 1035 }),
  (0x0410E0000180010078B800D0, .matchLanes { ty := .b32, md := 0, gp := 7, gn := false, dist := 1, setf := 15, yld := false, od := .lane 8 .w 0, oa := .lane 12 .w 0, ob := .none, wm := 1040 }),
  (0x0415E00001800100F93826D1, .prfx { ty := .f32, md := 1, gp := 7, gn := false, dist := 2, setf := 15, yld := true, od := .lane 8 .w 0, oa := .lane 12 .w 0, ob := .none, wm := 1045 }),
  (0x041AE00001800100783800D2, .rank { ty := .b32, md := 0, gp := 7, gn := false, dist := 0, setf := 15, yld := false, od := .lane 8 .w 0, oa := .lane 12 .w 0, ob := .none, wm := 1050 }),
  (0x041F020001800100F8B806D3, .redg { ty := .f32, md := 0, gp := 7, gn := false, dist := 1, setf := 15, yld := true, od := .lane 8 .w 0, oa := .lane 12 .w 0, ob := .lane 16 .w 0, wm := 1055 }),
  (0x0424240001800100793800D4, .bcast { ty := .b32, md := 0, gp := 7, gn := false, dist := 2, setf := 15, yld := false, od := .lane 8 .w 0, oa := .lane 12 .w 0, ob := .uni 32 .w 0, wm := 1060 }),
  (0x0429020001800100F83800D5, .rngk { ty := .b32, md := 0, gp := 7, gn := false, dist := 0, setf := 15, yld := true, od := .lane 8 .w 0, oa := .lane 12 .w 0, ob := .lane 16 .w 0, wm := 1065 }),
  (0x042E02000180010078B800D6, .hshk { ty := .b32, md := 0, gp := 7, gn := false, dist := 1, setf := 15, yld := false, od := .lane 8 .w 0, oa := .lane 12 .w 0, ob := .lane 16 .w 0, wm := 1070 })]
theorem test_words_packed : (packedWords0 ++ packedWords1).all (fun p => decodeTableWord 96 p.1.toNat == some p.2) = true := by decide +kernel

/-- The words of the memory group and the fields they hold. -/
def memoryWords0 : List (W96 × Instr) := [
  (0x0500E0000180010008BEFF00, .ld { ty := .e8m0x4, md := 55, gp := 7, gn := false, dist := 1, setf := 1, yld := false, od := .lane 8 .w 0, oa := .lane 12 .w 0, ob := .none, wm := 1280 }),
  (0x0505E00001800100893CFF01, .st { ty := .e8m0x4, md := 39, gp := 7, gn := false, dist := 2, setf := 1, yld := true, od := .lane 8 .w 0, oa := .lane 12 .w 0, ob := .none, wm := 1285 }),
  (0x050AE000018001000839FF02, .ldv { ty := .e8m0x4, md := 15, gp := 7, gn := false, dist := 0, setf := 1, yld := false, od := .lane 8 .w 0, oa := .lane 12 .w 0, ob := .none, wm := 1290 }),
  (0x050FE0000180010088B9FF03, .stv { ty := .e8m0x4, md := 15, gp := 7, gn := false, dist := 1, setf := 1, yld := true, od := .lane 8 .w 0, oa := .lane 12 .w 0, ob := .none, wm := 1295 }),
  (0x0514E0000180010009381F04, .ldb { ty := .e8m0x4, md := 0, gp := 7, gn := false, dist := 2, setf := 1, yld := false, od := .lane 8 .w 0, oa := .lane 12 .w 0, ob := .none, wm := 1300 }),
  (0x0519E0000180010088381F05, .stb { ty := .e8m0x4, md := 0, gp := 7, gn := false, dist := 0, setf := 1, yld := true, od := .lane 8 .w 0, oa := .lane 12 .w 0, ob := .none, wm := 1305 }),
  (0x051EE0000180010008B91F06, .ldbv { ty := .e8m0x4, md := 8, gp := 7, gn := false, dist := 1, setf := 1, yld := false, od := .lane 8 .w 0, oa := .lane 12 .w 0, ob := .none, wm := 1310 }),
  (0x0523E0000180010089391F07, .stbv { ty := .e8m0x4, md := 8, gp := 7, gn := false, dist := 2, setf := 1, yld := true, od := .lane 8 .w 0, oa := .lane 12 .w 0, ob := .none, wm := 1315 }),
  (0x0528020001800100083EDB08, .atom { ty := .n64, md := 54, gp := 7, gn := false, dist := 0, setf := 1, yld := false, od := .lane 8 .w 0, oa := .lane 12 .w 0, ob := .lane 16 .w 0, wm := 1320 }),
  (0x052D02000180010088BE1B09, .acas { ty := .n64, md := 48, gp := 7, gn := false, dist := 1, setf := 1, yld := true, od := .lane 8 .w 0, oa := .lane 12 .w 0, ob := .lane 16 .w 0, wm := 1325 }),
  (0x053202000180E000093EDB0A, .red { ty := .n64, md := 54, gp := 7, gn := false, dist := 2, setf := 1, yld := false, od := .none, oa := .lane 12 .w 0, ob := .lane 16 .w 0, wm := 1330 }),
  (0x053702000180E0008838070B, .redf { ty := .f32, md := 0, gp := 7, gn := false, dist := 0, setf := 1, yld := true, od := .none, oa := .lane 12 .w 0, ob := .lane 16 .w 0, wm := 1335 })]
def memoryWords1 : List (W96 × Instr) := [
  (0x053C80010180210008B8010C, .reddcl { ty := .b32, md := 0, gp := 7, gn := false, dist := 1, setf := 1, yld := false, od := .uni 8 .w 0, oa := .lane 12 .w 0, ob := .imm 1, wm := 1340 }),
  (0x0541E000018001008938270D, .redrd { ty := .f32, md := 1, gp := 7, gn := false, dist := 2, setf := 1, yld := true, od := .lane 8 .w 0, oa := .lane 12 .w 0, ob := .none, wm := 1345 }),
  (0x05460200018001000838DB0E, .atomb { ty := .n64, md := 6, gp := 7, gn := false, dist := 0, setf := 1, yld := false, od := .lane 8 .w 0, oa := .lane 12 .w 0, ob := .lane 16 .w 0, wm := 1350 }),
  (0x054B02000180E00088B8210F, .rwb { ty := .b32, md := 1, gp := 7, gn := false, dist := 1, setf := 1, yld := true, od := .none, oa := .lane 12 .w 0, ob := .lane 16 .w 0, wm := 1355 }),
  (0x055002000180E00009380110, .rinv { ty := .b32, md := 0, gp := 7, gn := false, dist := 2, setf := 1, yld := false, od := .none, oa := .lane 12 .w 0, ob := .lane 16 .w 0, wm := 1360 }),
  (0x055502000180E00088382111, .rwbi { ty := .b32, md := 1, gp := 7, gn := false, dist := 0, setf := 1, yld := true, od := .none, oa := .lane 12 .w 0, ob := .lane 16 .w 0, wm := 1365 }),
  (0x055AE000E000E00008BE6112, .fence { ty := .b32, md := 51, gp := 7, gn := false, dist := 1, setf := 1, yld := false, od := .none, oa := .none, ob := .none, wm := 1370 }),
  (0x055FE000E000E00089388113, .tfence { ty := .b32, md := 4, gp := 7, gn := false, dist := 2, setf := 1, yld := true, od := .none, oa := .none, ob := .none, wm := 1375 }),
  (0x0564E0000180E00008384114, .pref { ty := .b32, md := 2, gp := 7, gn := false, dist := 0, setf := 1, yld := false, od := .none, oa := .lane 12 .w 0, ob := .none, wm := 1380 }),
  (0x0569E0000180E00088B80115, .harvest { ty := .b32, md := 0, gp := 7, gn := false, dist := 1, setf := 1, yld := true, od := .none, oa := .lane 12 .w 0, ob := .none, wm := 1385 })]
theorem test_words_memory : (memoryWords0 ++ memoryWords1).all (fun p => decodeTableWord 96 p.1.toNat == some p.2) = true := by decide +kernel

/-- The words of the sync group and the fields they hold. -/
def syncWords0 : List (W96 × Instr) := [
  (0x06402400A060E00079380140, .qdecl { ty := .b32, md := 0, gp := 7, gn := false, dist := 2, setf := 15, yld := false, od := .none, oa := .res (.q 3), ob := .uni 32 .w 0, wm := 1600 }),
  (0x0645E000A060E000F8380141, .qsign { ty := .b32, md := 0, gp := 7, gn := false, dist := 0, setf := 15, yld := true, od := .none, oa := .res (.q 3), ob := .none, wm := 1605 }),
  (0x064AE000A060E00078B80142, .qwait { ty := .b32, md := 0, gp := 7, gn := false, dist := 1, setf := 15, yld := false, od := .none, oa := .res (.q 3), ob := .none, wm := 1610 }),
  (0x064FE000E000E000F9380143, .bar { ty := .b32, md := 0, gp := 7, gn := false, dist := 2, setf := 15, yld := true, od := .none, oa := .none, ob := .none, wm := 1615 }),
  (0x0654E0002200E00078380144, .waitf { ty := .b32, md := 0, gp := 7, gn := false, dist := 0, setf := 15, yld := false, od := .none, oa := .uni 16 .w 0, ob := .none, wm := 1620 }),
  (0x0659E0002200E000F8B80145, .waitt { ty := .b32, md := 0, gp := 7, gn := false, dist := 1, setf := 15, yld := true, od := .none, oa := .uni 16 .w 0, ob := .none, wm := 1625 }),
  (0x065EE0002200E00079380146, .waitta { ty := .b32, md := 0, gp := 7, gn := false, dist := 2, setf := 15, yld := false, od := .none, oa := .uni 16 .w 0, ob := .none, wm := 1630 }),
  (0x0663E00022000100F8380147, .tagff { ty := .b32, md := 0, gp := 7, gn := false, dist := 0, setf := 15, yld := true, od := .lane 8 .w 0, oa := .uni 16 .w 0, ob := .none, wm := 1635 }),
  (0x0668E0002200E00078B80148, .tagclr { ty := .b32, md := 0, gp := 7, gn := false, dist := 1, setf := 15, yld := false, od := .none, oa := .uni 16 .w 0, ob := .none, wm := 1640 }),
  (0x066D2400B0C0E000F9380149, .cbexp { ty := .b32, md := 0, gp := 7, gn := false, dist := 2, setf := 15, yld := true, od := .none, oa := .res (.cb 6), ob := .uni 32 .w 0, wm := 1645 }),
  (0x06722400B0C0E0007838014A, .cbwait { ty := .b32, md := 0, gp := 7, gn := false, dist := 0, setf := 15, yld := false, od := .none, oa := .res (.cb 6), ob := .uni 32 .w 0, wm := 1650 }),
  (0x0677E000B0C00100F8B8214B, .cbrd { ty := .b32, md := 1, gp := 7, gn := false, dist := 1, setf := 15, yld := true, od := .lane 8 .w 0, oa := .res (.cb 6), ob := .none, wm := 1655 })]
def syncWords1 : List (W96 × Instr) := [
  (0x067CE0002200E0007938014C, .claim { ty := .b32, md := 0, gp := 7, gn := false, dist := 2, setf := 15, yld := false, od := .none, oa := .uni 16 .w 0, ob := .none, wm := 1660 }),
  (0x0681E0002200E000F838014D, .give { ty := .b32, md := 0, gp := 7, gn := false, dist := 0, setf := 15, yld := true, od := .none, oa := .uni 16 .w 0, ob := .none, wm := 1665 }),
  (0x0686E0002200010078B8014E, .poolq { ty := .b32, md := 0, gp := 7, gn := false, dist := 1, setf := 15, yld := false, od := .lane 8 .w 0, oa := .uni 16 .w 0, ob := .none, wm := 1670 })]
theorem test_words_sync : (syncWords0 ++ syncWords1).all (fun p => decodeTableWord 96 p.1.toNat == some p.2) = true := by decide +kernel

/-- The words of the matrix group and the fields they hold. -/
def matrixWords0 : List (W96 × Instr) := [
  (0x0780E000E000C02078380180, .lalloc { ty := .b32, md := 0, gp := 7, gn := false, dist := 0, setf := 15, yld := false, od := .tile 1, oa := .none, ob := .none, wm := 1920 }),
  (0x0785E000E000C020F8B80181, .lfree { ty := .b32, md := 0, gp := 7, gn := false, dist := 1, setf := 15, yld := true, od := .tile 1, oa := .none, ob := .none, wm := 1925 }),
  (0x078AE000E000C02009380182, .lzero { ty := .b32, md := 0, gp := 7, gn := false, dist := 2, setf := 1, yld := false, od := .tile 1, oa := .none, ob := .none, wm := 1930 }),
  (0x078FE0002200C02088387783, .lldc { ty := .e5m2x4, md := 3, gp := 7, gn := false, dist := 0, setf := 1, yld := true, od := .tile 1, oa := .uni 16 .w 0, ob := .none, wm := 1935 }),
  (0x079424000180E00008BFC184, .lopf { ty := .b32, md := 62, gp := 7, gn := false, dist := 1, setf := 1, yld := false, od := .none, oa := .lane 12 .w 0, ob := .uni 32 .w 0, wm := 1940 }),
  (0x0799A0602200C0208938FD85, .lmma { ty := .q4, md := 7, gp := 7, gn := false, dist := 2, setf := 1, yld := true, od := .tile 1, oa := .uni 16 .w 0, ob := .res (.q 3), wm := 1945 }),
  (0x079EA0602200C0200838FD86, .lmms { ty := .q4, md := 7, gp := 7, gn := false, dist := 0, setf := 1, yld := false, od := .tile 1, oa := .uni 16 .w 0, ob := .res (.q 3), wm := 1950 }),
  (0x07A3A0602200C02088B8FD87, .lmmg { ty := .q4, md := 7, gp := 7, gn := false, dist := 1, setf := 1, yld := true, od := .tile 1, oa := .uni 16 .w 0, ob := .res (.q 3), wm := 1955 }),
  (0x07A8E0002200C020093CF788, .ldrn { ty := .e5m2x4, md := 39, gp := 7, gn := false, dist := 2, setf := 1, yld := false, od := .tile 1, oa := .uni 16 .w 0, ob := .none, wm := 1960 }),
  (0x07ADE0002200C02088382789, .ldrx { ty := .f32, md := 1, gp := 7, gn := false, dist := 0, setf := 1, yld := true, od := .tile 1, oa := .uni 16 .w 0, ob := .none, wm := 1965 }),
  (0x07B2E0002200E00008BFDD8A, .mxv { ty := .q4, md := 62, gp := 7, gn := false, dist := 1, setf := 1, yld := false, od := .none, oa := .uni 16 .w 0, ob := .none, wm := 1970 }),
  (0x07B7E000E0000100F938018B, .mxvp { ty := .b32, md := 0, gp := 7, gn := false, dist := 2, setf := 15, yld := true, od := .lane 8 .w 0, oa := .none, ob := .none, wm := 1975 })]
theorem test_words_matrix : (matrixWords0).all (fun p => decodeTableWord 96 p.1.toNat == some p.2) = true := by decide +kernel

/-- The words of the engine group and the fields they hold. -/
def engineWords0 : List (W96 × Instr) := [
  (0x08C0B0C02200A8A008B8E1C0, .dcpy { ty := .b32, md := 7, gp := 7, gn := false, dist := 1, setf := 1, yld := false, od := .res (.tg 5), oa := .uni 16 .w 0, ob := .res (.cb 6), wm := 2240 }),
  (0x08C5B0C02200A8A08939E1C1, .dgth { ty := .b32, md := 15, gp := 7, gn := false, dist := 2, setf := 1, yld := true, od := .res (.tg 5), oa := .uni 16 .w 0, ob := .res (.cb 6), wm := 2245 }),
  (0x08CAB0C02200A8A00839E1C2, .dsct { ty := .b32, md := 15, gp := 7, gn := false, dist := 0, setf := 1, yld := false, od := .res (.tg 5), oa := .uni 16 .w 0, ob := .res (.cb 6), wm := 2250 }),
  (0x08CFB0C02200A8A088B9E7C3, .dsca { ty := .f32, md := 15, gp := 7, gn := false, dist := 1, setf := 1, yld := true, od := .res (.tg 5), oa := .uni 16 .w 0, ob := .res (.cb 6), wm := 2255 }),
  (0x08D4B0C02200A8A00939E1C4, .dcsr { ty := .b32, md := 15, gp := 7, gn := false, dist := 2, setf := 1, yld := false, od := .res (.tg 5), oa := .uni 16 .w 0, ob := .res (.cb 6), wm := 2260 }),
  (0x08D9B0C02200A8A08838C1C5, .dfil { ty := .b32, md := 6, gp := 7, gn := false, dist := 0, setf := 1, yld := true, od := .res (.tg 5), oa := .uni 16 .w 0, ob := .res (.cb 6), wm := 2265 }),
  (0x08DEB0C02200A8A008B801C6, .svpt { ty := .b32, md := 0, gp := 7, gn := false, dist := 1, setf := 1, yld := false, od := .res (.tg 5), oa := .uni 16 .w 0, ob := .res (.cb 6), wm := 2270 }),
  (0x08E3B0C02200A8A0893821C7, .svvox { ty := .b32, md := 1, gp := 7, gn := false, dist := 2, setf := 1, yld := true, od := .res (.tg 5), oa := .uni 16 .w 0, ob := .res (.cb 6), wm := 2275 }),
  (0x08E8B0C02200A8A0083801C8, .svqry { ty := .b32, md := 0, gp := 7, gn := false, dist := 0, setf := 1, yld := false, od := .res (.tg 5), oa := .uni 16 .w 0, ob := .res (.cb 6), wm := 2280 }),
  (0x08EDB0C02200A8A088B8E1C9, .svnbr { ty := .b32, md := 7, gp := 7, gn := false, dist := 1, setf := 1, yld := true, od := .res (.tg 5), oa := .uni 16 .w 0, ob := .res (.cb 6), wm := 2285 }),
  (0x08F2B0C02200A8A0093801CA, .svdwn { ty := .b32, md := 0, gp := 7, gn := false, dist := 2, setf := 1, yld := false, od := .res (.tg 5), oa := .uni 16 .w 0, ob := .res (.cb 6), wm := 2290 }),
  (0x08F7E00022000100883801CB, .svmap { ty := .b32, md := 0, gp := 7, gn := false, dist := 0, setf := 1, yld := true, od := .lane 8 .w 0, oa := .uni 16 .w 0, ob := .none, wm := 2295 })]
def engineWords1 : List (W96 × Instr) := [
  (0x08FCE0002200E00008B801CC, .svfree { ty := .b32, md := 0, gp := 7, gn := false, dist := 1, setf := 1, yld := false, od := .none, oa := .uni 16 .w 0, ob := .none, wm := 2300 }),
  (0x0901E0002200A8A0893801CD, .svclr { ty := .b32, md := 0, gp := 7, gn := false, dist := 2, setf := 1, yld := true, od := .res (.tg 5), oa := .uni 16 .w 0, ob := .none, wm := 2305 }),
  (0x0906E0002200A8A0083815CE, .atstrm { ty := .e4m3x4, md := 0, gp := 7, gn := false, dist := 0, setf := 1, yld := false, od := .res (.tg 5), oa := .uni 16 .w 0, ob := .none, wm := 2310 }),
  (0x090BB0C02200A8A088B801CF, .atsub { ty := .b32, md := 0, gp := 7, gn := false, dist := 1, setf := 1, yld := true, od := .res (.tg 5), oa := .uni 16 .w 0, ob := .res (.cb 6), wm := 2315 }),
  (0x0910E00022000100093801D0, .atnext { ty := .b32, md := 0, gp := 7, gn := false, dist := 2, setf := 1, yld := false, od := .lane 8 .w 0, oa := .uni 16 .w 0, ob := .none, wm := 2320 }),
  (0x0915E0002200A8A0883801D1, .atpost { ty := .b32, md := 0, gp := 7, gn := false, dist := 0, setf := 1, yld := true, od := .res (.tg 5), oa := .uni 16 .w 0, ob := .none, wm := 2325 }),
  (0x091A24002200E00008B801D2, .atdone { ty := .b32, md := 0, gp := 7, gn := false, dist := 1, setf := 1, yld := false, od := .none, oa := .uni 16 .w 0, ob := .uni 32 .w 0, wm := 2330 }),
  (0x091FE0002200A8A0893861D3, .atmrg { ty := .b32, md := 3, gp := 7, gn := false, dist := 2, setf := 1, yld := true, od := .res (.tg 5), oa := .uni 16 .w 0, ob := .none, wm := 2335 }),
  (0x0924E0002200E000083801D4, .atuns { ty := .b32, md := 0, gp := 7, gn := false, dist := 0, setf := 1, yld := false, od := .none, oa := .uni 16 .w 0, ob := .none, wm := 2340 })]
theorem test_words_engine : (engineWords0 ++ engineWords1).all (fun p => decodeTableWord 96 p.1.toNat == some p.2) = true := by decide +kernel

/-! ## Every instruction issues somewhere, and passes its own checks -/

/-- The checks that `Issues` names, as a test. -/
def issuesB (key : Nat) (f : Fields) (v : Visit) (s : State) : Bool :=
  decide (s.visit = some v) && decide ((Ctx.make key f v s).deferredTrap ((Ctx.make key f v s).begin s) = none) &&
    (!(Ctx.make key f v s).privileged || (s.grid (s.blk v.bid).gid).priv) &&
    v.slices.all (fun i => decide ((Ctx.make key f v s).regRange (s.blk v.bid) i = none)) &&
    decide ((Ctx.make key f v s).detTimer ((Ctx.make key f v s).begin s) = none)

theorem issues_of_test {key : Nat} {f : Fields} {v : Visit} {s : State} (h : issuesB key f v s = true) : Issues key f v s := by
  simp only [issuesB, Bool.and_eq_true, decide_eq_true_eq, List.all_eq_true] at h
  obtain ⟨⟨⟨⟨h1, h2⟩, h3⟩, h4⟩, h5⟩ := h
  refine ⟨h1, h2, fun hp => ?_, h4, h5⟩
  rw [hp] at h3
  simpa using h3

/-- A privileged launch with one declared range, readable and writable. -/
def grid0 : Grid := { Grid.blank with priv := true, lr := { Launch.blank with ranges := [⟨0, 2 ^ 20, true, true, .rc⟩] } }
/-- A subscription that has taken its first page. -/
def sub0 : Sub := { id := 5, bid := 0, part := 0, subi := 0, sid := 0, cmd := 3, slice := 0, pc := 0, word := 0, qr := 4, nslot := 4, rbase := 0, nl := 2, lb := 0, accepted := true, ended := false, inPass := true, pages := [0, 1], deliv := [0], nextSlot := 1, ring := [(0, 0, true)], taken := [0], posted := [], everPost := [], merged := 0, acc := List.replicate 8 0, gran := 1, allRes := true }
/-- Register values of kN by opcode. -/
def uniOf (key : Nat) : List (Nat × W32) :=
  if key = 0x10C then [(8, 1)]
  else if key = 0x184 then [(32, 1)]
  else if key = 0x186 then [(25, 4096)]
  else if key = 0x18A then [(18, 0), (27, 1)]
  else if 0x1C0 ≤ key ∧ key ≤ 0x1C4 then [(20, 4), (21, 1), (26, 1)]
  else if key = 0x1C5 then [(20, 4), (21, 1)]
  else if key = 0x1C7 then [(17, 1), (20, 0x3F800000), (21, 0x3F800000), (22, 0x3F800000)]
  else if key = 0x1C9 then [(18, 0x01010001)]
  else if key = 0x1CA then [(18, 1)]
  else if key = 0x1CD then [(16, 0x100), (22, 1)]
  else if key = 0x1CE then [(17, 1), (20, 65536)]
  else []
/-- A placed visit of a block whose first sixteen pages are translated, with a quorum register, a subscription, and the registers that an opcode needs. -/
def place (key : Nat) : State :=
  let s := State.reset.withVisit
  let s := { s with grids := [grid0], criers := updAt (fun k => { k with subs := if key = 0x1CF then [] else [sub0] }) 0 s.criers }
  s.modBlk 0 (fun b => { (b.setQuorum 3 ⟨16, 0, false, none, []⟩).modSl 0 (fun sl =>
      { sl with k := (uniOf key).foldl (fun m p => mput 0 m p.1 p.2) sl.k, mstk := if key = 0x009 then [stackEntry false 15 24] else [] }) with
    extents := [⟨0, 15, false, .rc, true, true, true, 0, 0, 0, 0⟩] })
/-- Each instruction of the control group issues in a placed visit. -/
theorem test_issues_control : (controlWords0 ++ controlWords1).all (fun p => match p.2.fields with
    | some (key, f) => issuesB key f Visit.placed (place key)
    | none => false) = true := by decide +kernel

/-- Each instruction of the integer group issues in a placed visit. -/
theorem test_issues_integer : (integerWords0 ++ integerWords1 ++ integerWords2 ++ integerWords3).all (fun p => match p.2.fields with
    | some (key, f) => issuesB key f Visit.placed (place key)
    | none => false) = true := by decide +kernel

/-- Each instruction of the float group issues in a placed visit. -/
theorem test_issues_float : (floatWords0 ++ floatWords1 ++ floatWords2).all (fun p => match p.2.fields with
    | some (key, f) => issuesB key f Visit.placed (place key)
    | none => false) = true := by decide +kernel

/-- Each instruction of the packed group issues in a placed visit. -/
theorem test_issues_packed : (packedWords0 ++ packedWords1).all (fun p => match p.2.fields with
    | some (key, f) => issuesB key f Visit.placed (place key)
    | none => false) = true := by decide +kernel

/-- Each instruction of the memory group issues in a placed visit. -/
theorem test_issues_memory : (memoryWords0 ++ memoryWords1).all (fun p => match p.2.fields with
    | some (key, f) => issuesB key f Visit.placed (place key)
    | none => false) = true := by decide +kernel

/-- Each instruction of the sync group issues in a placed visit. -/
theorem test_issues_sync : (syncWords0 ++ syncWords1).all (fun p => match p.2.fields with
    | some (key, f) => issuesB key f Visit.placed (place key)
    | none => false) = true := by decide +kernel

/-- Each instruction of the matrix group issues in a placed visit. -/
theorem test_issues_matrix : (matrixWords0).all (fun p => match p.2.fields with
    | some (key, f) => issuesB key f Visit.placed (place key)
    | none => false) = true := by decide +kernel

/-- Each instruction of the engine group issues in a placed visit. -/
theorem test_issues_engine : (engineWords0 ++ engineWords1).all (fun p => match p.2.fields with
    | some (key, f) => issuesB key f Visit.placed (place key)
    | none => false) = true := by decide +kernel

theorem test_bra_checks : let f : Fields := .l { ty := .b32, md := 1, gp := 7, gn := false, dist := 2, setf := 15, yld := false, od := .none, oa := .none, imm := 9320 }
    ((fun x s => x.targetTrap s (fun _ => x.relative))) (Ctx.make 0x002 f Visit.placed (place 0x002)) ((place 0x002).opened 0x002 f Visit.placed) = none := by decide +kernel
theorem test_brx_checks : let f : Fields := .r { ty := .b32, md := 1, gp := 7, gn := false, dist := 0, setf := 15, yld := true, od := .none, oa := .uni 16 .w 0, ob := .none, wm := 15 }
    ((fun x s => x.targetTrap s (fun i => x.src64 s i 0 x.f.oa))) (Ctx.make 0x003 f Visit.placed (place 0x003)) ((place 0x003).opened 0x003 f Visit.placed) = none := by decide +kernel
theorem test_call_checks : let f : Fields := .l { ty := .b32, md := 1, gp := 7, gn := false, dist := 1, setf := 15, yld := false, od := .uni 8 .w 0, oa := .none, imm := 18640 }
    ((fun x s => x.targetTrap s (fun _ => x.relative))) (Ctx.make 0x004 f Visit.placed (place 0x004)) ((place 0x004).opened 0x004 f Visit.placed) = none := by decide +kernel
theorem test_callx_checks : let f : Fields := .r { ty := .b32, md := 1, gp := 7, gn := false, dist := 2, setf := 15, yld := true, od := .uni 8 .w 0, oa := .uni 16 .w 0, ob := .none, wm := 25 }
    ((fun x s => x.targetTrap s (fun i => x.src64 s i 0 x.f.oa))) (Ctx.make 0x005 f Visit.placed (place 0x005)) ((place 0x005).opened 0x005 f Visit.placed) = none := by decide +kernel
theorem test_ret_checks : let f : Fields := .r { ty := .b32, md := 1, gp := 7, gn := false, dist := 0, setf := 15, yld := false, od := .none, oa := .uni 16 .w 0, ob := .none, wm := 30 }
    ((fun x s => x.targetTrap s (fun i => x.src64 s i 0 x.f.oa))) (Ctx.make 0x006 f Visit.placed (place 0x006)) ((place 0x006).opened 0x006 f Visit.placed) = none := by decide +kernel
theorem test_pushj_checks : let f : Fields := .l { ty := .b32, md := 0, gp := 7, gn := false, dist := 2, setf := 15, yld := false, od := .none, oa := .pred 2 false, imm := 37280 }
    (Ctx.pushjTrap) (Ctx.make 0x008 f Visit.placed (place 0x008)) ((place 0x008).opened 0x008 f Visit.placed) = none := by decide +kernel
theorem test_join_checks : let f : Fields := .r { ty := .b32, md := 0, gp := 7, gn := false, dist := 0, setf := 15, yld := true, od := .none, oa := .none, ob := .none, wm := 45 }
    (Ctx.joinTrap) (Ctx.make 0x009 f Visit.placed (place 0x009)) ((place 0x009).opened 0x009 f Visit.placed) = none := by decide +kernel
theorem test_refill_checks : let f : Fields := .r { ty := .b32, md := 3, gp := 7, gn := false, dist := 0, setf := 15, yld := false, od := .uni 8 .w 0, oa := .none, ob := .none, wm := 60 }
    (Ctx.refillTrap) (Ctx.make 0x00C f Visit.placed (place 0x00C)) ((place 0x00C).opened 0x00C f Visit.placed) = none := by decide +kernel
theorem test_tlaunch_checks : let f : Fields := .r { ty := .b32, md := 0, gp := 7, gn := false, dist := 1, setf := 15, yld := true, od := .none, oa := .uni 16 .w 0, ob := .none, wm := 65 }
    (Ctx.tlaunchCheck (Ctx.make 0x00D f Visit.placed (place 0x00D)) ((place 0x00D).opened 0x00D f Visit.placed) ((place 0x00D).opened 0x00D f Visit.placed)).2.isOk = true := by decide +kernel


theorem test_dqnt_checks : let f : Fields := .r { ty := .q4, md := 0, gp := 7, gn := false, dist := 1, setf := 15, yld := true, od := .lane 8 .w 0, oa := .lane 12 .w 0, ob := .lane 16 .w 0, wm := 785 }
    (Ctx.dqntTrap) (Ctx.make 0x09D f Visit.placed (place 0x09D)) ((place 0x09D).opened 0x09D f Visit.placed) = none := by decide +kernel


theorem test_ld_checks : let f : Fields := .r { ty := .e8m0x4, md := 55, gp := 7, gn := false, dist := 1, setf := 1, yld := false, od := .lane 8 .w 0, oa := .lane 12 .w 0, ob := .none, wm := 1280 }
    (Ctx.loadCheck (Ctx.make 0x100 f Visit.placed (place 0x100)) ((place 0x100).opened 0x100 f Visit.placed) ((place 0x100).opened 0x100 f Visit.placed)).2.isOk = true := by decide +kernel
theorem test_st_checks : let f : Fields := .r { ty := .e8m0x4, md := 39, gp := 7, gn := false, dist := 2, setf := 1, yld := true, od := .lane 8 .w 0, oa := .lane 12 .w 0, ob := .none, wm := 1285 }
    (Ctx.storeCheck (Ctx.make 0x101 f Visit.placed (place 0x101)) ((place 0x101).opened 0x101 f Visit.placed) ((place 0x101).opened 0x101 f Visit.placed)).2.isOk = true := by decide +kernel
theorem test_ldv_checks : let f : Fields := .r { ty := .e8m0x4, md := 15, gp := 7, gn := false, dist := 0, setf := 1, yld := false, od := .lane 8 .w 0, oa := .lane 12 .w 0, ob := .none, wm := 1290 }
    (Ctx.loadCheck (Ctx.make 0x102 f Visit.placed (place 0x102)) ((place 0x102).opened 0x102 f Visit.placed) ((place 0x102).opened 0x102 f Visit.placed)).2.isOk = true := by decide +kernel
theorem test_stv_checks : let f : Fields := .r { ty := .e8m0x4, md := 15, gp := 7, gn := false, dist := 1, setf := 1, yld := true, od := .lane 8 .w 0, oa := .lane 12 .w 0, ob := .none, wm := 1295 }
    (Ctx.storeCheck (Ctx.make 0x103 f Visit.placed (place 0x103)) ((place 0x103).opened 0x103 f Visit.placed) ((place 0x103).opened 0x103 f Visit.placed)).2.isOk = true := by decide +kernel
theorem test_ldb_checks : let f : Fields := .r { ty := .e8m0x4, md := 0, gp := 7, gn := false, dist := 2, setf := 1, yld := false, od := .lane 8 .w 0, oa := .lane 12 .w 0, ob := .none, wm := 1300 }
    ((fun x s => firstSome (x.benchCheck s false) (Ctx.benchLoads x s))) (Ctx.make 0x104 f Visit.placed (place 0x104)) ((place 0x104).opened 0x104 f Visit.placed) = none := by decide +kernel
theorem test_stb_checks : let f : Fields := .r { ty := .e8m0x4, md := 0, gp := 7, gn := false, dist := 0, setf := 1, yld := true, od := .lane 8 .w 0, oa := .lane 12 .w 0, ob := .none, wm := 1305 }
    ((fun x s => firstSome (x.benchCheck s false) (Ctx.benchStores x s))) (Ctx.make 0x105 f Visit.placed (place 0x105)) ((place 0x105).opened 0x105 f Visit.placed) = none := by decide +kernel
theorem test_ldbv_checks : let f : Fields := .r { ty := .e8m0x4, md := 8, gp := 7, gn := false, dist := 1, setf := 1, yld := false, od := .lane 8 .w 0, oa := .lane 12 .w 0, ob := .none, wm := 1310 }
    ((fun x s => firstSome (x.benchCheck s false) (Ctx.benchLoads x s))) (Ctx.make 0x106 f Visit.placed (place 0x106)) ((place 0x106).opened 0x106 f Visit.placed) = none := by decide +kernel
theorem test_stbv_checks : let f : Fields := .r { ty := .e8m0x4, md := 8, gp := 7, gn := false, dist := 2, setf := 1, yld := true, od := .lane 8 .w 0, oa := .lane 12 .w 0, ob := .none, wm := 1315 }
    ((fun x s => firstSome (x.benchCheck s false) (Ctx.benchStores x s))) (Ctx.make 0x107 f Visit.placed (place 0x107)) ((place 0x107).opened 0x107 f Visit.placed) = none := by decide +kernel
theorem test_atom_checks : let f : Fields := .r { ty := .n64, md := 54, gp := 7, gn := false, dist := 0, setf := 1, yld := false, od := .lane 8 .w 0, oa := .lane 12 .w 0, ob := .lane 16 .w 0, wm := 1320 }
    ((Ctx.atomicCheck true (fun _ => false) Ctx.oneB) (Ctx.make 0x108 f Visit.placed (place 0x108)) ((place 0x108).opened 0x108 f Visit.placed) ((place 0x108).opened 0x108 f Visit.placed)).2.isOk = true := by decide +kernel
theorem test_acas_checks : let f : Fields := .r { ty := .n64, md := 48, gp := 7, gn := false, dist := 1, setf := 1, yld := true, od := .lane 8 .w 0, oa := .lane 12 .w 0, ob := .lane 16 .w 0, wm := 1325 }
    ((Ctx.atomicCheck true (fun _ => false) Ctx.casPair) (Ctx.make 0x109 f Visit.placed (place 0x109)) ((place 0x109).opened 0x109 f Visit.placed) ((place 0x109).opened 0x109 f Visit.placed)).2.isOk = true := by decide +kernel
theorem test_red_checks : let f : Fields := .r { ty := .n64, md := 54, gp := 7, gn := false, dist := 2, setf := 1, yld := false, od := .none, oa := .lane 12 .w 0, ob := .lane 16 .w 0, wm := 1330 }
    ((Ctx.atomicCheck false Ctx.detOp Ctx.oneB) (Ctx.make 0x10A f Visit.placed (place 0x10A)) ((place 0x10A).opened 0x10A f Visit.placed) ((place 0x10A).opened 0x10A f Visit.placed)).2.isOk = true := by decide +kernel
theorem test_redf_checks : let f : Fields := .r { ty := .f32, md := 0, gp := 7, gn := false, dist := 0, setf := 1, yld := true, od := .none, oa := .lane 12 .w 0, ob := .lane 16 .w 0, wm := 1335 }
    (Ctx.redfCheck (Ctx.make 0x10B f Visit.placed (place 0x10B)) ((place 0x10B).opened 0x10B f Visit.placed) ((place 0x10B).opened 0x10B f Visit.placed)).2.isOk = true := by decide +kernel
theorem test_reddcl_checks : let f : Fields := .r { ty := .b32, md := 0, gp := 7, gn := false, dist := 1, setf := 1, yld := false, od := .uni 8 .w 0, oa := .lane 12 .w 0, ob := .imm 1, wm := 1340 }
    (Ctx.reddclCheck (Ctx.make 0x10C f Visit.placed (place 0x10C)) ((place 0x10C).opened 0x10C f Visit.placed) ((place 0x10C).opened 0x10C f Visit.placed)).2.isOk = true := by decide +kernel
theorem test_redrd_checks : let f : Fields := .r { ty := .f32, md := 1, gp := 7, gn := false, dist := 2, setf := 1, yld := true, od := .lane 8 .w 0, oa := .lane 12 .w 0, ob := .none, wm := 1345 }
    (Ctx.redrdCheck (Ctx.make 0x10D f Visit.placed (place 0x10D)) ((place 0x10D).opened 0x10D f Visit.placed) ((place 0x10D).opened 0x10D f Visit.placed)).2.isOk = true := by decide +kernel
theorem test_atomb_checks : let f : Fields := .r { ty := .n64, md := 6, gp := 7, gn := false, dist := 0, setf := 1, yld := false, od := .lane 8 .w 0, oa := .lane 12 .w 0, ob := .lane 16 .w 0, wm := 1350 }
    ((fun x s => firstSome (x.benchCheck s (x.atombDet s)) (Ctx.benchAtoms x s))) (Ctx.make 0x10E f Visit.placed (place 0x10E)) ((place 0x10E).opened 0x10E f Visit.placed) = none := by decide +kernel
theorem test_rwb_checks : let f : Fields := .r { ty := .b32, md := 1, gp := 7, gn := false, dist := 1, setf := 1, yld := true, od := .none, oa := .lane 12 .w 0, ob := .lane 16 .w 0, wm := 1355 }
    ((Ctx.rangeCheck false) (Ctx.make 0x10F f Visit.placed (place 0x10F)) ((place 0x10F).opened 0x10F f Visit.placed) ((place 0x10F).opened 0x10F f Visit.placed)).2.isOk = true := by decide +kernel
theorem test_rinv_checks : let f : Fields := .r { ty := .b32, md := 0, gp := 7, gn := false, dist := 2, setf := 1, yld := false, od := .none, oa := .lane 12 .w 0, ob := .lane 16 .w 0, wm := 1360 }
    ((Ctx.rangeCheck true) (Ctx.make 0x110 f Visit.placed (place 0x110)) ((place 0x110).opened 0x110 f Visit.placed) ((place 0x110).opened 0x110 f Visit.placed)).2.isOk = true := by decide +kernel
theorem test_rwbi_checks : let f : Fields := .r { ty := .b32, md := 1, gp := 7, gn := false, dist := 0, setf := 1, yld := true, od := .none, oa := .lane 12 .w 0, ob := .lane 16 .w 0, wm := 1365 }
    ((Ctx.rangeCheck false) (Ctx.make 0x111 f Visit.placed (place 0x111)) ((place 0x111).opened 0x111 f Visit.placed) ((place 0x111).opened 0x111 f Visit.placed)).2.isOk = true := by decide +kernel
theorem test_pref_checks : let f : Fields := .r { ty := .b32, md := 2, gp := 7, gn := false, dist := 0, setf := 1, yld := false, od := .none, oa := .lane 12 .w 0, ob := .none, wm := 1380 }
    (Ctx.prefCheck (Ctx.make 0x114 f Visit.placed (place 0x114)) ((place 0x114).opened 0x114 f Visit.placed) ((place 0x114).opened 0x114 f Visit.placed)).2.isOk = true := by decide +kernel
theorem test_harvest_checks : let f : Fields := .r { ty := .b32, md := 0, gp := 7, gn := false, dist := 1, setf := 1, yld := true, od := .none, oa := .lane 12 .w 0, ob := .none, wm := 1385 }
    ((fun x s => firstSome (x.selectorTrap s) x.v.slices)) (Ctx.make 0x115 f Visit.placed (place 0x115)) ((place 0x115).opened 0x115 f Visit.placed) = none := by decide +kernel

theorem test_qdecl_checks : let f : Fields := .r { ty := .b32, md := 0, gp := 7, gn := false, dist := 2, setf := 15, yld := false, od := .none, oa := .res (.q 3), ob := .uni 32 .w 0, wm := 1600 }
    (Ctx.qdeclTrap) (Ctx.make 0x140 f Visit.placed (place 0x140)) ((place 0x140).opened 0x140 f Visit.placed) = none := by decide +kernel
theorem test_qsign_checks : let f : Fields := .r { ty := .b32, md := 0, gp := 7, gn := false, dist := 0, setf := 15, yld := true, od := .none, oa := .res (.q 3), ob := .none, wm := 1605 }
    ((fun x s => x.undeclared s (resNo x.f.oa))) (Ctx.make 0x141 f Visit.placed (place 0x141)) ((place 0x141).opened 0x141 f Visit.placed) = none := by decide +kernel
theorem test_tagff_checks : let f : Fields := .r { ty := .b32, md := 0, gp := 7, gn := false, dist := 0, setf := 15, yld := true, od := .lane 8 .w 0, oa := .uni 16 .w 0, ob := .none, wm := 1635 }
    ((fun x s => x.timerTrap s true)) (Ctx.make 0x147 f Visit.placed (place 0x147)) ((place 0x147).opened 0x147 f Visit.placed) = none := by decide +kernel
theorem test_cbrd_checks : let f : Fields := .r { ty := .b32, md := 1, gp := 7, gn := false, dist := 1, setf := 15, yld := true, od := .lane 8 .w 0, oa := .res (.cb 6), ob := .none, wm := 1655 }
    ((fun x s => x.timerTrap s true)) (Ctx.make 0x14B f Visit.placed (place 0x14B)) ((place 0x14B).opened 0x14B f Visit.placed) = none := by decide +kernel
theorem test_claim_checks : let f : Fields := .r { ty := .b32, md := 0, gp := 7, gn := false, dist := 2, setf := 15, yld := false, od := .none, oa := .uni 16 .w 0, ob := .none, wm := 1660 }
    (Ctx.claimTrap) (Ctx.make 0x14C f Visit.placed (place 0x14C)) ((place 0x14C).opened 0x14C f Visit.placed) = none := by decide +kernel
theorem test_give_checks : let f : Fields := .r { ty := .b32, md := 0, gp := 7, gn := false, dist := 0, setf := 15, yld := true, od := .none, oa := .uni 16 .w 0, ob := .none, wm := 1665 }
    (Ctx.giveTrap) (Ctx.make 0x14D f Visit.placed (place 0x14D)) ((place 0x14D).opened 0x14D f Visit.placed) = none := by decide +kernel
theorem test_poolq_checks : let f : Fields := .r { ty := .b32, md := 0, gp := 7, gn := false, dist := 1, setf := 15, yld := false, od := .lane 8 .w 0, oa := .uni 16 .w 0, ob := .none, wm := 1670 }
    (Ctx.poolqTrap) (Ctx.make 0x14E f Visit.placed (place 0x14E)) ((place 0x14E).opened 0x14E f Visit.placed) = none := by decide +kernel

theorem test_lalloc_checks : let f : Fields := .r { ty := .b32, md := 0, gp := 7, gn := false, dist := 0, setf := 15, yld := false, od := .tile 1, oa := .none, ob := .none, wm := 1920 }
    ((fun x s => x.loomTrap s (fun _ => none))) (Ctx.make 0x180 f Visit.placed (place 0x180)) ((place 0x180).opened 0x180 f Visit.placed) = none := by decide +kernel
theorem test_lfree_checks : let f : Fields := .r { ty := .b32, md := 0, gp := 7, gn := false, dist := 1, setf := 15, yld := true, od := .tile 1, oa := .none, ob := .none, wm := 1925 }
    ((fun x s => x.loomTrap s (fun _ => none))) (Ctx.make 0x181 f Visit.placed (place 0x181)) ((place 0x181).opened 0x181 f Visit.placed) = none := by decide +kernel
theorem test_lzero_checks : let f : Fields := .r { ty := .b32, md := 0, gp := 7, gn := false, dist := 2, setf := 1, yld := false, od := .tile 1, oa := .none, ob := .none, wm := 1930 }
    ((fun x s => x.loomTrap s (fun i => x.tileFree s i))) (Ctx.make 0x182 f Visit.placed (place 0x182)) ((place 0x182).opened 0x182 f Visit.placed) = none := by decide +kernel
theorem test_lldc_checks : let f : Fields := .r { ty := .e5m2x4, md := 3, gp := 7, gn := false, dist := 0, setf := 1, yld := true, od := .tile 1, oa := .uni 16 .w 0, ob := .none, wm := 1935 }
    ((fun x s => x.loomTrap s (fun i => firstTrapOf [x.tileFree s i, x.cornerTrap s i (x.descriptor s i)]))) (Ctx.make 0x183 f Visit.placed (place 0x183)) ((place 0x183).opened 0x183 f Visit.placed) = none := by decide +kernel
theorem test_lopf_checks : let f : Fields := .r { ty := .b32, md := 62, gp := 7, gn := false, dist := 1, setf := 1, yld := false, od := .none, oa := .lane 12 .w 0, ob := .uni 32 .w 0, wm := 1940 }
    ((fun x s => x.loomTrap s (fun i => x.lopfTrap s i (x.lopfDesc s i)))) (Ctx.make 0x184 f Visit.placed (place 0x184)) ((place 0x184).opened 0x184 f Visit.placed) = none := by decide +kernel
theorem test_lmma_checks : let f : Fields := .r { ty := .q4, md := 7, gp := 7, gn := false, dist := 2, setf := 1, yld := true, od := .tile 1, oa := .uni 16 .w 0, ob := .res (.q 3), wm := 1945 }
    ((fun x s => x.loomTrap s (fun i => firstTrapOf [x.tileFree s i, x.matTrap s i (x.descriptor s i)]))) (Ctx.make 0x185 f Visit.placed (place 0x185)) ((place 0x185).opened 0x185 f Visit.placed) = none := by decide +kernel
theorem test_lmms_checks : let f : Fields := .r { ty := .q4, md := 7, gp := 7, gn := false, dist := 0, setf := 1, yld := false, od := .tile 1, oa := .uni 16 .w 0, ob := .res (.q 3), wm := 1950 }
    ((fun x s => x.loomTrap s (fun i => firstTrapOf [x.tileFree s i, x.matTrap s i (x.descriptor s i)]))) (Ctx.make 0x186 f Visit.placed (place 0x186)) ((place 0x186).opened 0x186 f Visit.placed) = none := by decide +kernel
theorem test_lmmg_checks : let f : Fields := .r { ty := .q4, md := 7, gp := 7, gn := false, dist := 1, setf := 1, yld := true, od := .tile 1, oa := .uni 16 .w 0, ob := .res (.q 3), wm := 1955 }
    ((fun x s => x.loomTrap s (fun i => firstTrapOf [x.tileFree s i, x.matTrap s i (x.descriptor s i)]))) (Ctx.make 0x187 f Visit.placed (place 0x187)) ((place 0x187).opened 0x187 f Visit.placed) = none := by decide +kernel
theorem test_ldrn_checks : let f : Fields := .r { ty := .e5m2x4, md := 39, gp := 7, gn := false, dist := 2, setf := 1, yld := false, od := .tile 1, oa := .uni 16 .w 0, ob := .none, wm := 1960 }
    ((fun x s => x.loomTrap s (fun i => firstTrapOf [x.tileFree s i, x.cornerTrap s i (x.descriptor s i)]))) (Ctx.make 0x188 f Visit.placed (place 0x188)) ((place 0x188).opened 0x188 f Visit.placed) = none := by decide +kernel
theorem test_ldrx_checks : let f : Fields := .r { ty := .f32, md := 1, gp := 7, gn := false, dist := 0, setf := 1, yld := true, od := .tile 1, oa := .uni 16 .w 0, ob := .none, wm := 1965 }
    ((fun x s => x.loomTrap s (fun i => firstTrapOf [x.tileFree s i, x.cornerTrap s i (x.descriptor s i)]))) (Ctx.make 0x189 f Visit.placed (place 0x189)) ((place 0x189).opened 0x189 f Visit.placed) = none := by decide +kernel
theorem test_mxv_checks : let f : Fields := .r { ty := .q4, md := 62, gp := 7, gn := false, dist := 1, setf := 1, yld := false, od := .none, oa := .uni 16 .w 0, ob := .none, wm := 1970 }
    ((fun x s => firstSome (fun i => x.mxvTrap s i (x.descriptor s i)) (x.inEffect s))) (Ctx.make 0x18A f Visit.placed (place 0x18A)) ((place 0x18A).opened 0x18A f Visit.placed) = none := by decide +kernel
theorem test_mxvp_checks : let f : Fields := .r { ty := .b32, md := 0, gp := 7, gn := false, dist := 2, setf := 15, yld := true, od := .lane 8 .w 0, oa := .none, ob := .none, wm := 1975 }
    ((fun x s => x.timerTrap s true)) (Ctx.make 0x18B f Visit.placed (place 0x18B)) ((place 0x18B).opened 0x18B f Visit.placed) = none := by decide +kernel

theorem test_dcpy_checks : let f : Fields := .r { ty := .b32, md := 7, gp := 7, gn := false, dist := 1, setf := 1, yld := false, od := .res (.tg 5), oa := .uni 16 .w 0, ob := .res (.cb 6), wm := 2240 }
    ((fun x s => firstSome (fun i => x.drayTrap s i (x.descriptor s i)) (x.inEffect s))) (Ctx.make 0x1C0 f Visit.placed (place 0x1C0)) ((place 0x1C0).opened 0x1C0 f Visit.placed) = none := by decide +kernel
theorem test_dgth_checks : let f : Fields := .r { ty := .b32, md := 15, gp := 7, gn := false, dist := 2, setf := 1, yld := true, od := .res (.tg 5), oa := .uni 16 .w 0, ob := .res (.cb 6), wm := 2245 }
    ((fun x s => firstSome (fun i => x.drayTrap s i (x.descriptor s i)) (x.inEffect s))) (Ctx.make 0x1C1 f Visit.placed (place 0x1C1)) ((place 0x1C1).opened 0x1C1 f Visit.placed) = none := by decide +kernel
theorem test_dsct_checks : let f : Fields := .r { ty := .b32, md := 15, gp := 7, gn := false, dist := 0, setf := 1, yld := false, od := .res (.tg 5), oa := .uni 16 .w 0, ob := .res (.cb 6), wm := 2250 }
    ((fun x s => firstSome (fun i => x.drayTrap s i (x.descriptor s i)) (x.inEffect s))) (Ctx.make 0x1C2 f Visit.placed (place 0x1C2)) ((place 0x1C2).opened 0x1C2 f Visit.placed) = none := by decide +kernel
theorem test_dsca_checks : let f : Fields := .r { ty := .f32, md := 15, gp := 7, gn := false, dist := 1, setf := 1, yld := true, od := .res (.tg 5), oa := .uni 16 .w 0, ob := .res (.cb 6), wm := 2255 }
    ((fun x s => firstSome (fun i => x.drayTrap s i (x.descriptor s i)) (x.inEffect s))) (Ctx.make 0x1C3 f Visit.placed (place 0x1C3)) ((place 0x1C3).opened 0x1C3 f Visit.placed) = none := by decide +kernel
theorem test_dcsr_checks : let f : Fields := .r { ty := .b32, md := 15, gp := 7, gn := false, dist := 2, setf := 1, yld := false, od := .res (.tg 5), oa := .uni 16 .w 0, ob := .res (.cb 6), wm := 2260 }
    ((fun x s => firstSome (fun i => x.drayTrap s i (x.descriptor s i)) (x.inEffect s))) (Ctx.make 0x1C4 f Visit.placed (place 0x1C4)) ((place 0x1C4).opened 0x1C4 f Visit.placed) = none := by decide +kernel
theorem test_dfil_checks : let f : Fields := .r { ty := .b32, md := 6, gp := 7, gn := false, dist := 0, setf := 1, yld := true, od := .res (.tg 5), oa := .uni 16 .w 0, ob := .res (.cb 6), wm := 2265 }
    ((fun x s => firstSome (fun i => x.drayTrap s i (x.descriptor s i)) (x.inEffect s))) (Ctx.make 0x1C5 f Visit.placed (place 0x1C5)) ((place 0x1C5).opened 0x1C5 f Visit.placed) = none := by decide +kernel
theorem test_svpt_checks : let f : Fields := .r { ty := .b32, md := 0, gp := 7, gn := false, dist := 1, setf := 1, yld := false, od := .res (.tg 5), oa := .uni 16 .w 0, ob := .res (.cb 6), wm := 2270 }
    ((fun x s => firstSome (fun i => x.svptTrap s i (x.descriptor s i)) (x.inEffect s))) (Ctx.make 0x1C6 f Visit.placed (place 0x1C6)) ((place 0x1C6).opened 0x1C6 f Visit.placed) = none := by decide +kernel
theorem test_svvox_checks : let f : Fields := .r { ty := .b32, md := 1, gp := 7, gn := false, dist := 2, setf := 1, yld := true, od := .res (.tg 5), oa := .uni 16 .w 0, ob := .res (.cb 6), wm := 2275 }
    ((fun x s => firstSome (fun i => x.svvoxTrap s i (x.descriptor s i)) (x.inEffect s))) (Ctx.make 0x1C7 f Visit.placed (place 0x1C7)) ((place 0x1C7).opened 0x1C7 f Visit.placed) = none := by decide +kernel
theorem test_svqry_checks : let f : Fields := .r { ty := .b32, md := 0, gp := 7, gn := false, dist := 0, setf := 1, yld := false, od := .res (.tg 5), oa := .uni 16 .w 0, ob := .res (.cb 6), wm := 2280 }
    ((fun x s => firstSome (fun i => x.svqryTrap s i (x.descriptor s i)) (x.inEffect s))) (Ctx.make 0x1C8 f Visit.placed (place 0x1C8)) ((place 0x1C8).opened 0x1C8 f Visit.placed) = none := by decide +kernel
theorem test_svnbr_checks : let f : Fields := .r { ty := .b32, md := 7, gp := 7, gn := false, dist := 1, setf := 1, yld := true, od := .res (.tg 5), oa := .uni 16 .w 0, ob := .res (.cb 6), wm := 2285 }
    ((fun x s => firstSome (fun i => x.svnbrTrap s i (x.descriptor s i)) (x.inEffect s))) (Ctx.make 0x1C9 f Visit.placed (place 0x1C9)) ((place 0x1C9).opened 0x1C9 f Visit.placed) = none := by decide +kernel
theorem test_svdwn_checks : let f : Fields := .r { ty := .b32, md := 0, gp := 7, gn := false, dist := 2, setf := 1, yld := false, od := .res (.tg 5), oa := .uni 16 .w 0, ob := .res (.cb 6), wm := 2290 }
    ((fun x s => firstSome (fun i => x.svdwnTrap s i (x.descriptor s i)) (x.inEffect s))) (Ctx.make 0x1CA f Visit.placed (place 0x1CA)) ((place 0x1CA).opened 0x1CA f Visit.placed) = none := by decide +kernel
theorem test_svmap_checks : let f : Fields := .r { ty := .b32, md := 0, gp := 7, gn := false, dist := 0, setf := 1, yld := true, od := .lane 8 .w 0, oa := .uni 16 .w 0, ob := .none, wm := 2295 }
    ((fun x s => firstSome (fun i => x.svmapTrap s i (x.descriptor s i)) (x.inEffect s))) (Ctx.make 0x1CB f Visit.placed (place 0x1CB)) ((place 0x1CB).opened 0x1CB f Visit.placed) = none := by decide +kernel
theorem test_svfree_checks : let f : Fields := .r { ty := .b32, md := 0, gp := 7, gn := false, dist := 1, setf := 1, yld := false, od := .none, oa := .uni 16 .w 0, ob := .none, wm := 2300 }
    ((fun x s => firstSome (fun i => x.badField i (failsAt [(0, twBad (dW [BitVec.ofNat 32 (x.tableWord s i)] 0) false)])) (x.inEffect s))) (Ctx.make 0x1CC f Visit.placed (place 0x1CC)) ((place 0x1CC).opened 0x1CC f Visit.placed) = none := by decide +kernel
theorem test_svclr_checks : let f : Fields := .r { ty := .b32, md := 0, gp := 7, gn := false, dist := 2, setf := 1, yld := true, od := .res (.tg 5), oa := .uni 16 .w 0, ob := .none, wm := 2305 }
    ((fun x s => firstSome (fun i => x.svclrTrap s i (x.descriptor s i)) (x.inEffect s))) (Ctx.make 0x1CD f Visit.placed (place 0x1CD)) ((place 0x1CD).opened 0x1CD f Visit.placed) = none := by decide +kernel
theorem test_atstrm_checks : let f : Fields := .r { ty := .e4m3x4, md := 0, gp := 7, gn := false, dist := 0, setf := 1, yld := false, od := .res (.tg 5), oa := .uni 16 .w 0, ob := .none, wm := 2310 }
    ((fun x s => firstSome (fun i => x.atstrmTrap s i (x.descriptor s i)) (x.inEffect s))) (Ctx.make 0x1CE f Visit.placed (place 0x1CE)) ((place 0x1CE).opened 0x1CE f Visit.placed) = none := by decide +kernel
theorem test_atsub_checks : let f : Fields := .r { ty := .b32, md := 0, gp := 7, gn := false, dist := 1, setf := 1, yld := true, od := .res (.tg 5), oa := .uni 16 .w 0, ob := .res (.cb 6), wm := 2315 }
    ((fun x s => firstSome (fun i => x.atsubTrap s i (x.descriptor s i)) (x.inEffect s))) (Ctx.make 0x1CF f Visit.placed (place 0x1CF)) ((place 0x1CF).opened 0x1CF f Visit.placed) = none := by decide +kernel
theorem test_atnext_checks : let f : Fields := .r { ty := .b32, md := 0, gp := 7, gn := false, dist := 2, setf := 1, yld := false, od := .lane 8 .w 0, oa := .uni 16 .w 0, ob := .none, wm := 2320 }
    (Ctx.noSub) (Ctx.make 0x1D0 f Visit.placed (place 0x1D0)) ((place 0x1D0).opened 0x1D0 f Visit.placed) = none := by decide +kernel
theorem test_atpost_checks : let f : Fields := .r { ty := .b32, md := 0, gp := 7, gn := false, dist := 0, setf := 1, yld := true, od := .res (.tg 5), oa := .uni 16 .w 0, ob := .none, wm := 2325 }
    ((fun x s => firstSome (fun i => x.atpostTrap s i (x.descriptor s i)) (x.inEffect s))) (Ctx.make 0x1D1 f Visit.placed (place 0x1D1)) ((place 0x1D1).opened 0x1D1 f Visit.placed) = none := by decide +kernel
theorem test_atdone_checks : let f : Fields := .r { ty := .b32, md := 0, gp := 7, gn := false, dist := 1, setf := 1, yld := false, od := .none, oa := .uni 16 .w 0, ob := .uni 32 .w 0, wm := 2330 }
    ((fun x s => firstSome (fun i => x.atdoneTrap s i (x.subOperands s i)) (x.inEffect s))) (Ctx.make 0x1D2 f Visit.placed (place 0x1D2)) ((place 0x1D2).opened 0x1D2 f Visit.placed) = none := by decide +kernel
theorem test_atmrg_checks : let f : Fields := .r { ty := .b32, md := 3, gp := 7, gn := false, dist := 2, setf := 1, yld := true, od := .res (.tg 5), oa := .uni 16 .w 0, ob := .none, wm := 2335 }
    ((fun x s => firstSome (fun i => x.atmrgTrap s i (x.descriptor s i)) (x.inEffect s))) (Ctx.make 0x1D3 f Visit.placed (place 0x1D3)) ((place 0x1D3).opened 0x1D3 f Visit.placed) = none := by decide +kernel
theorem test_atuns_checks : let f : Fields := .r { ty := .b32, md := 0, gp := 7, gn := false, dist := 0, setf := 1, yld := false, od := .none, oa := .uni 16 .w 0, ob := .none, wm := 2340 }
    (Ctx.noSub) (Ctx.make 0x1D4 f Visit.placed (place 0x1D4)) ((place 0x1D4).opened 0x1D4 f Visit.placed) = none := by decide +kernel

/-! ## Witnesses: states that meet the hypotheses of the statements about steps of the barrel, the Foreman, the memory system, the engines and the host -/

/-- The placed block with no visit in progress. -/
def idle : State := { place 0 with visit := none }

/-- A line held in the L3 under key 0, from values at byte offsets. -/
def held3 (line : Nat) (l : List (Nat × Nat)) : L3Line :=
  { line := line, kid := 0, data := BitVec.ofNat 1024 (sumNat (l.map (fun p => p.2 * 2 ^ (8 * p.1)))), dirty := true, poison := Pois.none }

/-- A state with one mapped page: page 0 of partition 0 in frame 1, readable and writable, under key 0; the tables, the frame attributes and the
first four lines of the page stand in the L3. -/
def pagedWith (l : List (Nat × List (Nat × Nat))) : State :=
  { idle with keys := [(0, List.replicate 64 0)], fn := 64, fatb := 0x5000,
              parts := updAt (fun _ => { root := 0x1000, ctx := 2 ^ 20, len := 2 ^ 22, guar := 1, limit := 2 }) 0 idle.parts
              l3 := [held3 0x20 [(0, 0x2003)], held3 0x40 [(0, 0x3003)], held3 0x60 [(0, 0x4003)], held3 0x80 [(0, 0x3C1 + 65536)], held3 0xA0 []] ++
                l.map (fun p => held3 (0x200 + p.1) p.2) }
def paged : State := pagedWith [(0, []), (1, []), (2, []), (3, [])]

/-- A launch record of one block of one thread at virtual address 0x100, and a queue entry that names it at address 0. -/
def recorded : State :=
  pagedWith [(0, [(0, 0x101)]), (1, []), (2, [(8, 0x0001000100000001), (0x10, 0x000100010001), (0x20, 0x0001000100000000)]), (3, [])]

/-- The record's queue entry posted on queue 0. -/
def posted : State := recorded.modQueue 0 (fun r => { r with base := 0, size := 4, head := 0, tail := 1 })

theorem wit_slotVisit : idle.visit = none ∧ ((idle.core 0).secs[0]?).any (fun x => x.nextDue.any (fun n => (x.slots[n]?).any (fun y =>
    (y.gangs[y.cur]?).isSome))) = true ∧ (idle.core 0).first 0 = true := by decide +kernel

/-- A rotation that has passed every slot, and one that was passed over and has taken no cycle. -/
def rotated : State := idle.modSec 0 0 (fun x => { x with next := 16, passed := true })
theorem wit_rotationEnd : rotated.visit = none ∧ ((rotated.core 0).secs[0]?).any (fun x => decide (x.nextDue = none) && x.slots.any (fun y => !y.gangs.isEmpty) &&
    !x.spent && x.passed) = true := by decide +kernel

theorem wit_queueEntryAccept : let r := posted.queueRing 0
    r.size ≠ 0 ∧ r.head ≠ r.tail ∧ bitOf r.err 1 = false ∧ ((posted.recallVirt 0 (r.base + 16 * (r.head % r.size)) 16).readVirt 0 (r.base + 16 * (r.head % r.size)) 16).isOk = true ∧
    (posted.recallLaunch 0 0x100).readLaunch 0 0x100 none = posted.readLaunch 0 0x100 none ∧ (posted.readLaunch 0 0x100 none).toOption.isSome = true ∧ (paged.readLaunch 0 0x100 none).toOption.isSome = false := by decide +kernel

/-- A grid of the record ready on queue 0, with no block yet. -/
def readied : State :=
  { recorded with blocks := [], ready := updAt (fun _ => [7]) 0 recorded.ready,
                  grids := [{ Grid.blank with gid := 7, lr := { Launch.blank with lra := 0x100 } }] }
/-- The same with a core held by the partition. -/
def holding : State := readied.modCore 0 (fun c => { c with holder := some 0 })
/-- Every core held by partition 1, beyond its guarantee of none. -/
def crowded : State := { readied with cores := readied.cores.map (fun c => { c with holder := some 1 }) }
theorem wit_coreGrant_poorest : ((List.range 16).filter (fun p => (readied.wish p).isSome) = [0]) ∧ readied.heldCores 0 = [] ∧ (readied.part 0).guar = 1 ∧
    readied.freeCore = some 0 := by decide +kernel
theorem wit_coreGrant_taken : (crowded.wish 0).isSome = true ∧ crowded.heldCores 0 = [] ∧ crowded.freeCore = none ∧ crowded.cores.all (fun c => c.promised.isNone) = true ∧
    (crowded.heldCores 1).length = 32 ∧ (crowded.part 1).guar = 0 := by decide +kernel
/-- No guarantee: a free core goes to the partition of the most urgent grid. -/
def unowed : State := { readied with parts := updAt (fun p => { p with guar := 0 }) 0 readied.parts }
theorem wit_coreGrant_free : unowed.cores.all (fun c => c.promised.isNone) = true ∧ (unowed.wish 0).isSome = true ∧ (unowed.part 0).guar = 0 ∧ unowed.freeCore = some 0 := by decide +kernel
/-- A core promised to the partition and empty by now, of a partition that still wants one and of one that does not. -/
def owing : State := readied.modCore 3 (fun c => { c with promised := some 0 })
theorem wit_coreGrant_promised : (List.range owing.cores.length).find? (fun c => (owing.core c).promised.isSome) = some 3 ∧
    (owing.core 3).promised = some 0 ∧ (owing.core 3).holder = none ∧ ((owing.modCore 3 (fun c => { c with promised := none })).wish 0).isSome = true ∧
    (({ owing with grids := [], ready := [] } : State).modCore 3 (fun c => { c with promised := none })).wish 0 = none := by decide +kernel
def detReady : State := { holding with grids := holding.grids.map (fun g => { g with lr := { g.lr with det := true, lc := 1 } }) }
theorem wit_detGridStart : (detReady.headGrid 0).any (fun g => g.lr.det && !g.started && !g.ended && !(detReady.heldCores g.lr.part).isEmpty) = true := by
  decide +kernel
theorem wit_blockAdmission : (holding.pick 0).any (fun x => decide (x.2.1 = .new 0) && (holding.framePlace x.1.lr.part x.1.lr.frameBytes).isSome) = true := by
  decide +kernel
/-- A saved block that may resume, of a grid that has admitted its one block. -/
def parkedBlock : State :=
  { holding with blocks := [{ Block.blank with bid := 3, gid := 7, loc := .saved, resume := true, slices := [Slice.placed], gangs := [(0, [0])] }]
                 grids := holding.grids.map (fun g => { g with nextB := 1 }) }
theorem wit_blockRestore : (parkedBlock.pick (parkedBlock.blk 3).part).any (fun x => decide (x.2.1 = .saved 3)) = true := by decide +kernel
def ended : State := idle.modBlk 0 (fun b => { b with slices := b.slices.map (fun sl => { sl with ended := true, live := 0, act := 0 }) })
def endedFlushed : State := ended.modBlk 0 (fun b => { b with bar := 1 })
theorem wit_blockRetire : (ended.blk 0).loc = .resident 0 ∧ ended.blockDone (ended.blk 0) = true ∧ (ended.blk 0).bar = 0 ∧
    (endedFlushed.blk 0).bar ≠ 0 ∧ endedFlushed.blockDone (endedFlushed.blk 0) = true ∧ endedFlushed.flushed 0 1 = true := by decide +kernel
/-- A grid whose block has retired: by itself, failed, with a link to the record, and with a link to a page that is not mapped. -/
def done1 (failed : Bool) (tlk : W64) : State :=
  { recorded with blocks := [], grids := [{ Grid.blank with gid := 7, retired := 1, failed := failed, lr := { Launch.blank with tlk := tlk } }] }
theorem wit_gridRetire : ∀ f ∈ [true, false], ((done1 f 0).grids.find? (fun g => g.gid == 7)).any (fun g => (done1 f 0).gridOver g &&
    decide (g.failed = f) && !g.ended && g.cand.isNone) = true := by decide +kernel
theorem wit_gridRetire_links : (((done1 false 0x100).recallLaunch 0 0x100).readLaunch 0 0x100 (some 0)).toOption.isSome = true ∧
    (((done1 false 0x10000).recallLaunch 0 0x10000).readLaunch 0 0x10000 (some 0)).toOption.isSome = false := by decide +kernel
def trapped0 : State := idle.takeTrap 0 { cause := .trap }
/-- The trap's cycle is over on its core. -/
def settled0 : State := trapped0.modSec 0 0 (fun x => { x with time := x.time + 1 })
theorem wit_blockStop : (trapped0.blk 0).loc = .resident 0 ∧ (trapped0.blk 0).stop.isSome = true ∧ (trapped0.blk 0).bar = 0 ∧
    settled0.blk 0 = trapped0.blk 0 ∧ settled0.settled (settled0.blk 0) = true ∧ settled0.drained (settled0.blk 0) = true := by decide +kernel
def stopped1 : State := trapped0.modBlk 0 (fun b => { b with bar := 1 })
theorem wit_blockSave : (stopped1.blk 0).stop.isSome = true ∧ (stopped1.blk 0).bar ≠ 0 ∧ stopped1.drained (stopped1.blk 0) = true ∧
    stopped1.flushed 0 (stopped1.blk 0).bar = true ∧ (stopped1.grid (stopped1.blk 0).gid).ended = false ∧
    ({ stopped1 with grids := [{ Grid.blank with ended := true }] }.grid (stopped1.blk 0).gid).ended = true := by decide +kernel
/-- A record whose block has been saved, and one that the trap log holds already. -/
def recSaved (logged : Bool) : State :=
  { ({ trapped0 with keys := paged.keys, fn := paged.fn, fatb := paged.fatb, parts := paged.parts, l3 := paged.l3 } : State).modBlk 0 (fun b => { b with loc := .saved }) with
    recs := trapped0.recs.map (fun r => { r with logged := logged })
    host := { trapped0.host with pages := updAt (fun p => { p with trap := { p.trap with size := 2 } }) 0 trapped0.host.pages } }
theorem wit_trapRecordWrite : (∀ b, ((recSaved b).recs[0]?).any (fun r => (recSaved b).recReady 0 r && decide (r.logged = b) && !(recSaved b).host.pwrfail && !r.device) = true) ∧
    ((recSaved true).recs[0]?).any (fun r => let k := (recSaved true).recRing r
      decide ((k.tail + 2 ^ 32 - k.head) % 2 ^ 32 ≠ k.size) &&
        ((recSaved true).writeVirt r.part (k.base + 128 * (k.tail % max 1 k.size)) (recordBytes r)).toOption.isSome) = true := by decide +kernel
def idled : State := { idle with clock := 10 ^ 12 }
theorem wit_watchdogExpiry : (idled.blk 0).loc = .resident 0 ∧ (idled.blk 0).slices.findIdx? (fun sl => !sl.ended) = some 0 ∧ (idled.blk 0).stop = none ∧
    idled.wdogLim ≠ 0 ∧ idled.wdogLim.toNat ≤ idled.idleTime (idled.blk 0) := by decide +kernel

/-- The placed block with one memory operation of a kind at a stage. -/
def opAt (k : MopKind) (stage : Nat) (accs : List Access := []) : State :=
  idle.modSl 0 0 (fun sl => { sl with mops := [{ Mop.blank with id := 9, kind := k, stage := stage, accs := accs }] })
/-- The conditions that every completing operation meets, its stage and its accesses. -/
def opReady (s : State) (p : Mop → Bool) : Bool :=
  ((s.sl 0 0).mops.find? (fun m => m.id == 9)).any (fun m => !m.absent && !(s.sl 0 0).blocks m && !s.signPending 0 m.iss && !s.groupHeld 0 m && !s.groupOpen 0 m && p m)
def oneAcc : List Access := [{ Access.blank with ea := 128, bytes := 4, done := true }]
theorem wit_memoryOpComplete_reads : ∀ k ∈ [MopKind.load, .atom, .acas, .red, .redrd, .reddcl, .pref],
    opReady (opAt k 4 oneAcc) (fun m => decide (m.kind = k) && decide (m.stage = 4) && m.accs.all (fun a => a.done)) = true := by decide +kernel
theorem wit_memoryOpComplete_fences : ∀ k ∈ [MopKind.fence, .tfence, .ifence, .sign, .harvest],
    opReady (opAt k 4) (fun m => decide (m.kind = k) && decide (m.stage = 4)) = true := by decide +kernel
theorem wit_memoryOpComplete_stores : ∀ k ∈ [MopKind.store, .redf, .rwb, .rinv, .rwbi],
    opReady (opAt k 5 oneAcc) (fun m => decide (m.kind = k) && decide (m.stage = 5) && decide (m.arg = 0) && decide ((opAt k 5 oneAcc).netw = []) &&
      decide ((opAt k 5 oneAcc).addQ = []) && decide ((opAt k 5 oneAcc).l2w = []) && !m.accs.any (fun a => (opAt k 5 oneAcc).rangePending 0 m.bar false a)) = true := by decide +kernel
theorem wit_memoryOpComplete_bench : ∀ k ∈ [MopKind.ldb, .stb, .atomb],
    opReady (opAt k 0 oneAcc) (fun m => m.kind.bench && decide (m.kind ≠ .divide) && ((opAt k 0 oneAcc).blk 0).benchOps m.iss == [] &&
      !m.accs.any (fun a => (opAt k 0 oneAcc).benchHeld 0 m.iss a.ea a.bytes (decide (m.kind ≠ .ldb)))) = true := by decide +kernel
theorem wit_idivIremCompletion : ((opAt .divide 0).sl 0 0).mops.any (fun m => m.seq == 0 && decide (m.kind = .divide)) = true := by decide +kernel

/-- A line of the L1 with its first byte dirty. -/
def l1x : L1Line := { line := 4, o := false, valid := 15, dirty := 1, data := 7, promo := 1, poison := 0, owners := [⟨0, 0, 0, 4, 1, 0, 15, 0, 0, 0⟩] }
def cached : State := idle.modCore 0 (fun c => { c with l1 := [l1x] })
theorem wit_l1Eviction : (cached.core 0).l1Find 4 = some l1x ∧ l1x.dirty.getLsbD 0 = true ∧ l1x.dirty.getLsbD 127 = false := by decide +kernel

def write1 : MWrite := { id := 1, sl := 3, line := 4, kid := 0, mask := 1, data := 7, poison := 0, wo := false, src := Source.blank, thrs := [] }
def l2x (wr : Bool) : L2Line := { sl := 3, line := 4, kid := 0, data := 0, dirty := 0, wr := wr, poison := Pois.none }
/-- A write on its way to a slice that holds its line with leave to write, without it, or not at all. -/
def underway (l : List L2Line) : State := { idle with netw := [write1], l2 := l }
theorem wit_l2WriteReceive : (underway []).netw[0]? = some write1 ∧ write1.home = false ∧ (underway []).pinned 4 0 = false ∧ (underway []).l2Find 3 4 0 = none ∧
    ∀ b, (underway [l2x b]).l2Find 3 4 0 = some (l2x b) ∧ (underway [l2x b]).pinned 4 0 = false := by decide +kernel

theorem wit_memoryEccError : idle.checks = true ∧ idle.poison.contains 5 = false ∧ ({ idle with checks := false } : State).checks = false ∧
    Memory.wf ({ idle with checks := false } : State).mem = true := by decide +kernel

def req1 (write : Bool) : DirReq := { id := 2, sl := 3, line := 4, kid := 0, write := write, acks := [], rb := 4, sz := 0, evict := false }
def entry (rb sz : Nat) (sm : BitVec 32) : DirEntry := { rb := rb, kid := 0, sz := sz, qt := 0, dm := 0, sm := sm, used := 0 }
def asked (w : Bool) (l : List DirEntry) : State := { idle with dirQ := [req1 w], dir := l }
/-- Eight entries of the set that line 4 falls in, none of them its own. -/
def fullSet : List DirEntry :=
  (((List.range 512).filter (fun l => decide (dirSet l = dirSet 4) && decide (l ≠ 4))).take 8).map (fun l => entry l 0 0)
/-- The same with an entry whose line slice 7 holds. -/
def heldSet : List DirEntry := fullSet.map (fun e => { e with sm := sliceBit 7 })
theorem wit_directoryRequest_full : ∀ l ∈ [fullSet, heldSet], let s := asked true l
    8 ≤ s.waysUsed 4 ∧ s.dir.all (fun e => !e.covers 4 0) = true ∧ s.reqWaits (req1 true) = false ∧
    (leastBy (fun (e : DirEntry) => e.used) ((s.setEntries 4).filter (fun e => !s.msgsOver e.rb e.sz e.kid &&
      !s.dirQ.any (fun q => q.id != 2 && !q.acks.isEmpty && q.kid == e.kid && meets q.rb q.sz e.rb e.sz)))).any (fun e =>
        e.sm == if decide (l = heldSet) then sliceBit 7 else 0) = true := by decide +kernel
theorem wit_directoryRequest : (∀ w, (asked w []).dirQ[0]? = some (req1 w) ∧ (asked w []).reqWaits (req1 w) = false ∧ (req1 w).acks = []) ∧ (asked true [entry 4 0 0]).dir.any (fun e => e.covers 4 0 && e.sm &&& sliceBit (Nat.xor 3 16) == 0) = true ∧
    (asked true [entry 4 0 (sliceBit 19)]).dir.any (fun e => e.covers 4 0 && e.sm &&& sliceBit (Nat.xor 3 16) != 0 && decide (e.sz = 0)) = true ∧
    (asked true [entry 4 2 (sliceBit 19)]).dir.any (fun e => e.covers 4 0 && e.sm &&& sliceBit (Nat.xor 3 16) != 0 && decide (e.sz ≠ 0)) = true ∧
    (asked true [entry 4 2 (sliceBit 19)]).waysUsed 4 < 8 ∧ (asked true []).waysUsed 4 < 8 := by decide +kernel

def msg1 (inval : Bool) : DirMsg := { req := 2, sl := 3, rb := 4, sz := 0, kid := 0, inval := inval, held := true }
theorem wit_recallInvalidationReceive : ∀ b, let s := { idle with recQ := [msg1 b], l2 := [l2x true] }
    s.recQ[0]? = some (msg1 b) ∧ s.l2.filter (s.concerns (msg1 b)) = [l2x true] ∧ s.pinned 4 0 = false := by decide +kernel
/-- An acknowledgement that a request awaits, alone or with another, before a grant or before an entry is given up. -/
def acked (acks : List Nat) (evict : Bool) (l : List DirEntry) : State :=
  { idle with ackQ := [msg1 true], dir := l, dirQ := [{ req1 true with acks := acks, evict := evict }] }
theorem wit_directoryAckReceive : (acked [3] false [entry 4 0 0]).ackQ[0]? = some (msg1 true) ∧ (acked [3] false [entry 4 0 0]).lost = [] ∧
    (acked [3, 5] false [entry 4 0 0]).dirQ.any (fun r => r.id == 2 && decide (r.acks.erase 3 ≠ [])) = true ∧
    (acked [3] false [entry 4 0 0]).dirQ.any (fun r => r.id == 2 && decide (r.acks.erase 3 = []) && !r.evict) = true ∧
    (acked [3] true [entry 4 0 0]).dirQ.any (fun r => r.id == 2 && decide (r.acks.erase 3 = []) && r.evict) = true ∧
    (acked [3] false [entry 4 0 0]).dirQ.all (fun r => !({ acked [3] false [entry 4 0 0] with ackQ := [] } : State).reqWaits r) = true ∧ (acked [3] false [entry 4 0 0]).dir.any (fun e => e.covers 4 0 && !e.conflict { req1 true with acks := [] }) = true := by decide +kernel
theorem wit_directoryQuietTick : ∀ a ∈ (asked true [entry 4 0 0]).dir, ∀ b ∈ (asked true [entry 4 0 0]).dir, (asked true [entry 4 0 0]).mergeable a b = false := by
  decide +kernel
theorem wit_directoryEntryError : (asked true [entry 4 0 0]).dir[0]? = some (entry 4 0 0) := by decide +kernel

/-- An atomic at its point, on a line of a device-ordered frame and on one that its slice may write. -/
def atomic (attr : Attr) : State :=
  { opAt .atom 3 [{ Access.blank with ea := 512, bytes := 4, pa := 512, attr := attr }] with
    atomQ := [{ id := 1, sl := 3, bid := 0, slice := 0, op := 9, part := 0, line := 4, kid := 0 }], l2 := [l2x true] }
theorem wit_atomicPerform : ∀ t ∈ [Attr.sc, .rc], (atomic t).atomQ[0]?.any (fun r => ((atomic t).sl r.bid r.slice).mops.any (fun m => m.id == r.op &&
    (m.accs[r.part]?).any (fun a => decide (a.attr = t))) && !(atomic t).pinned r.line r.kid && ((atomic t).core ((atomic t).blk r.bid).core).l1.isEmpty && !(atomic t).ownWrite ((atomic t).blk r.bid).core r.line r.kid &&
    !(atomic t).diePending ((atomic t).blk r.bid).core r.line r.kid && ((atomic t).l2Find r.sl r.line r.kid).any (fun x => x.wr)) = true := by
  decide +kernel

/-- An addend for a slot that the L3 holds declared, and for one that it holds undeclared. -/
def addend (word : Nat) : State :=
  { idle with addQ := [{ id := 1, sl := 0, pa := 128 * 0x300, kid := 0, val := 0x3F800000, src := Source.blank }], l3 := [held3 0x300 [(0, word)]] }
theorem wit_reductionAddendFold : (∀ w ∈ [0, 2 ^ 119], (addend w).addQ[0]?.any (fun d =>
      ((addend w).core d.src.core).l1.isEmpty && !readPoison (fun l => ({ addend w with addQ := [] } : State).devLine l d.kid) (d.pa / 16 * 16) 16 && decide ((addend w).netw = []) && decide ((addend w).l2w = []) &&
      ((RedSlot.ofBytes (({ addend w with addQ := [] } : State).homeBytes d.kid (d.pa / 16 * 16) 16)).isSome == decide (w = 2 ^ 119))) = true) := by decide +kernel
def part1 : PartLine := { id := 5, sl := 3, line := 4, kid := 0, els := [], last := 0 }
theorem wit_partials : ({ idle with partials := [part1] } : State).partOf 3 4 0 = some part1 ∧ ({ idle with partQ := [part1] } : State).partQ[0]? = some part1 := by
  decide +kernel
theorem wit_pageWalk : governing (idle.launch 0).ranges (65536 * 3) = some 0 ∧ (idle.launch 0).ranges[0]? = some ⟨0, 2 ^ 20, true, true, .rc⟩ := by decide +kernel
def l3x (d : Bool) : L3Line := { held3 4 [(0, 7)] with dirty := d }
theorem wit_l3Eviction : ∀ d, ({ idle with l3 := [l3x d] } : State).l3Find 4 0 = some (l3x d) := by decide +kernel
theorem wit_l2Eviction : (underway [l2x false]).l2Find 3 4 0 = some (l2x false) ∧ (underway [l2x false]).pinned 4 0 = false := by decide +kernel

/-- The state after some instructions and steps of other agents, each of which goes on. -/
def ran (l : List Instr) (s : State) : State := l.foldl (fun s i => match exec i s with
  | .next t => t
  | _ => s) s
/-- A slice instruction of the placed block, with its operands. -/
def form (ty : Ty) (md : BitVec 6) (od oa ob : Opnd) : FormR :=
  { ty := ty, md := md, gp := 7, gn := false, dist := 0, setf := 1, yld := false, od := od, oa := oa, ob := ob, wm := 0 }
def k16 : Opnd := .uni 16 .w 0
/-- A block of the placed kind whose uniform registers from k16 hold a descriptor. -/
def given (key : Nat) (l : List (Nat × W32)) : State :=
  (place key).modSl 0 0 (fun sl => { sl with k := l.foldl (fun m p => mput 0 m p.1 p.2) sl.k })
def heads (s : State) : List (Block × LoomOp) := (s.residents 0).filterMap (fun b => (s.loomHead 0 b).map (fun o => (b, o)))
def lalloced : State := ran [.lalloc (form .b32 0 (.tile 1) .none .none)] (given 0 [])
def mxving : State := let s := ran [.mxv (form .q4 49 .none k16 .none)] (given 0x18A [(18, 0), (27, 1)])
  { s with mxvs := s.mxvs.map (fun c => { c with stage := 3 }) }
theorem wit_loomAccept : lalloced.loomPlaces 0 < 2 ∧ (heads lalloced).length = 1 ∧ lalloced.mxvs.filter (lalloced.mxvWaits 0) = [] ∧
    mxving.loomPlaces 0 < 2 ∧ heads mxving = [] ∧ (mxving.mxvs.filter (mxving.mxvWaits 0)).length = 1 := by decide +kernel
/-- The head of a state's Loom operations meets a test. -/
def headOp (s : State) (p : Block → LoomOp → Bool) : Bool := (s.loomOps 0).head?.any (fun x => p x.1 x.2)
def sparse : State := ran [.lmms (form .q4 0 (.tile 1) k16 .none), .loomAccept 0] (given 0 [(25, 4096)])
theorem wit_metadataGrant : headOp sparse (fun b o => let n := metaWords (wordTy o.word)
    let rows := (List.range 128).map (fun m => metaRow o.desc m)
    decide (o.stage = .accepted) && decide (wordOpc o.word = 0x186) && !rows.any (fun a => sparse.engineHeld b.bid o.iss a (4 * n) false) &&
      (rows.find? (fun a => b.benchPoisoned a (4 * n))).isNone) = true := by decide +kernel
def draining0 : State := ran [.ldrn (form .f32 1 (.tile 1) k16 .none), .loomAccept 0] (given 0 [])
def zeroed : State := ran [.lzero (form .b32 0 (.tile 1) .none .none), .loomAccept 0] (given 0 [])
def poisonedBench : State := ran [.lldc (form .f32 0 (.tile 1) k16 .none), .loomAccept 0] ((given 0 []).modBlk 0 (fun b => { b with bpois := [0] }))
def lopfed : State := ran [.lopf (form .b32 0 .none (.lane 8 .w 0) (.imm 1))] (given 0 [])
theorem wit_loomOperationComplete : headOp draining0 (fun b o => !o.isLopf && draining0.canComplete 0 b o && o.isDrain) = true ∧
    headOp zeroed (fun b o => !o.isLopf && zeroed.canComplete 0 b o && !o.isDrain && (o.result b).toOption.isSome) = true ∧
    headOp poisonedBench (fun b o => !o.isLopf && poisonedBench.canComplete 0 b o && !o.isDrain && (o.result b).toOption.isNone) = true ∧
    headOp lopfed (fun b o => o.isLopf && decide (wordMod o.word 0 0 = 0) && lopfed.mayRedo b.bid o.id && b.loomQ.all (fun p => !decide (p.iss < o.iss))) = true := by decide +kernel
def drained0 : State := ran [.loomOperationComplete 0] draining0
def reducing : State := let s := ran [.ldrx (form .f32 0 (.tile 1) k16 .none), .loomAccept 0, .loomOperationComplete 0] (given 0 [])
  s.modBlk 0 (fun b => { b with loomQ := b.loomQ.map (fun o => { o with row := 128 }) })
theorem wit_drainStoreComplete : headOp drained0 (fun b o => decide (o.stage = .draining) && o.isDrain && decide (o.turn ≠ 0) && drained0.mayRedo b.bid o.id && drained0.goesOn b.bid o.iss && decide (wordOpc o.word = 0x188) &&
      match drained0.prepare 0 b.bid o.iss (cornerRuns true false true (wordTy o.word) o.desc) with
        | .ok s1 _ => match s1.runsBytes (dieOf 0) b.bid [] with
          | .ok _ => true
          | .error _ => false
        | _ => false) = true ∧
    headOp reducing (fun b o => decide (o.stage = .draining) && o.isDrain && decide (o.turn ≠ 0) && reducing.mayRedo b.bid o.id && reducing.goesOn b.bid o.iss && decide (wordOpc o.word = 0x189) && decide (0 < o.row) &&
      decide (cornerRows o.desc ≤ o.row) && reducing.addQ.isEmpty) = true := by decide +kernel
noncomputable def loading : State := ran [.lldc (form .f32 1 (.tile 1) k16 .none), .loomAccept 0, .operandBufferLineEntry 0] (given 0 [])
theorem wit_operandBufferLineEntry : headOp loading (fun b o => o.live && !o.unread.isEmpty &&
    (loading.core 0).pins.any (fun q => q.op == o.id && !loading.windowDown (128 * q.line))) = true := by decide +kernel
def mxvFull : State := { mxving with mxvs := mxving.mxvs.map (fun c => { c with rows := 1 }) }
def mxvStoring : State := { mxving with mxvs := mxving.mxvs.map (fun c => { c with seg := some { c.segment false with kpos := 32 * c.kb, turn := 4 } }) }
/-- A call of two blocks on the Mill, the second of which lies at another controller, with its activation window in the buffers. -/
def mxvTwo : State := ran [.mxv (form .q4 49 .none k16 .none)] (given 0x18A [(16, 4078), (18, 0), (27, 2)])
def mxvMill : State := ran (mxvTwo.mxvs.map (fun c => .mxvSegmentComplete c.id))
  { mxvTwo with mxvs := mxvTwo.mxvs.map (fun c => { c with stage := 3, mill := true, seg := some (c.segment true) }) }
theorem wit_mxvSegmentComplete : mxvFull.mxvs.all (fun c => decide ((mxvFull.blk c.bid).loc = .resident 0) && c.seg.isNone && mxvFull.mayRedo c.bid c.id && decide (mxvRows c.desc ≤ c.rows)) = true ∧
    mxvStoring.mxvs.all (fun c => c.seg.any (fun g => !g.mill && decide (32 * c.kb ≤ g.kpos) && decide (mxvStoring.loomTurn 0 = some g.turn) && g.late c &&
      mxvStoring.goesOn c.bid c.iss &&
      let runs := (mxvYRuns c.word c.desc g.first (g.last + 1 - g.first)).map (fun p => Run.store c.ym p.1 p.2)
      let reads := c.priors g.first (g.last + 1 - g.first)
      match mxvStoring.prepare 0 c.bid c.iss (runs ++ reads) with
        | .ok s1 ps => (s1.runsBytes (dieOf 0) c.bid (reads.zip (ps.drop runs.length))).toOption.isSome
        | _ => false)) = true := by decide +kernel
theorem wit_millBlockForward : mxvMill.mxvs.length = 1 ∧ mxvMill.mxvs.all (fun c => c.seg.any (fun g => g.mill && decide (0 = g.first + g.taken) && decide (0 ≤ g.last) &&
      decide (g.kpos / 32 = 0) && decide (1 < c.windowN g) && !g.has 1 && decide (mxvMill.bankOf c 0 0 ≠ mxvMill.bankOf c 0 1) && (c.held g).any (fun x => x.toOption.isSome)) &&
      decide ((mxvMill.blk c.bid).loc ≠ .saved) && !c.absent && match mxvMill.readParts c millDie [c.w 0 1 1] [] with
        | .ok _ _ => true
        | _ => false) = true := by decide +kernel
/-- A DCPY of one row of 2,052 bytes, issued and then active. -/
def copying : State := ran [.dcpy (form .b32 0 .none k16 .none)] (given 0x1C0 [(20, 2052), (21, 1)])
def copyActive : State := ran [.drayCommandStart 0] copying
theorem wit_drayCommandStart : ((copying.queued (.dray 0)).filter (fun c => decide (c.stage = .active))).length < 4 ∧
    ((copying.queued (.dray 0)).filter (fun c => decide (c.stage = .queued) && copying.cmdRuns c)).length = 1 := by decide +kernel
theorem wit_drayChunkComplete : copyActive.cmds.all (fun c => decide (c.eng = .dray 0) && decide (c.stage = .active) && copyActive.cmdRuns c &&
    !copyActive.acquirePending c && decide (copyActive.drayRotation 0 = [c]) && (copyActive.arriveHeld c).isNone && decide (c.opc = 0x1C0) && c.fault.isNone && decide (c.units < drayRows c.desc) && decide (c.part = 0) &&
    decide (4096 < 2 * drayRb c.desc) && decide (drayRb c.desc ≤ 4096) &&
    match copyActive.doMove c { src := .row c.units, dst := c.units } 0 (drayRb c.desc) with
      | .ok _ () => true
      | _ => false) = true := by decide +kernel
def withCmds (s : State) (f : EngCmd → EngCmd) : State := { s with cmds := s.cmds.map f }
theorem wit_drayChunkComplete_over : (withCmds copyActive (fun c => { c with units := 1 })).cmds.all (fun c => decide (drayRows c.desc ≤ c.units)) = true ∧
    (withCmds copying (fun c => { c with stage := .finished })).cmds.all (fun c => decide (c.stage = .finished) && ((withCmds copying (fun c => { c with stage := .finished })).arriveHeld c).isNone &&
      !copying.adding c) = true ∧
    (withCmds copying (fun c => { c with stage := .finished, due := [(2, 0)], cb := some 1 })).cmds.all (fun c => decide (c.stage = .finished) &&
      ((withCmds copying (fun c => { c with stage := .finished, due := [(2, 0)], cb := some 1 })).arriveHeld c).isSome) = true := by decide +kernel
def querying : State := { ran [.svqry (form .b32 0 .none k16 .none)] (given 0 []) with tables := updAt (fun _ => [Table.blank]) 0 [[], [], [], []] }
def active (s : State) : State := withCmds s (fun c => { c with stage := .active, bar := 1 })
theorem wit_surveyorCommandStart : (querying.queued (.surveyor 0)).all (fun y => decide (y.stage ≠ .active)) = true ∧
    ((querying.queued (.surveyor 0)).filter (fun c => decide (c.stage = .queued) && querying.cmdRuns c)).length = 1 := by decide +kernel
/-- A batch of the Surveyor is due: its active command waits for nothing. -/
def batchDue (s : State) (p : EngCmd → Bool) : Bool :=
  ((s.queued (.surveyor 0)).find? (fun c => decide (c.stage = .active) && s.cmdRuns c)).any (fun c => (s.cmd c.id).isSome && !s.acquirePending c &&
    (s.engFence c).isNone && c.fault.isNone && p c)
def pointing : State := active { withCmds (ran [.svpt (form .b32 0 .none k16 .none)] (given 0 [(19, 0x00F00000), (24, 0x8000)])) (fun c => { c with arg := 1 }) with
  l3 := [held3 0x100 [(0, 5)]] }
def answering : State := withCmds (active (ran [.svmap (form .b32 0 (.lane 8 .w 0) k16 .none)] (given 0 []))) (fun c => { c with arg := 1 })
def freeing : State := withCmds (active (ran [.svfree (form .b32 0 .none k16 .none)] (given 0 []))) (fun c => { c with arg := 1 })
theorem wit_surveyorBatchComplete : batchDue (active querying) (fun c => decide (c.units = 0) && decide (c.arg = 0) && ((active querying).svBeginFailure c).isNone &&
      decide (wordOpc c.word ≠ 0x1CD)) = true ∧
    batchDue answering (fun c => decide (c.arg ≠ 0) && decide (wordOpc c.word = 0x1CB)) = true ∧
    batchDue freeing (fun c => decide (c.arg ≠ 0) && decide (wordOpc c.word = 0x1CC)) = true ∧
    batchDue pointing (fun c => decide (c.arg ≠ 0) && decide (c.units < c.svTotal) && match pointing.svUnit c with
      | .cut _ => true
      | _ => false) = true := by decide +kernel

def stream0 : Stream :=
  { part := 0, sid := 0, np := 4, pb := 0, pstr := 65536, dkm := 0, e4m3 := false, nsb := 4, made := 0, ended := 0, pass := none, fetch := none }
/-- A subscription asked for, of one page, and its stream. -/
def asking : State :=
  let s := ran [.atsub (form .b32 0 .none k16 .none)] (given 0x1CF [])
  { s with cmds := s.cmds.map (fun c => { c with bar := 1 }), criers := updAt (fun k => { k with streams := [stream0], subs := k.subs.map (fun y => { y with
    accepted := false, ended := false, pages := [], nl := 1, lb := 0, sid := 0, part := 0, qr := 1, nslot := 1, rbase := 0 }) }) 0 s.criers }
theorem wit_subscriptionAccept : ((asking.crier 0).subs[0]?).any (fun y => (asking.cmd y.cmd).any (fun c => !c.mark && !asking.acquirePending c &&
    (asking.engFence c).isNone && !c.absent && (asking.cmds.all (fun z => decide (wordOpc z.word ≠ 0x1CE))) &&
    decide ((asking.crier 0).subs.length = 1) && (asking.stream y.part y.sid).any (fun t => decide (t.made ≤ t.nsb) && decide (y.rbase + y.nslot * t.slotBytes ≤ (asking.blk y.bid).bsize) &&
      t.pass.isNone && match asking.engRead c 0 [Run.read true y.lb.toNat (4 * y.nl)] with
        | .ok s1 l => listOk t.np ((wordsOf (l.headD [])).map (fun w => w.toNat)) && decide ((partialBytes y.qr (dimOf t.dkm) + 255) / 256 ≤ (s1.crier 0).free)
        | _ => false)) && !y.accepted && !y.ended && asking.runs y.bid && y.pages.isEmpty) = true := by decide +kernel
/-- A subscription of page 0 taken, before its page is fetched, and then while it is delivered. -/
def taking : State := { idle with criers := updAt (fun k => { k with streams := [stream0], subs := [{ sub0 with deliv := [], ring := [], pages := [0], nl := 1 }] }) 0 idle.criers }
theorem wit_crierPageFetch : ((taking.crier 0).rotation.head?).any (fun t => t.pass.isSome || !taking.acceptsFirst 0 t) = true ∧ (taking.crier 0).streams.all (fun t => t.fetch.isNone) = true ∧ ((taking.crier 0).rotation.head?).any (fun t =>
    (taking.duePage (taking.crier 0) t).any (fun p => (taking.crier 0).room p.2)) = true := by decide +kernel
def delivering : State :=
  let s := ran [.atsub (form .b32 0 .none k16 .none)] (given 0x1CF [])
  let t : Stream := { stream0 with fetch := some (0, [1, 2], [5]) }
  let y : Sub := { sub0 with cmd := (s.cmds.map (fun c => c.id)).headD 0, deliv := [], ring := [], pages := [0], nl := 1 }
  { s with criers := updAt (fun k => { k with streams := [t], subs := [y] }) 0 s.criers }
theorem wit_pageDelivery : ((delivering.crier 0).streams.find? (fun t => t.fetch.isSome)).any (fun t => t.fetch.any (fun f => f.2.2.head?.any (fun id =>
    (delivering.subId id).any (fun y => y.freeSlot.any (fun n => !delivering.engineHeld y.bid delivering.iss (y.slotAddr t n) f.2.1.length true) &&
      decide ((delivering.blk y.bid).loc ≠ .saved) && (delivering.cmd y.cmd).isSome)))) = true := by decide +kernel
def merging : State := { idle with criers := updAt (fun k => { k with subs := [{ sub0 with posted := [(0, [])] }] }) 0 idle.criers }
theorem wit_mergeFold : ((merging.crier 0).subs[0]?).any (fun y => (y.posted.lookup y.merged).isSome && !y.ended && decide ((merging.crier 0).mergeNext = some y.id)) = true := by decide +kernel

/-- A state with one command posted: its operation and the fields of its body. -/
def commanded (s : State) (op : Nat) (l : List (Nat × Nat)) : State :=
  { s with host := { s.host with ring := { s.host.ring with base := 128 * 0x400, size := 4, head := 0, tail := 1 } }
           l3 := held3 0x400 ((0x20, op) :: l) :: s.l3 }
/-- The conditions that every command's statement names. -/
def posts (s : State) (op : Nat) (p : List Byte → Bool) : Bool :=
  s.cmdPosted && decide (field s.cmdEntry 0x20 1 = op) && entryOk op s.cmdEntry && p s.cmdEntry
theorem wit_cmdShootdown : posts (commanded idle 1 []) 1 (fun l => decide (field l 8 8 = 0)) = true ∧
    (let s := { commanded idle 1 [(8, 65536), (0x10, 16)] with shooting := some (0, 1, 16) }
     posts s 1 (fun l => decide (field l 0x10 8 < 2 ^ 7) && decide (field l 8 8 ≠ 0) && decide (field l 8 8 % 65536 = 0) && decide (field l 0 8 + field l 8 8 ≤ 2 ^ 52) &&
       s.cores.all (fun k => k.l1.isEmpty) && !s.underWay (fun _ _ => true) && decide (s.shooting = some (field l 0 8 / 65536, field l 8 8 / 65536, field l 0x10 8)) && idle.shooting.isNone)) = true := by decide +kernel
def savedAt : State := { paged with blocks := [{ Block.blank with bid := 3, loc := .saved, cfa := 0x8000, slices := [{ Slice.placed with ended := true }] }] }
theorem wit_cmdResume : posts (commanded idle 2 []) 2 (fun l => (idle.blocks.find? (fun b => decide (b.loc = .saved) && b.cfa == field l 0 8)).isNone) = true ∧
    (∀ d ∈ [1, 2], let s := commanded { savedAt with l3 := held3 0x100 [(0x20, d)] :: savedAt.l3 } 2 [(0, 0x8000)]
      posts s 2 (fun l => (s.blocks.find? (fun b => decide (b.loc = .saved) && b.part == bitsOf (field l 8 8) 3 0 && b.cfa == field l 0 8)).any (fun b =>
        !b.resume && (decide (2 ≤ s.frameDisp b) == decide (d = 2)) && !s.frameRefused b)) = true) := by decide +kernel
theorem wit_cmdPartition : posts (commanded idle 3 [(0x18, 2 ^ 32)]) 3 (fun l => let w := field l 0x18 8
      decide (bitsOf w 45 40 < bitsOf w 37 32)) = true ∧
    (let s := commanded { idle with blocks := [] } 3 [(0x18, 2 ^ 32 + 2 * 2 ^ 40)]
     posts s 3 (fun l => let w := field l 0x18 8
       decide (bitsOf w 37 32 ≤ bitsOf w 45 40) && decide (bitsOf w 45 40 ≤ 32) && s.blocks.isEmpty && s.parked.isEmpty)) = true := by decide +kernel
theorem wit_cmdAttributeTable : posts (commanded idle 4 [(0, 65536)]) 4 (fun l => decide (field l 0 8 % 65536 = 0) && !idle.blocks.isEmpty) = true ∧
    posts (commanded { idle with blocks := [] } 4 [(0, 65536)]) 4 (fun l => decide (field l 0 8 % 65536 = 0)) = true := by decide +kernel
theorem wit_cmdLoadKey : posts (commanded paged 5 []) 5 (fun l => paged.keys.any (fun e => e.1 == bitsOf (field l 0 8) 5 0)) = true ∧
    posts (commanded idle 5 []) 5 (fun l => !idle.keys.any (fun e => e.1 == bitsOf (field l 0 8) 5 0)) = true := by decide +kernel
theorem wit_cmdRetireKey : posts (commanded idle 6 []) 6 (fun _ => idle.keys.isEmpty) = true ∧
    posts (commanded paged 6 []) 6 (fun l => paged.keys.any (fun e => e.1 == bitsOf (field l 0 8) 5 0) && decide (paged.retiring ≠ some (bitsOf (field l 0 8) 5 0))) = true ∧
    posts (commanded { paged with retiring := some 0 } 6 []) 6 (fun l => decide (bitsOf (field l 0 8) 5 0 = 0) &&
      paged.keys.any (fun e => e.1 == bitsOf (field l 0 8) 5 0) && !paged.underWay (fun _ _ => true) && paged.dirQ.isEmpty && paged.recQ.isEmpty && paged.ackQ.isEmpty) = true := by decide +kernel
def linked : State := { idle with host := { idle.host with links := [2, 0, 0, 0] } }
theorem wit_cmdOpenWindow : posts (commanded idle 7 [(0x10, 2 ^ 30)]) 7 (fun _ => decide ((idle.host.links[0]?).getD 0 ≠ 2)) = true ∧
    posts (commanded linked 7 [(0x10, 2 ^ 30)]) 7 (fun l => decide (field l 0x10 8 % 2 ^ 30 = 0) && decide (field l 0x10 8 ≤ 2 ^ 40) &&
      decide ((linked.host.links[bitsOf (field l 0 8) 5 4]?).getD 0 = 2) && !((linked.windows[bitsOf (field l 0 8) 3 0]?).getD Window.closed).opened) = true := by decide +kernel
def windowed : State := { linked with windows := updAt (fun _ => { opened := true, link := 0, base := 0, len := 2 ^ 30, down := false }) 0 linked.windows }
theorem wit_cmdCloseWindow : posts (commanded idle 8 []) 8 (fun _ => true) = true ∧ posts (commanded windowed 8 []) 8 (fun l =>
    ((windowed.windows[bitsOf (field l 0 8) 3 0]?).getD Window.closed).opened && !windowed.underWay (fun _ _ => true)) = true := by decide +kernel
theorem wit_cmdResetPartition : posts (commanded { idle with blocks := [], grids := [] } 9 []) 9 (fun _ => true) = true ∧
    ((commanded { idle with blocks := [], grids := [] } 9 []).resetPartition 0).blocks.any (fun b => b.part == 0) = false ∧
    posts (commanded idle 9 []) 9 (fun _ => true) = true ∧ ((commanded idle 9 []).resetPartition 0).blocks.any (fun b => b.part == 0) = true ∧
    (commanded idle 9 []).grids.any (fun g => decide (g.lr.part = 0) && !g.ended) = true := by decide +kernel
def emptying : State := { idle with host := { idle.host with saving := some [0] } }
theorem wit_cmdPreempt : posts (commanded idle 10 []) 10 (fun _ => idle.host.saving.isNone) = true ∧
    posts (commanded emptying 10 []) 10 (fun _ => emptying.blocks.all (fun b => b.stop.isNone)) = true := by decide +kernel
theorem wit_cmdClearTrapLog : posts (commanded idle 11 []) 11 (fun _ => true) = true := by decide +kernel
theorem wit_cmdReserved : (∀ op ∈ [0, 12, 255], (commanded idle op []).cmdPosted = true ∧ field (commanded idle op []).cmdEntry 0x20 1 = op) := by decide +kernel
theorem wit_registers : idle.host.powered = true ∧ idle.queueRing 0 = Ring.reset ∧ (posted.queueRing 0).size < (9 + 2 ^ 32 - (posted.queueRing 0).head) % 2 ^ 32 ∧
    (posted.queueRing 0).tail ≠ 9 ∧ (2 + 2 ^ 32 - (posted.queueRing 0).head) % 2 ^ 32 ≤ (posted.queueRing 0).size := by decide +kernel
theorem wit_hostBar2Access : (paged.host.fwst = 1 ∧ { paged with host := { paged.host with fwst := 4 } }.host.fwst ≠ 1) ∧
    (paged.writeVirt 0 ((paged.page 0).vapb + 8) [1]).toOption.isSome = true ∧ (paged.readVirt 0 ((paged.page 0).vapb + 8) 1).toOption.isSome = true ∧
    (∀ w, (paged.walkSpan 0 ((paged.page 0).vapb + 8) 1 w).toOption.any (fun ps => (paged.spanDown ps).isNone) = true) ∧
    ∀ w, (paged.walkSpan 0 ((paged.page 0).vapb + 65536) 1 w).toOption.isNone = true := by decide +kernel
def off : State := { idle with host := { idle.host with powered := false } }
theorem wit_powerOn : off.host.powered = false ∧ idle.host.powered = true := by decide +kernel
/-- An image in the check; that one passes rests on the signature, which no witness can name (the statement's conclusion names the case). -/
def checking : State := { idle with host := { idle.host with fwst := 2 } }
theorem wit_firmwareGo : idle.host.powered = true ∧ idle.host.fwst = 1 ∧ checking.host.powered = true ∧ checking.host.fwst = 2 ∧ checking.imageFailure = some 1 := by decide +kernel
/-- A report of 1,792 bytes is written where its address is mapped, whatever the signature, and fails where it is not. -/
theorem wit_attestationGo : (∃ u, paged.writeVirt 0 (paged.page 0).repaddr (paged.report 0 false) = .ok u) ∧
    ∃ e, idle.writeVirt 0 (idle.page 0).repaddr (idle.report 0 false) = .error e := by
  have ok : ∀ (s : State) (part ea : Nat) (l : List Byte), (s.walkSpan part ea l.length true).toOption.any (fun ps => (s.spanDown ps).isNone) = true →
      ∃ u, s.writeVirt part ea l = .ok u := by
    intro s part ea l h
    unfold State.writeVirt
    cases hw : s.walkSpan part ea l.length true with
    | error e => rw [hw] at h; exact absurd h (by simp [Except.toOption])
    | ok ps =>
      rw [hw] at h
      cases hd : s.spanDown ps with
      | none => exact ⟨_, by simp only [hd]; rfl⟩
      | some f => simp [Except.toOption, hd] at h
  have err : ∀ (s : State) (part ea : Nat) (l : List Byte), (s.walkSpan part ea l.length true).toOption = none → ∃ e, s.writeVirt part ea l = .error e := by
    intro s part ea l h
    unfold State.writeVirt
    cases hw : s.walkSpan part ea l.length true with
    | error e => exact ⟨e, rfl⟩
    | ok ps => rw [hw] at h; exact absurd h (by simp [Except.toOption])
  have bytes : ∀ n x : Nat, (bytesOf n x).length = n := fun n => by
    induction n with
    | zero => exact fun _ => rfl
    | succ n ih => exact fun x => by simp [bytesOf, ih]
  have len : ∀ (s : State) (p : Nat), (s.page p).nonce.length = 32 → s.host.digest.length = 64 → (s.report p false).length = 1792 := by
    intro s p h1 h2
    have h3 : (s.reportEntry p).length = 24 := by simp only [State.reportEntry, List.length_append, bytes]
    have h4 : (s.reportHead p false).length = 512 := by
      simp only [State.reportHead, List.length_append, bytes, h1, h2, h3, List.length_replicate, Bool.false_eq_true, if_false]
    unfold State.report
    simp only [List.length_append, h4, List.length_take, List.length_replicate]
    omega
  refine ⟨ok _ _ _ _ ?_, err _ _ _ _ ?_⟩
  · rw [len paged 0 (by decide +kernel) (by decide +kernel)]; decide +kernel
  · rw [len idle 0 (by decide +kernel) (by decide +kernel)]; decide +kernel
def trained : State := { idle with host := { idle.host with fwst := 3 } }
theorem wit_memoryTraining : trained.host.fwst = 3 := by decide +kernel
def hot : State := { idle with host := { idle.host with temp := 105 * 256 } }
def cooled : State := { idle with host := { idle.host with step := 3, coolAt := some 0 }, clock := 100000000 * nanosecond }
def critical : State := { idle with host := { idle.host with step := 5, temp := 115 * 256 } }
theorem wit_throttle : hot.host.step < 5 ∧ hot.mayStep = true ∧ 105 * 256 ≤ hot.host.temp ∧ cooled.mayStep = true ∧ min cooled.host.stepcap 5 < cooled.host.step ∧
    cooled.host.coolAt = some 0 ∧ 0 + 100000000 * nanosecond ≤ cooled.refTime ∧ critical.host.step = 5 ∧ 115 * 256 ≤ critical.host.temp ∧ critical.host.thcrit = false := by decide +kernel
/-- A peer's request under a loaded key, and under one that is being retired. -/
theorem wit_peerRequest : paged.retiring ≠ some 0 ∧ paged.keys.any (fun k => k.1 == 0) = true ∧ ({ paged with retiring := some 0 } : State).retiring = some 0 := by decide +kernel
theorem wit_peer : (linked.host.links[0]?).getD 0 ≠ 0 ∧ windowed.windows.any (fun w => w.opened && decide (w.link = 0)) = true := by decide +kernel

/-! ## Witnesses of the other statements -/

/-- Each well-formed sample is encoded by the word written out for it. -/
theorem test_encode : (controlWords0 ++ integerWords0 ++ floatWords0 ++ packedWords0 ++ memoryWords0 ++ syncWords0 ++ matrixWords0 ++ engineWords0).all (fun p =>
    p.2.wellFormed && p.2.encode == some p.1) = true := by decide +kernel

/-- The placed visit about to fetch a word: with a word of an unassigned opcode, an IADD, an IADD that waits for its distance, and no page. -/
def fetching (w : Nat) : State := State.reset.withFetchWord 96 w
def servesB (v : Visit) (s : State) : Bool :=
  decide (s.visit = some v) && !v.slices.isEmpty && (s.blk v.bid).stop.isNone && (s.redoLeft (s.blk v.bid)).isEmpty &&
    v.slices.all (fun i => decide ((s.sl v.bid i).ycnt = 0) && (s.sl v.bid i).wait.isNone && !(s.sl v.bid i).unfetched)
def fetchesB (s : State) (v : Visit) (p : State → W96 → Bool) : Bool := match (s.visitFetch v).2 with
  | .ok w => p (s.visitFetch v).1 w
  | .error _ => false
theorem serves_of_test {v : Visit} {s : State} (h : servesB v s = true) : Serves v s := by
  simp only [servesB, Bool.and_eq_true, decide_eq_true_eq, List.all_eq_true, Bool.not_eq_true', List.isEmpty_eq_false_iff, Option.isNone_iff_eq_none] at h
  exact ⟨h.1.1.1.1, h.1.1.1.2, h.1.1.2, fun i hi => (h.2 i hi).1.1, fun i hi => (h.2 i hi).1.2, List.isEmpty_iff.mp h.1.2, fun i hi => (h.2 i hi).2⟩
theorem wit_unassigned : servesB Visit.placed (fetching 0x014) = true ∧ fetchesB (fetching 0x014) Visit.placed (fun s1 w =>
    (match decode w with
      | .error .illegalOpcode => true
      | _ => false) && (s1.sl 0 0).distOk (rawHints w) && (s1.sl 0 0).flagsReady (rawHints w).wm 15) = true := by decide +kernel
def iaddWord : Nat := 0x00009FFB0040006010880240
def readyB (key : Nat) (f : Fields) (v : Visit) (s : State) (w : W96) (i : Nat) : Bool :=
  (s.sl v.bid i).distOk (rawHints w) && !(Ctx.make key f v s).waits s (rawHints w) ((Ctx.make key f v s).room s) i
theorem wit_stepRuns : servesB Visit.placed (fetching iaddWord) = true ∧ fetchesB (fetching iaddWord) Visit.placed (fun s1 w => match decode w with
    | .ok i => match i.fields with
      | some (key, f) => readyB key f Visit.placed s1 w 0
      | none => false
    | .error _ => false) = true := by decide +kernel
/-- A slice that issued one advance ago, before a word that asks for a distance of three. -/
def early : State := (fetching 0x00009FFB0040006011880240).modSl 0 0 (fun sl => { sl with dcnt := 1, since := some 0 })
theorem wit_stepWaits : servesB Visit.placed early = true ∧ fetchesB early Visit.placed (fun s1 w => match decode w with
    | .ok i => match i.fields with
      | some (key, f) => !readyB key f Visit.placed s1 w 0
      | none => false
    | .error _ => false) = true := by decide +kernel
theorem wit_stepFaults : servesB Visit.placed (State.reset.withVisit) = true ∧ ((State.reset.withVisit).visitFetch Visit.placed).2.toOption.isNone = true := by decide +kernel
/-- A fetch that waits for the retirement of its page's key. -/
def fetchHeld : State := { paged with retiring := some 0, visit := some Visit.placed }
theorem wit_stepHeld : servesB Visit.placed fetchHeld = true ∧ (match (fetchHeld.visitFetch Visit.placed).2 with
    | .ok _ => false
    | .error e => e.held) = true := by decide +kernel
theorem wit_agenda : State.reset.visit = none ∧ State.reset.agenda = [] ∧ ({ idle with agenda := [.directoryQuietTick] } : State).agenda = [.directoryQuietTick] := by
  decide +kernel

theorem stands_placed : Visit.placed.Stands (place 0) := by unfold Visit.Stands; decide +kernel
theorem wit_transfers : (place 0).visit = some Visit.placed ∧ mwf 0 ((place 0).sl 0 0).k = true ∧
    (let x := Ctx.make 0x004 (.l { form .b32 0 (.uni 8 .w 0) .none .none with imm := 12 }) Visit.placed (place 0x004)
     0 ∈ x.inEffect (place 0x004) ∧ x.row.lat = .one ∧ (x.pc + 12 + 12).toNat % 4 = 0 ∧
     (x.targetTrap (place 0x004) (fun _ => 13)).any (fun t => decide (t.cause = .misaligned)) = true) := by decide +kernel
/-- A PUSHJ on p1 in a slice with the given predicates. -/
def pushS (p : BitVec 28) : State := (place 0x008).modSl 0 0 (fun sl => { sl with prd := p })
def pushX (p : BitVec 28) : Ctx := Ctx.make 0x008 (.l { form .b32 0 .none (.pred 1 false) .none with imm := 0x00180018 }) Visit.placed (pushS p)
def pushFull (n : Nat) : State := (pushS 0x102).modSl 0 0 (fun sl => { sl with mstk := List.replicate n 0 })
theorem wit_pushj_act : ((pushS 0x102).sl 0 0).act = 15 ∧ ((pushS 0x102).sl 0 0).live = 15 := by decide +kernel
/-- p1 holds in threads 0 and 1, in none, and in all four. -/
theorem wit_pushj_taken : (pushX 0x102).taken (pushS 0x102) 0 = 3 ∧ (pushX 0).taken (pushS 0) 0 = 0 ∧ (pushX 0x408102).taken (pushS 0x408102) 0 = 15 := by decide +kernel
/-- A second PUSHJ on the fall-through path of the first: p1 holds in threads 0 and 1, p2 in thread 2. -/
def pushNest : State := (pushS 0x10102).modSl 0 0 (fun sl => (pushX 0x10102).pushj (pushS 0x10102) 0 sl)
def pushX2 : Ctx := Ctx.make 0x008 (.l { form .b32 0 .none (.pred 2 false) .none with imm := 0x00180018 }) Visit.placed pushNest
theorem wit_pushj_nested : let sl := (pushS 0x10102).sl 0 0
    let u := (pushX 0x10102).pushj (pushS 0x10102) 0 sl
    let in_ := pushNest.sl pushX2.bid 0
    (pushX 0x10102).taken (pushS 0x10102) 0 = 3 ∧ sl.act &&& ~~~3 = 12 ∧ in_.act = u.act ∧ in_.mstk = u.mstk ∧ in_.live = u.live ∧ sl.act &&& ~~~sl.live = 0 ∧
    pushX2.taken pushNest 0 = 4 ∧ (12#4 &&& ~~~4 == 0) = false := by decide +kernel
theorem wit_join : entryMask (stackEntry true 1 24) &&& 4#4 = 0 ∧ entryMask (stackEntry false 2 36) &&& 4#4 = 0 ∧ (entryMask (stackEntry true 6 48) &&& 4#4 == 0) = false := by decide +kernel
theorem wit_joinEmpty : ((Ctx.make 0x009 (.r (form .b32 0 .none .none .none)) Visit.placed (place 0)).joinTrap (place 0)).isSome = true := by decide +kernel
theorem wit_pushjFull : ((pushX 0x102).pushjTrap (pushFull 15)).isSome = true ∧ ((pushX 0x102).pushjTrap (pushFull 14)).isNone = true := by decide +kernel
theorem wit_yield : ((place 0).modSl 0 0 (fun sl => { sl with ycnt := 1 })).visit = some Visit.placed ∧
    0 < (((place 0).modSl 0 0 (fun sl => { sl with ycnt := 1 })).sl 0 0).ycnt ∧ ((place 0).blk 0).stop = none ∧ (place 0).redoLeft ((place 0).blk 0) = [] := by decide +kernel
/-- A restored block with a saved operation that is still to be performed. -/
def redoing : State := { copying.modBlk 0 (fun b => { b with redo := copying.cmds.map (fun c => c.id) }) with visit := some Visit.placed }
theorem wit_redo : redoing.visit = some Visit.placed ∧ (redoing.blk 0).stop = none ∧ redoing.redoLeft (redoing.blk 0) ≠ [] := by decide +kernel
theorem wit_workQueues : idle.det 0 = false ∧ (idle.core (idle.blk 0).core).queue 3 = [] ∧ (idle.blk 0).core < idle.cores.length ∧
    (idle.core (idle.blk 0).core).wq.length = 4 ∧ [1#32, 2#32].length + idle.reservedEntries (idle.blk 0).core ≤ 1024 := by decide +kernel
def humble (key : Nat) : State := { place key with grids := [{ grid0 with priv := false }] }
theorem wit_privilege : ∀ c ∈ [(0x012, form .b32 0 (.sreg 0x81) (.lane 8 .w 0) .none), (0x115, form .b32 0 .none (.lane 8 .w 0) .none), (0x113, form .b32 3 .none .none .none),
      (0x011, form .b32 0 (.lane 8 .w 0) (.sreg 0x80) .none), (0x05F, form .b32 0 (.lane 8 .w 0) (.sreg 0x85) .none)],
    (humble c.1).visit = some Visit.placed ∧ ((humble c.1).grid ((humble c.1).blk 0).gid).priv = false ∧
      (Ctx.make c.1 (.r c.2) Visit.placed (humble c.1)).deferredTrap ((humble c.1).opened c.1 (.r c.2) Visit.placed) = none := by decide +kernel

theorem wit_division : (7#32 ≠ 0) ∧ ¬(0x80000000#32 = 0x80000000#32 ∧ 7#32 = 0xFFFFFFFF#32) := by decide +kernel
theorem wit_floatCompare : (Fmt.f32.decode 0x7FC00000).isNan = true ∧ Fmt.f32.decode 0xFF800000 = .inf true ∧
    (∃ m e, Fmt.f32.decode 0xBF800000 = .fin true m e ∧ m ≠ 0) ∧ (∃ m e, Fmt.f32.decode 0 = .fin false m e) :=
  ⟨rfl, rfl, ⟨_, _, rfl, by decide⟩, ⟨_, _, rfl⟩⟩
theorem wit_rounding : [Fmt.f32, .f16, .bf16, .e4m3, .e5m2].all (fun f => match f.decode 1 with
    | .fin _ m _ => m != 0
    | _ => false) = true := by decide +kernel
theorem wit_immediates : tyFmt .bf16x2 = some Fmt.bf16 ∧ 1 < 32 / Fmt.bf16.w := by decide +kernel

theorem wit_writes : mwf 0 ((place 0).sl 0 0).v = true ∧ 8 * ((place 0).sl 0 0).alloc = 256 ∧ ((place 0).sl 0 0).pend = [] := by decide +kernel
def pend1 : Pend := { seq := 1, due := .flag 2, op := 5, ready := true, writes := [⟨.lane 3 0, 0xFFFFFFFF, 7⟩] }
theorem wit_held : ({ Slice.placed with pend := [pend1] }).pend = [pend1] ∧ pend1.due = .flag 2 ∧ (4#12).getLsbD 2 = true ∧ (3#12).getLsbD 2 = false ∧
    pend1.seq < 2 ∧ 3 < 8 * Slice.placed.alloc := by decide +kernel
theorem wit_flags : (idle.blocks.find? (fun b => b.bid == 0)).isSome = true ∧ 0 < (idle.blk 0).slices.length := by decide +kernel
/-- A guard that holds in thread 1 alone: under the Slice class every active thread takes part, under .all none; an Always opcode asks no guard; an
opcode of the Quorum class asks it of each thread where it names a quorum register and of the slice where it names none. -/
theorem wit_classes : let s := (place 0).modSl 0 0 (fun sl => { sl with prd := 0x100 })
    let c := fun (md : BitVec 6) (ob : Opnd) => ({ form .b32 md .none .none ob with gp := 1 } : FormR)
    (∀ k ∈ [0x001, 0x004, 0x008, 0x185, 0x040], (opRow? k).isSome = true) ∧
    (Ctx.make 0x001 (.r (c 0 .none)) Visit.placed s).parts s 0 = [0, 1, 2, 3] ∧ (Ctx.make 0x004 (.r (c 1 .none)) Visit.placed s).parts s 0 = [] ∧
    (Ctx.make 0x008 (.r (c 0 .none)) Visit.placed s).parts s 0 = [0, 1, 2, 3] ∧ (Ctx.make 0x185 (.r (c 0 (.res (.q 2)))) Visit.placed s).parts s 0 = [1] ∧
    (Ctx.make 0x185 (.r (c 0 .none)) Visit.placed s).parts s 0 = [0, 1, 2, 3] := by decide +kernel
theorem wit_guards : (Ctx.make 0x040 (.r { good with gn := true }) Visit.placed (place 0)).parts (place 0) 0 = [] ∧
    ⟨.lane 3 1, 0xFFFFFFFF, 5⟩ ∈ (Ctx.make 0x040 (.r good) Visit.placed (place 0)).writesTo (place 0) (.lane 3 .w 0) 0 (fun _ => [5]) := by decide +kernel

def declared (n c : Nat) : State := idle.modBlk 0 (fun b => b.setQuorum 3 ⟨n, c, false, none, []⟩)
theorem wit_quorum : (idle.blocks.find? (fun b => b.bid == 0)).isSome = true ∧ mwf ⟨0, 0, false, none, []⟩ ((declared 16 15).blk 0).q = true ∧
    0 < (((declared 16 15).blk 0).quorum 3).decl ∧ (((declared 16 15).blk 0).quorum 3).signed < (((declared 16 15).blk 0).quorum 3).decl ∧
    (((declared 16 15).blk 0).quorum 3).sign = none := by decide +kernel
def qsignF : FormR := { form .b32 0 .none (.res (.q 2)) .none with setf := 15 }
def qdeclF : FormR := { form .b32 0 .none (.res (.q 2)) (.imm 1025) with setf := 15 }
theorem wit_undeclared : issuesB 0x141 (.r qsignF) Visit.placed (place 0) = true ∧ (((place 0).blk 0).quorum 2).decl = 0 ∧
    (Ctx.make 0x141 (.r qsignF) Visit.placed (place 0)).inEffect ((place 0).opened 0x141 (.r qsignF) Visit.placed) ≠ [] ∧
    issuesB 0x140 (.r qdeclF) Visit.placed (place 0) = true ∧
    1024 < ((Ctx.make 0x140 (.r qdeclF) Visit.placed (place 0)).b ((place 0).opened 0x140 (.r qdeclF) Visit.placed) 0 0).toNat := by decide +kernel
theorem wit_tags : mwf ⟨0, false⟩ ((idle.blk 0).tagAdd 5).tags = true ∧ 0 < (((idle.blk 0).tagAdd 5).tag 5).pending ∧
    ((((idle.blk 0).tagAdd 5).tagDone 5).tag 5).ready = true := by decide +kernel
def tagffF : FormR := { form .b32 0 (.lane 8 .w 0) (.imm 33) .none with setf := 15 }
def det0 : State := { place 0 with grids := [{ grid0 with lr := { grid0.lr with det := true } }] }
theorem wit_tagff : issuesB 0x147 (.r tagffF) Visit.placed (place 0) = true ∧ (place 0).det 0 = false ∧ issuesB 0x147 (.r tagffF) Visit.placed det0 = true ∧
    det0.det 0 = true ∧ (Ctx.make 0x147 (.r tagffF) Visit.placed det0).inEffect (det0.opened 0x147 (.r tagffF) Visit.placed) ≠ [] := by decide +kernel
def cbexpF : FormR := { form .b32 0 .none (.res (.cb 6)) (.imm 3) with setf := 15 }
def expecting : State := (place 0).modBlk 0 (fun b => b.setCb 6 ⟨0, 3, true, 0⟩)
theorem wit_cbexp : ∀ s ∈ [place 0, expecting], issuesB 0x149 (.r cbexpF) Visit.placed s = true ∧
    (Ctx.make 0x149 (.r cbexpF) Visit.placed s).inEffect (s.opened 0x149 (.r cbexpF) Visit.placed) = [0] := by decide +kernel
theorem wit_cbexp_posted : ((place 0).blk 0).cb 6 = ⟨0, 0, false, 0⟩ ∧ ((expecting.blk 0).cb 6).p = true := by decide +kernel
/-- Arrivals at a barrier with room, at its bound and past it, of a command of a slice that lives and of one with no barrier. -/
def counted (c : Nat) : State := idle.modBlk 0 (fun b => b.setCb 6 ⟨c, 0, false, 0⟩)
theorem wit_arrive : (∃ arriving ∈ copying.cmds, arriving.bid = 0 ∧ arriving.slice = 0) ∧ ∀ arriving ∈ (copying.cmds.map (fun c => { c with cb := some 6 }) : List EngCmd), ∀ c ∈ [0, 0xFFFFFFFE, 0xFFFFFFFF],
    ((counted c).blocks.find? (fun b => b.bid == arriving.bid)).isSome = true ∧ mwf ⟨0, 0, false, 0⟩ ((counted c).blk arriving.bid).cbs = true ∧
    arriving.slice < ((counted c).blk arriving.bid).slices.length ∧ ((counted c).sl arriving.bid arriving.slice).ended = false ∧
    ((((counted c).blk arriving.bid).cb 6).c + 1 ≤ 0xFFFFFFFF ↔ c ≠ 0xFFFFFFFF) := by decide +kernel
theorem wit_pool : (0 < Block.placed.slices.length ∧ Block.placed.claimQ = [] ∧ Block.placed.reserve = 0 ∧ 31 ≤ (Block.placed.sl 0).alloc) ∧
    ({ Block.placed with reserve := 4 }).claimQ = [] ∧ 4 ≤ ({ Block.placed with reserve := 4 }).reserve ∧ mwf 0 (Block.placed.sl 0).v = true ∧
    ({ Block.placed with claimQ := [(0, 1)] }).claimQ = (0, 1) :: [] ∧ ({ Block.placed with claimQ := [(0, 1)] }).reserve < 1 := by decide +kernel
def claimF (n : BitVec 13) : FormR := { form .b32 0 .none (.imm n) .none with setf := 15 }
theorem wit_poolLimits : ((Ctx.make 0x14C (.r (claimF 1)) Visit.placed (place 0)).claimTrap (place 0)).isSome = true ∧
    ((Ctx.make 0x14D (.r (claimF 32)) Visit.placed (place 0)).giveTrap (place 0)).isSome = true ∧
    ((Ctx.make 0x14D (.r (claimF 31)) Visit.placed (place 0)).giveTrap (place 0)).isNone = true := by decide +kernel
def claiming : State := idle.modSl 0 0 (fun sl => { sl with wait := some { kind := .claim 5, word := 0, met := false } })
theorem wit_deadlock : (claiming.blk 0).stop = none ∧ (claiming.sl 0 0).ended = false ∧ (claiming.sl 0 0).claiming = some 5 ∧ (idle.sl 0 0).claiming = none ∧
    (claiming.blk 0).slices.length = 1 := by decide +kernel

theorem wit_takeTrap : (idle.blocks.find? (fun b => b.bid == 0)).isSome = true ∧ (idle.blk 0).stop = none ∧ (trapped0.blk 0).stop ≠ none := by decide +kernel
/-- An event of the same cycle in a lower thread, one in a higher thread, and one of a later cycle, each at a block stopped for a trap of thread 1. -/
def trapped1 : State := idle.takeTrap 0 { cause := .trap, thr := 1 }
theorem wit_sameCycle : (trapped1.blk 0).stop = some { state := 3, trap := some { cause := .trap, thr := 1 }, cycle := trapped1.cycle 0 } ∧
    ({ cause := .priv } : Trap).before { cause := .trap, thr := 1 } = true ∧ ({ cause := .priv, thr := 2 } : Trap).before { cause := .trap, thr := 1 } = false ∧
    (trapped1.recs.any (fun r => r.seq == (trapped1.blk 0).trseq)) = true ∧
    (idle.preempt 0).blk 0 = { idle.blk 0 with stop := some { state := 1, trap := none }, trseq := 0 } := by decide +kernel
def outOfRange : State := (place 0).modSl 0 0 (fun sl => { sl with alloc := 1 })
theorem wit_checks : (let x := Ctx.make 0x115 (.r (form .b32 0 .none (.lane 1 .w 0) .none)) Visit.placed (humble 0)
      x.privileged = true ∧ x.deferredTrap ((humble 0).opened 0x115 (.r (form .b32 0 .none (.lane 1 .w 0) .none)) Visit.placed) = none ∧
      x.check (humble 0) ((humble 0).opened 0x115 (.r (form .b32 0 .none (.lane 1 .w 0) .none)) Visit.placed) ≠ none) ∧
    ((Ctx.make 0x040 (.r { good with oa := .lane 8 .w 0 }) Visit.placed outOfRange).regRange (outOfRange.blk 0) 0).isSome = true ∧
    ((Ctx.make 0x040 (.r { good with oa := .lane 7 .w 0 }) Visit.placed outOfRange).regRange (outOfRange.blk 0) 0).isNone = true ∧ Visit.placed.slices = [] ++ 0 :: [] := by
  decide +kernel
theorem wit_resume : ∀ p ∈ [(Cause.trap, 0), (.brk, 0), (.priv, 0), (.woRewrite, 1), (.watchdog, 2)], ({ Block.placed with
    stop := some { state := 3, trap := some { cause := p.1, kind := p.2 } }, gangs := [(0, [0])] } : Block).stop.any
    (fun st => st.trap.any (fun t => decide (t.kind = p.2) && decide (t.slc < Block.placed.slices.length))) = true := by decide +kernel
theorem wit_memory : mwf 0 Block.placed.bench = true ∧ Memory.wf State.reset.mem = true ∧ mwf 0 State.reset.memKey = true ∧ isRemote (128 * 4) = false := by decide +kernel
/-- A step that changes memory: a dirty line leaves the L3. -/
theorem wit_memoryChanges : Memory.wf ({ State.reset with l3 := [l3x true], agenda := [.l3Eviction 4 0] } : State).mem = true ∧
    (match step { State.reset with l3 := [l3x true], agenda := [.l3Eviction 4 0] } with
      | .next t => t.mem == [(512, 7)]
      | _ => false) = true := by decide +kernel

/-! ## One step of an instruction: results worked out by hand from the rules -/

/-- A form R of type and MOD with destination register r3 and two sources; it leaves flag 1, so a held result waits for it. -/
def f3 (ty : Ty) (md : BitVec 6) (oa ob : Opnd) : FormR := form ty md (.lane 3 .w 0) oa ob
/-- Registers r10, r11 and r3, r4 of thread 0 before the step. -/
def before (a b d e : W32) : State :=
  (place 0).modSl 0 0 (fun sl => ([(10, a), (11, b), (3, d), (4, e)] : List (Nat × W32)).foldl (fun sl p => sl.write ⟨.lane p.1 0, 0xFFFFFFFF, p.2⟩) sl)
def r10 : Opnd := .lane 10 .w 0
def r11 : Opnd := .lane 11 .w 0
/-- The slice after the step, with every result visible. -/
def after (i : Instr) (s : State) : Slice := match exec i s with
  | .next t => (t.sl 0 0).release (fun _ => true)
  | _ => Slice.blank
/-- r3 of thread 0 after a step from given sources. -/
def out (i : Instr) (a b d : W32) : W32 := (after i (before a b d 0)).lane 3 0

/-- R118: an element wraps without carrying into its neighbour. -/
theorem test_iadd_wraps : out (.iadd (f3 .n8x4 0 r10 r11)) 0x01FF80FF 0x01010180 0 = 0x0200817F := by decide +kernel
theorem test_isub : out (.isub (f3 .i32 0 r10 r11)) 3 5 0 = 0xFFFFFFFE := by decide +kernel
theorem test_imulh : out (.imulh (f3 .i32 0 r10 r11)) 0xFFFFFFFF 2 0 = 0xFFFFFFFF ∧ out (.imulh (f3 .n32 0 r10 r11)) 0xFFFFFFFF 2 0 = 1 := by decide +kernel
theorem test_imad : out (.imad (f3 .i32 0 r10 r11)) 7 6 100 = 142 := by decide +kernel
/-- R119: the pair r4:r3 takes the 64-bit sum. -/
theorem test_imadw : let u := after (.imadw (form .i32 0 (.lane 2 .w 0) r10 r11)) ((before 0xFFFFFFFF 1 0 0))
    u.lane 2 0 = 0xFFFFFFFF ∧ u.lane 3 0 = 0xFFFFFFFF := by decide +kernel
/-- R120: the quotient truncates toward zero, and the remainder takes the dividend's sign. -/
theorem test_idiv : out (.idiv (f3 .i32 0 r10 r11)) 0xFFFFFFF9 2 0 = 0xFFFFFFFD ∧ out (.irem (f3 .i32 0 r10 r11)) 0xFFFFFFF9 2 0 = 0xFFFFFFFF := by decide +kernel
/-- R122: a count above the width. -/
theorem test_shl : out (.shl (f3 .b32 0 r10 r11)) 0x80000001 1 0 = 2 ∧ out (.shl (f3 .b32 0 r10 r11)) 0x80000001 40 0 = 0 := by decide +kernel
theorem test_andn : out (.andn (f3 .b32 0 r10 r11)) 0xF0F0 0xFF00 0 = 0x00F0 := by decide +kernel
/-- R124: a field of eight bits at bit 4, sign-extended for I32; its insertion. -/
theorem test_bfe : out (.bfe (f3 .i32 0 r10 r11)) 0x00000FA0 0x0804 0 = 0xFFFFFFFA ∧ out (.bfe (f3 .n32 0 r10 r11)) 0x00000FA0 0x0804 0 = 0xFA := by decide +kernel
theorem test_bfi : out (.bfi (f3 .b32 0 r10 r11)) 0xAB 0x0808 0x11111111 = 0x1111AB11 := by decide +kernel
theorem test_counts : out (.clz (f3 .b32 0 r10 .none)) 0x00010000 0 0 = 15 ∧ out (.ctz (f3 .b32 0 r10 .none)) 0x00010000 0 0 = 16 ∧
    out (.popc (f3 .b32 0 r10 .none)) 0xF000000F 0 0 = 8 ∧ out (.brev (f3 .b32 0 r10 .none)) 1 0 0 = 0x80000000 := by decide +kernel
/-- R131: 1 + 2^-24 rounds to 1 to nearest even; 1.5 × 2 + 1 is 4. -/
theorem test_fadd : out (.fadd (f3 .f32 0 r10 r11)) 0x3F800000 0x33800000 0 = 0x3F800000 ∧ out (.ffma (f3 .f32 0 r10 r11)) 0x3FC00000 0x40000000 0x3F800000 = 0x40800000 := by
  decide +kernel
/-- R132: the negative zero is the lesser. -/
theorem test_fmin : out (.fmin (f3 .f32 0 r10 r11)) 0 0x80000000 0 = 0x80000000 := by decide +kernel
theorem test_fdiv : out (.fdiv (f3 .f32 0 r10 r11)) 0x3F800000 0x40400000 0 = 0x3EAAAAAB ∧ out (.fsqrt (f3 .f32 0 r10 .none)) 0x40000000 0 0 = 0x3FB504F3 := by decide +kernel
/-- R136: FP16 1 + 1 and 2 + -2. -/
theorem test_hadd2 : out (.hadd2 (f3 .h16x2 0 r10 r11)) 0x40003C00 0xC0003C00 0 = 0x00004000 := by decide +kernel
/-- R140: -2.5 to an integer toward zero. -/
theorem test_f2i : out (.f2i (f3 .i32 1 r10 (.imm 0))) 0xC0200000 0 0 = 0xFFFFFFFE := by decide +kernel
/-- R146: 100 + 1·1 + 2·2 + (-1)·3 + 0·0. -/
theorem test_vdot4 : out (.vdot4 (f3 .i8x4 0 r10 r11)) 0x00FF0201 0x00030201 100 = 102 := by decide +kernel
/-- R191 to R195: a split on p1, which holds in threads 0 and 1; the fall-through path runs first. -/
theorem test_pushj : let u := after (.pushj { form .b32 0 .none (.pred 1 false) .none with imm := 0x00180018 }) (pushS 0x102)
    u.act = 12 ∧ u.mstk.length = 2 := by decide +kernel
/-- R190: the branch goes to PC + 12 + IMM. -/
theorem test_bra : ((after (.bra { form .b32 0 .none .none .none with imm := 24 }) (place 0)).pc == (place 0 |>.sl 0 0).pc + 36) = true := by decide +kernel
theorem test_rank : (let u := after (.rank (f3 .b32 0 r10 .none)) (before 0 0 9 0)
    (u.lane 3 0, u.lane 3 1, u.lane 3 3)) = (0, 1, 3) := by decide +kernel

end Sys2Proof.Tests
end

section
/-! SUPPORT. The writes of one slice: what one element's write changes, which changes of a slice its writes commute with, when a pending
result is written, and what a flag reads after it is set (R23, R25, R32, R53, R62). -/

namespace Sys2Proof.Machine

/-! ## One element written -/

theorem maskMerge_same (old new mask : W32) : maskMerge old new mask &&& mask = new &&& mask := by
  ext i hi
  simp only [maskMerge, BitVec.getElem_and, BitVec.getElem_or, BitVec.getElem_not]
  cases mask[i] <;> simp

/-- A write under a mask leaves every position of a disjoint mask. -/
theorem maskMerge_disjoint (old new mask other : W32) : maskMerge old new (mask &&& ~~~other) &&& other = old &&& other := by
  ext i hi
  simp only [maskMerge, BitVec.getElem_and, BitVec.getElem_or, BitVec.getElem_not]
  cases mask[i] <;> cases other[i] <;> simp

/-- A write touches the lane registers, the uniform registers, the predicates and the poison alone. -/
theorem Slice.write_frame (sl : Slice) (w : RegWrite) : ∃ v k prd pois, sl.write w = { sl with v := v, k := k, prd := prd, pois := pois } := by
  unfold Slice.write
  split
  · split
    · exact ⟨_, _, _, _, rfl⟩
    · exact ⟨_, _, _, _, rfl⟩
  · exact ⟨_, _, _, _, rfl⟩
  · split
    · exact ⟨_, _, _, _, rfl⟩
    · exact ⟨_, _, _, _, rfl⟩

@[simp] theorem Slice.write_alloc (sl : Slice) (w : RegWrite) : (sl.write w).alloc = sl.alloc := by
  obtain ⟨v, k, prd, pois, h⟩ := sl.write_frame w
  rw [h]

theorem Slice.write_v_wf {sl : Slice} (w : RegWrite) (h : mwf 0 sl.v = true) : mwf 0 (sl.write w).v = true := by
  unfold Slice.write
  split
  · split
    · exact mput_wf _ _ h
    · exact h
  · exact h
  · split <;> exact h

theorem Slice.write_k_wf {sl : Slice} (w : RegWrite) (h : mwf 0 sl.k = true) : mwf 0 (sl.write w).k = true := by
  unfold Slice.write
  split
  · split <;> exact h
  · exact mput_wf _ _ h
  · split <;> exact h

/-- Lane registers after a write. -/
theorem Slice.lane_write {sl : Slice} {w : RegWrite} {t : Nat} (r : Nat) (hv : mwf 0 sl.v = true) (ht : t < 4)
    (hw : ∀ r' t', w.dest = .lane r' t' → t' < 4) :
    (sl.write w).lane r t = if w.dest = .lane r t ∧ r < 8 * sl.alloc then maskMerge (sl.lane r t) w.val w.mask else sl.lane r t := by
  unfold Slice.write
  split
  · next r' t' hd =>
    have ht' := hw r' t' hd
    have hkey : 4 * r + t = 4 * r' + t' ↔ r' = r ∧ t' = t := by omega
    by_cases ha : r' < 8 * sl.alloc
    · simp only [if_pos ha, Slice.lane, mget_mput _ _ _ hv, hkey, hd, RegDest.lane.injEq]
      by_cases he : r' = r ∧ t' = t
      · obtain ⟨rfl, rfl⟩ := he
        simp [ha]
      · rw [if_neg he, if_neg (fun h => he h.1)]
    · rw [if_neg ha, if_neg]
      rw [hd]
      rintro ⟨h, hr⟩
      cases h
      exact ha hr
  · next hd => simp [hd, Slice.lane]
  · next hd =>
    have hne : ¬(w.dest = .lane r t ∧ r < 8 * sl.alloc) := by simp [hd]
    rw [if_neg hne]
    split <;> rfl

/-- Uniform registers after a write. -/
theorem Slice.uni_write {sl : Slice} {w : RegWrite} (r : Nat) (hk : mwf 0 sl.k = true) :
    (sl.write w).uni r = if w.dest = .uni r then maskMerge (sl.uni r) w.val w.mask else sl.uni r := by
  unfold Slice.write
  split
  · next hd =>
    have hne : ¬w.dest = .uni r := by simp [hd]
    rw [if_neg hne]
    split <;> rfl
  · next r' hd =>
    simp only [Slice.uni, mget_mput _ _ _ hk, hd, RegDest.uni.injEq]
    by_cases h : r = r'
    · subst h; simp
    · rw [if_neg h, if_neg (Ne.symm h)]
  · next hd =>
    have hne : ¬w.dest = .uni r := by simp [hd]
    rw [if_neg hne]
    split <;> rfl

/-- Predicates after a write. -/
theorem Slice.pred_write {sl : Slice} {w : RegWrite} {n t : Nat} (hn : n < 7) (ht : t < 4)
    (hw : ∀ n' t', w.dest = .pred n' t' → n' < 8 ∧ t' < 4) :
    (sl.write w).pred n t = if w.dest = .pred n t ∧ w.mask.getLsbD 0 = true then w.val.getLsbD 0 else sl.pred n t := by
  have h7 : n ≠ 7 := by omega
  unfold Slice.write
  split
  · next hd =>
    have hne : ¬(w.dest = .pred n t ∧ w.mask.getLsbD 0 = true) := by simp [hd]
    rw [if_neg hne]
    split <;> rfl
  · next hd =>
    have hne : ¬(w.dest = .pred n t ∧ w.mask.getLsbD 0 = true) := by simp [hd]
    rw [if_neg hne]
    rfl
  · next n' t' hd =>
    obtain ⟨hn', ht'⟩ := hw n' t' hd
    by_cases hoff : n' = 7 ∨ w.mask.getLsbD 0 = false
    · rw [if_pos hoff, if_neg]
      rw [hd]
      rintro ⟨h, hm⟩
      cases h
      rcases hoff with h | h
      · exact h7 h
      · rw [hm] at h; cases h
    · rw [if_neg hoff]
      push Not at hoff
      have hm : w.mask.getLsbD 0 = true := by simpa using hoff.2
      have hbit : ((1#28) <<< (7 * t' + n')).getLsbD (7 * t + n) = decide (n' = n ∧ t' = t) := by
        simp only [BitVec.getLsbD_shiftLeft, BitVec.getLsbD_one]
        by_cases h : n' = n ∧ t' = t
        · obtain ⟨rfl, rfl⟩ := h
          simp
          omega
        · simp only [h, decide_false]
          simp
          omega
      have hin : 7 * t + n < 28 := by omega
      simp only [Slice.pred, if_neg h7, hd, hm, and_true, RegDest.pred.injEq]
      cases hb : w.val.getLsbD 0 <;>
        simp only [Bool.false_eq_true, if_false, if_true, BitVec.getLsbD_or, BitVec.getLsbD_and, BitVec.getLsbD_not, hbit, hin] <;>
        by_cases h : n' = n ∧ t' = t <;> simp [h]

@[simp] theorem Slice.pred_seven (sl : Slice) (t : Nat) : sl.pred 7 t = true := by simp [Slice.pred]

theorem Slice.write_pred_seven {sl : Slice} {w : RegWrite} {t : Nat} (h : w.dest = .pred 7 t) : sl.write w = sl := by
  simp [Slice.write, h]

end Sys2Proof.Machine

open Sys2Proof Sys2Proof.Machine in
/-- Settles O33: each kind of element by the rule for a read after its write. -/
theorem oneElementPerWrite : Obligations.OneElementPerWrite := by
  unfold Obligations.OneElementPerWrite
  refine ⟨fun sl w hv hk hd => ?_, Slice.pred_seven, fun sl w t => Slice.write_pred_seven⟩
  have hlane : ∀ r' t', w.dest = .lane r' t' → t' < 4 := fun r' t' h => by rw [h] at hd; exact hd
  have hpred : ∀ n' t', w.dest = .pred n' t' → n' < 8 ∧ t' < 4 := fun n' t' h => by rw [h] at hd; exact hd
  refine ⟨fun r t ht => Slice.lane_write r hv ht hlane, fun r => Slice.uni_write r hk, fun n t hn ht => Slice.pred_write hn ht hpred, ?_,
    Slice.write_v_wf w hv, Slice.write_k_wf w hk⟩
  obtain ⟨v, k, prd, pois, h⟩ := sl.write_frame w
  rw [h]
end

section
namespace Sys2Proof.Machine

/-! ## What writes and releases commute with -/

/-- A slice with the fields that writes and releases change replaced: lane and uniform registers, predicates, poison and pending results. -/
def Slice.withRegs (sl : Slice) (v k : List (Nat × W32)) (prd : BitVec 28) (pois : List Nat) (pend : List Pend) : Slice :=
  { sl with v := v, k := k, prd := prd, pois := pois, pend := pend }

section
variable {a b : Slice} (v k : List (Nat × W32)) (prd : BitVec 28) (pois : List Nat)

/-- A write leaves the same in two slices of one allocation and equal registers, whatever results they have pending. -/
theorem Slice.write_alike (h : a.alloc = b.alloc) (w : RegWrite) : ∃ v' k' prd' pois', ∀ pend,
    (a.withRegs v k prd pois pend).write w = a.withRegs v' k' prd' pois' pend ∧
    (b.withRegs v k prd pois pend).write w = b.withRegs v' k' prd' pois' pend := by
  let u := (a.withRegs v k prd pois []).write w
  refine ⟨u.v, u.k, u.prd, u.pois, fun pend => ?_⟩
  simp only [u]
  unfold Slice.write
  cases w.dest with
  | lane r t =>
    by_cases hr : r < 8 * a.alloc
    · simp [Slice.withRegs, Slice.lane, ← h, hr]
    · simp [Slice.withRegs, ← h, hr]
  | uni r => exact ⟨rfl, rfl⟩
  | pred n t =>
    by_cases hn : n = 7 ∨ w.mask.getLsbD 0 = false
    · simp only [if_pos hn]
      exact ⟨rfl, rfl⟩
    · simp only [if_neg hn]
      exact ⟨rfl, rfl⟩

/-- The same of all the writes of one instruction, which take their positions from the pending results before it. -/
theorem Slice.writeAll_alike (h : a.alloc = b.alloc) (seq : Nat) (ws : List RegWrite) : ∃ v' k' prd' pois', ∀ pend, ∃ pend',
    (a.withRegs v k prd pois pend).writeAll seq ws = a.withRegs v' k' prd' pois' pend' ∧
    (b.withRegs v k prd pois pend).writeAll seq ws = b.withRegs v' k' prd' pois' pend' := by
  induction ws generalizing v k prd pois with
  | nil => exact ⟨v, k, prd, pois, fun pend => ⟨pend, rfl, rfl⟩⟩
  | cons w ws ih =>
    obtain ⟨v1, k1, prd1, pois1, hw⟩ := Slice.write_alike v k prd pois h w
    obtain ⟨v', k', prd', pois', hws⟩ := ih v1 k1 prd1 pois1
    refine ⟨v', k', prd', pois', fun pend => ?_⟩
    obtain ⟨pend', ha, hb⟩ := hws (pend.map (fun p => p.without seq w))
    obtain ⟨hwa, hwb⟩ := hw pend
    simp only [Slice.writeAll, List.foldl_cons, Slice.writeSeq, hwa, hwb]
    exact ⟨pend', ha, hb⟩

/-- The same of the pending results written one after another. -/
theorem Slice.writePends_alike (h : a.alloc = b.alloc) (l : List Pend) (pend : List Pend) : ∃ v' k' prd' pois' pend',
    l.foldl (fun sl x => sl.writeAll x.seq x.writes) (a.withRegs v k prd pois pend) = a.withRegs v' k' prd' pois' pend' ∧
    l.foldl (fun sl x => sl.writeAll x.seq x.writes) (b.withRegs v k prd pois pend) = b.withRegs v' k' prd' pois' pend' := by
  induction l generalizing v k prd pois pend with
  | nil => exact ⟨v, k, prd, pois, pend, rfl, rfl⟩
  | cons x l ih =>
    obtain ⟨v1, k1, prd1, pois1, hx⟩ := Slice.writeAll_alike v k prd pois h x.seq x.writes
    obtain ⟨pend1, ha, hb⟩ := hx pend
    simp only [List.foldl_cons, ha, hb]
    exact ih v1 k1 prd1 pois1 pend1

end

/-- A change of a slice that neither reads nor changes what the writes of results change, nor the allocation that bounds them. -/
structure Slice.Aside (g : Slice → Slice) : Prop where
  regs : ∀ sl v k prd pois pend, g (sl.withRegs v k prd pois pend) = (g sl).withRegs v k prd pois pend
  alloc : ∀ sl, (g sl).alloc = sl.alloc

section
variable {g : Slice → Slice} (hg : Slice.Aside g) (sl : Slice)
include hg

theorem Slice.Aside.same : g sl = (g sl).withRegs sl.v sl.k sl.prd sl.pois sl.pend := hg.regs sl sl.v sl.k sl.prd sl.pois sl.pend

theorem Slice.Aside.pend : (g sl).pend = sl.pend := by rw [hg.same sl]; rfl

theorem Slice.Aside.writeAll (seq : Nat) (ws : List RegWrite) : g (sl.writeAll seq ws) = (g sl).writeAll seq ws := by
  obtain ⟨v, k, prd, pois, h⟩ := Slice.writeAll_alike sl.v sl.k sl.prd sl.pois (hg.alloc sl).symm seq ws
  obtain ⟨pend, ha, hb⟩ := h sl.pend
  calc g (sl.writeAll seq ws) = g (sl.withRegs v k prd pois pend) := congrArg g ha
    _ = (g sl).withRegs v k prd pois pend := hg.regs sl v k prd pois pend
    _ = ((g sl).withRegs sl.v sl.k sl.prd sl.pois sl.pend).writeAll seq ws := hb.symm
    _ = (g sl).writeAll seq ws := by rw [← hg.same sl]

theorem Slice.Aside.release (p : Pend → Bool) : g (sl.release p) = (g sl).release p := by
  obtain ⟨v, k, prd, pois, pend, ha, hb⟩ := Slice.writePends_alike sl.v sl.k sl.prd sl.pois (hg.alloc sl).symm (sl.pend.filter p)
    (sl.pend.filter (fun x => !p x))
  have hrest : { g sl with pend := sl.pend.filter (fun x => !p x) } =
      (g sl).withRegs sl.v sl.k sl.prd sl.pois (sl.pend.filter (fun x => !p x)) := by
    conv_lhs => rw [hg.same sl]
    rfl
  calc g (sl.release p) = g (sl.withRegs v k prd pois pend) := congrArg g ha
    _ = (g sl).withRegs v k prd pois pend := hg.regs sl v k prd pois pend
    _ = (sl.pend.filter p).foldl (fun sl x => sl.writeAll x.seq x.writes)
          ((g sl).withRegs sl.v sl.k sl.prd sl.pois (sl.pend.filter (fun x => !p x))) := hb.symm
    _ = (g sl).release p := by rw [Slice.release, hg.pend, hrest]

/-- The results of an instruction are made alike, where the change keeps the instruction's own order. -/
theorem Slice.Aside.result (hs : (g sl).seq = sl.seq) (lat : Lat) (ws : List RegWrite) : g (sl.result lat ws) = (g sl).result lat ws := by
  cases lat with
  | three =>
    simp only [Slice.result, hs]
    split
    · rfl
    · have h := hg.regs sl sl.v sl.k sl.prd sl.pois (sl.pend ++ [{ seq := sl.seq, due := .count 3, op := 0, ready := true, writes := ws }])
      refine Eq.trans h ?_
      simp only [Slice.addPend, hg.pend sl]
      conv_rhs => rw [hg.same sl]
      rfl
  | _ => simp only [Slice.result, hs]; exact hg.writeAll sl _ _

end

/-- The registers after an instruction's writes do not depend on the results pending. -/
theorem Slice.writeAll_pend (sl : Slice) (pend : List Pend) (seq : Nat) (ws : List RegWrite) :
    (({ sl with pend := pend } : Slice).writeAll seq ws).v = (sl.writeAll seq ws).v ∧
    (({ sl with pend := pend } : Slice).writeAll seq ws).k = (sl.writeAll seq ws).k ∧
    (({ sl with pend := pend } : Slice).writeAll seq ws).prd = (sl.writeAll seq ws).prd := by
  obtain ⟨v, k, prd, pois, h⟩ := Slice.writeAll_alike sl.v sl.k sl.prd sl.pois (a := sl) rfl seq ws
  obtain ⟨p1, h1, -⟩ := h pend
  obtain ⟨p2, h2, -⟩ := h sl.pend
  have e1 : ({ sl with pend := pend } : Slice).writeAll seq ws = sl.withRegs v k prd pois p1 := h1
  have e2 : sl.writeAll seq ws = sl.withRegs v k prd pois p2 := h2
  rw [e1, e2]
  exact ⟨rfl, rfl, rfl⟩

/-- Releases and writes leave everything but the registers and the pending results. -/
theorem Slice.release_frame (sl : Slice) (p : Pend → Bool) : ∃ v k prd pois pend, sl.release p = sl.withRegs v k prd pois pend := by
  obtain ⟨v, k, prd, pois, pend, h, -⟩ := Slice.writePends_alike sl.v sl.k sl.prd sl.pois (a := sl) rfl (sl.pend.filter p)
    (sl.pend.filter (fun x => !p x))
  exact ⟨v, k, prd, pois, pend, h⟩

theorem Slice.writeAll_frame (sl : Slice) (seq : Nat) (ws : List RegWrite) :
    ∃ v k prd pois pend, sl.writeAll seq ws = sl.withRegs v k prd pois pend := by
  obtain ⟨v, k, prd, pois, h⟩ := Slice.writeAll_alike sl.v sl.k sl.prd sl.pois (a := sl) rfl seq ws
  obtain ⟨pend, h, -⟩ := h sl.pend
  exact ⟨v, k, prd, pois, pend, h⟩

end Sys2Proof.Machine
end

section
namespace Sys2Proof.Machine

/-! ## When a pending result is written -/

/-- A slice some advances on, with nothing made visible by them. -/
def Slice.later (n : Nat) (sl : Slice) : Slice := { sl with dcnt := sl.dcnt + BitVec.ofNat 32 n, since := sl.since.map (fun k => k + n) }

theorem Slice.later_aside (n : Nat) : Slice.Aside (Slice.later n) := ⟨fun _ _ _ _ _ _ => rfl, fun _ => rfl⟩

theorem Slice.later_later (n m : Nat) (sl : Slice) : (sl.later n).later m = sl.later (n + m) := by
  simp only [Slice.later, BitVec.add_assoc, Option.map_map, BitVec.ofNat_add]
  congr 2
  funext k
  simp [Nat.add_assoc]

/-- One advance: the pending results come nearer, and those that need no more are written. -/
theorem Slice.advance_eq (sl : Slice) : sl.advance = Slice.release (({ sl with pend := sl.pend.map Pend.nearer } : Slice).later 1) Pend.visible := rfl

/-- A slice whose one pending result is none of those released keeps it. -/
theorem Slice.release_kept {sl : Slice} {p : Pend} {q : Pend → Bool} (h : sl.pend = [p]) (hq : q p = false) : sl.release q = sl := by
  have hp : { sl with pend := [p] } = sl := by rw [← h]
  simp [Slice.release, h, hq, hp]

/-- A slice whose one pending result is released has it written, and none pending. -/
theorem Slice.release_one {sl : Slice} {p : Pend} {q : Pend → Bool} (h : sl.pend = [p]) (hq : q p = true) :
    sl.release q = ({ sl with pend := [] } : Slice).writeAll p.seq p.writes := by
  simp [Slice.release, h, hq]

/-- A slice with nothing pending has nothing to release. -/
theorem Slice.release_nil {sl : Slice} {q : Pend → Bool} (h : sl.pend = []) : sl.release q = sl := by
  have hp : { sl with pend := [] } = sl := by rw [← h]
  simp [Slice.release, h, hp]

theorem Slice.advance_nil {sl : Slice} (h : sl.pend = []) : sl.advance = sl.later 1 := by
  have hp : { sl with pend := sl.pend.map Pend.nearer } = sl := by rw [h, List.map_nil, ← h]
  rw [Slice.advance_eq, hp, Slice.release_nil (by simp [Slice.later, h])]

/-- An advance of a slice whose one pending result needs more: it comes nearer. -/
theorem Slice.advance_near {sl : Slice} {p : Pend} {n : Nat} (hp : p.due = .count (n + 2)) :
    ({ sl with pend := [p] } : Slice).advance = ({ sl with pend := [{ p with due := .count (n + 1) }] } : Slice).later 1 := by
  rw [Slice.advance_eq, Slice.release_kept (p := { p with due := .count (n + 1) })]
  · simp [Pend.nearer, hp]
  · simp [Slice.later, Pend.nearer, hp]
  · simp [Pend.visible]

/-- An advance of a slice whose one pending result needs one: it is written. -/
theorem Slice.advance_due {sl : Slice} {p : Pend} (hp : p.due = .count 1) :
    ({ sl with pend := [p] } : Slice).advance = (({ sl with pend := [] } : Slice).writeAll p.seq p.writes).later 1 := by
  rw [Slice.advance_eq, Slice.release_one (p := { p with due := .count 0 }), (Slice.later_aside 1).writeAll]
  · rfl
  · simp [Slice.later, Pend.nearer, hp]
  · simp [Pend.visible]

/-- The pending result of a class-3 instruction that needs n more advances. -/
def Pend.dueIn (seq : Nat) (ws : List RegWrite) (n : Nat) : Pend := { seq := seq, due := .count n, op := 0, ready := true, writes := ws }

theorem Slice.result_three {sl : Slice} {ws : List RegWrite} (h : sl.pend = []) (hw : ws ≠ []) :
    sl.result .three ws = { sl with pend := [Pend.dueIn sl.seq ws 3] } := by
  simp [Slice.result, hw, Slice.addPend, h, Pend.dueIn]

/-- A result of latency class 3 of a slice with nothing pending is written by the third advance and by none before it (R23). -/
theorem Slice.advances_of_three {sl : Slice} (ws : List RegWrite) (h : sl.pend = []) : ∃ p3 p2 p1,
    sl.result .three ws = { sl with pend := p3 } ∧
    (sl.result .three ws).advance = ({ sl with pend := p2 } : Slice).later 1 ∧
    (sl.result .three ws).advance.advance = ({ sl with pend := p1 } : Slice).later 2 ∧
    (sl.result .three ws).advance.advance.advance = (sl.writeAll sl.seq ws).later 3 := by
  have hnil : { sl with pend := [] } = sl := by rw [← h]
  by_cases hw : ws = []
  · subst hw
    have e : sl.result .three [] = sl := rfl
    have e1 : sl.advance = sl.later 1 := Slice.advance_nil h
    have e2 : sl.advance.advance = sl.later 2 := by rw [e1, Slice.advance_nil (sl := sl.later 1) h, Slice.later_later]
    have e3 : sl.advance.advance.advance = sl.later 3 := by rw [e2, Slice.advance_nil (sl := sl.later 2) h, Slice.later_later]
    refine ⟨[], [], [], ?_⟩
    rw [e, hnil]
    exact ⟨rfl, e1, e2, e3⟩
  · let p := Pend.dueIn sl.seq ws
    have e : sl.result .three ws = { sl with pend := [p 3] } := Slice.result_three h hw
    have e1 : (sl.result .three ws).advance = ({ sl with pend := [p 2] } : Slice).later 1 := by
      rw [e]; exact Slice.advance_near (n := 1) rfl
    have e2 : (sl.result .three ws).advance.advance = ({ sl with pend := [p 1] } : Slice).later 2 := by
      rw [e1, ← Slice.later_later 1 1]
      exact Slice.advance_near (sl := sl.later 1) (p := p 2) (n := 0) rfl
    refine ⟨[p 3], [p 2], [p 1], e, e1, e2, ?_⟩
    calc (sl.result .three ws).advance.advance.advance
        = (({ sl with pend := [p 1] } : Slice).later 2).advance := by rw [e2]
      _ = ((({ sl with pend := [] } : Slice).later 2).writeAll sl.seq ws).later 1 := Slice.advance_due (sl := sl.later 2) (p := p 1) rfl
      _ = (sl.writeAll sl.seq ws).later 3 := by rw [← (Slice.later_aside 2).writeAll, Slice.later_later, hnil]

/-- The start of an issue changes the registers and the pending results as the release by its wait mask does. -/
theorem Slice.begin_regs (sl : Slice) (wm : BitVec 12) : (sl.begin wm).pend = (sl.release (fun p => p.named wm)).pend ∧
    (sl.begin wm).v = (sl.release (fun p => p.named wm)).v ∧ (sl.begin wm).k = (sl.release (fun p => p.named wm)).k ∧
    (sl.begin wm).prd = (sl.release (fun p => p.named wm)).prd := ⟨rfl, rfl, rfl, rfl⟩

theorem Slice.writeAll_pend_nil {sl : Slice} (h : sl.pend = []) (seq : Nat) (ws : List RegWrite) : (sl.writeAll seq ws).pend = [] := by
  induction ws generalizing sl with
  | nil => exact h
  | cons w ws ih =>
    refine ih (sl := sl.writeSeq seq w) ?_
    obtain ⟨v, k, prd, pois, hw⟩ := sl.write_frame w
    simp [Slice.writeSeq, hw, h]

/-! ## A later write stands -/

/-- A write of an element's positions that a later write does not cover, or of another element. -/
def RegWrite.Spares (x w : RegWrite) : Prop := x.dest = w.dest → ∃ m, x.mask = m &&& ~~~w.mask

theorem Slice.lane_write_spared {sl : Slice} {x w : RegWrite} {r t : Nat} (hv : mwf 0 sl.v = true) (ht : t < 4) (hd : w.dest = .lane r t)
    (hx : ∀ r' t', x.dest = .lane r' t' → t' < 4) (hs : x.Spares w) : (sl.write x).lane r t &&& w.mask = sl.lane r t &&& w.mask := by
  rw [Slice.lane_write r hv ht hx]
  split
  · next h =>
    obtain ⟨m, hm⟩ := hs (h.1.trans hd.symm)
    rw [hm, maskMerge_disjoint]
  · rfl

theorem Slice.lane_writeAll_spared {sl : Slice} {w : RegWrite} {r t seq : Nat} {ws : List RegWrite} (hv : mwf 0 sl.v = true) (ht : t < 4)
    (hd : w.dest = .lane r t) (hx : ∀ x ∈ ws, ∀ r' t', x.dest = .lane r' t' → t' < 4) (hs : ∀ x ∈ ws, x.Spares w) :
    (sl.writeAll seq ws).lane r t &&& w.mask = sl.lane r t &&& w.mask := by
  induction ws generalizing sl with
  | nil => rfl
  | cons x ws ih =>
    have h1 := ih (sl := sl.writeSeq seq x) (Slice.write_v_wf x hv) (fun y hy => hx y (by simp [hy])) (fun y hy => hs y (by simp [hy]))
    exact h1.trans (Slice.lane_write_spared hv ht hd (hx x (by simp)) (hs x (by simp)))

/-- What is left of a pending result after a later write spares that write. -/
theorem Pend.without_spares {p : Pend} {seq : Nat} {w : RegWrite} (h : p.seq < seq) : ∀ x ∈ (p.without seq w).writes, x.Spares w := by
  intro x hx hd
  simp only [Pend.without, if_pos h, List.mem_map] at hx
  obtain ⟨y, -, rfl⟩ := hx
  by_cases hy : y.dest = w.dest
  · exact ⟨y.mask, by simp [hy]⟩
  · simp [hy] at hd

theorem Pend.without_dest {p : Pend} {seq : Nat} {w x : RegWrite} (hx : x ∈ (p.without seq w).writes) : ∃ y ∈ p.writes, y.dest = x.dest := by
  by_cases h : p.seq < seq
  · simp only [Pend.without, if_pos h, List.mem_map] at hx
    obtain ⟨y, hy, rfl⟩ := hx
    refine ⟨y, hy, ?_⟩
    split <;> rfl
  · simp only [Pend.without, if_neg h] at hx
    exact ⟨x, hx, rfl⟩

end Sys2Proof.Machine

open Sys2Proof Sys2Proof.Machine in
/-- Settles O34: the three advances of a class-3 result step by step; a held result by its release; a later write by what it takes from the pending
one. -/
theorem resultsBecomeVisibleWhenDue : Obligations.ResultsBecomeVisibleWhenDue := by
  unfold Obligations.ResultsBecomeVisibleWhenDue
  refine ⟨fun sl ws hp => ⟨rfl, ?_⟩, fun sl p f wm hp hd => ⟨fun hf => ?_, fun hf => ?_⟩, fun sl p w seq r t hv hp hs hd ht hr hx => ?_⟩
  · obtain ⟨p3, p2, p1, e, e1, e2, e3⟩ := Slice.advances_of_three ws hp
    refine ⟨?_, ?_, ?_, ?_⟩
    · rw [e]; exact ⟨rfl, rfl, rfl⟩
    · rw [e1]; exact ⟨rfl, rfl, rfl⟩
    · rw [e2]; exact ⟨rfl, rfl, rfl⟩
    · obtain ⟨v, k, prd, pois, pend, hw⟩ := sl.writeAll_frame sl.seq ws
      rw [e3, hw]
      rfl
  · obtain ⟨h1, h2, h3, h4⟩ := sl.begin_regs wm
    obtain ⟨hv, hk, hprd⟩ := sl.writeAll_pend [] p.seq p.writes
    have hrel := Slice.release_one (q := fun p => p.named wm) hp (by simp [Pend.named, hd, hf])
    rw [hrel] at h1 h2 h3 h4
    exact ⟨h1.trans (Slice.writeAll_pend_nil rfl _ _), h2.trans hv, h3.trans hk, h4.trans hprd⟩
  · obtain ⟨h1, h2, h3, h4⟩ := sl.begin_regs wm
    have hrel := Slice.release_kept (q := fun p => p.named wm) hp (by simp [Pend.named, hd, hf])
    rw [hrel] at h1 h2 h3 h4
    exact ⟨h1.trans hp, h2, h3, h4⟩
  · obtain ⟨v, k, prd, pois, hw⟩ := sl.write_frame w
    have hpend : (sl.writeSeq seq w).pend = [p.without seq w] := by simp [Slice.writeSeq, hw, hp]
    have hwt : ∀ r' t', w.dest = .lane r' t' → t' < 4 := fun r' t' h => by rw [hd] at h; cases h; exact ht
    rw [Slice.release_one hpend rfl]
    have h1 := Slice.lane_writeAll_spared (sl := { sl.writeSeq seq w with pend := [] }) (seq := (p.without seq w).seq)
      (Slice.write_v_wf w hv) ht hd (fun x hxm r' t' hxd => by
        obtain ⟨y, hy, hyd⟩ := Pend.without_dest hxm
        exact hx y hy r' t' (hyd.trans hxd)) (Pend.without_spares hs)
    refine h1.trans ?_
    have h2 := Slice.lane_write (sl := sl) (w := w) r hv ht hwt
    rw [if_pos ⟨hd, hr⟩] at h2
    calc (sl.write w).lane r t &&& w.mask = maskMerge (sl.lane r t) w.val w.mask &&& w.mask := by rw [h2]
      _ = w.val &&& w.mask := maskMerge_same _ _ _
end

section
namespace Sys2Proof.Machine

/-! ## Flags -/

/-- A flag after one is set. -/
theorem Slice.flag_setFlag (sl : Slice) {f g : Nat} (n : Nat) (hg : g < 12) :
    (sl.setFlag f n).flag g = if g = f then n % 16 else sl.flag g := by
  have key : (sl.setFlag f n).flg.extractLsb' (4 * g) 4 = if g = f then BitVec.ofNat 4 n else sl.flg.extractLsb' (4 * g) 4 := by
    ext i hi
    have h15 : ∀ k, (15#48).getLsbD k = decide (k < 4) := fun k => by
      by_cases hk : k < 4
      · interval_cases k <;> rfl
      · rw [BitVec.getLsbD, BitVec.toNat_ofNat, decide_eq_false hk]
        exact Nat.testBit_lt_two_pow (lt_of_lt_of_le (by decide : 15 % 2 ^ 48 < 2 ^ 4) (Nat.pow_le_pow_right (by decide) (by omega)))
    have hlt : 4 * g + i < 48 := by omega
    simp only [Slice.setFlag, BitVec.getElem_extractLsb', BitVec.getLsbD_or, BitVec.getLsbD_and, BitVec.getLsbD_not, BitVec.getLsbD_shiftLeft, h15,
      hlt, decide_true, Bool.true_and]
    by_cases h : g = f
    · subst h
      simp [hi, ← BitVec.getLsbD_eq_getElem, BitVec.getLsbD_ofNat, show i < 48 by omega]
    · have hout : decide (4 * g + i < 4 * f) = true ∨ decide (4 * g + i - 4 * f < 4) = false := by
        simp only [decide_eq_true_eq, decide_eq_false_iff_not]; omega
      rcases hout with hout | hout <;> simp [hout, h]
  unfold Slice.flag
  rw [key]
  split
  · rw [BitVec.toNat_ofNat]
  · rfl

/-- The flags read the flag word alone. -/
theorem Slice.flag_congr {a b : Slice} (h : a.flg = b.flg) (f : Nat) : a.flag f = b.flag f := by simp only [Slice.flag, h]

/-- A slice under another wait. -/
def Slice.withWait (sl : Slice) (w : Option Wait) : Slice := { sl with wait := w }

theorem Slice.flag_lt (sl : Slice) (f : Nat) : sl.flag f < 16 := (sl.flg.extractLsb' (4 * f) 4).isLt

theorem Slice.flag_withWait (sl : Slice) (w : Option Wait) (f : Nat) : (sl.withWait w).flag f = sl.flag f := Slice.flag_congr rfl f

theorem Slice.flag_raise (sl : Slice) (f : Nat) {g : Nat} (hg : g < 12) :
    (sl.raise f).flag g = if g = f then min 15 (sl.flag g + 1) else sl.flag g := by
  unfold Slice.raise
  split
  · rw [sl.flag_setFlag _ hg]
    split
    · next h => subst h; omega
    · rfl
  · rw [if_neg (by omega)]

/-! ## A block whose waits are marked -/

/-- A slice of a block after the waits whose conditions hold are marked: nothing but its wait changes. -/
theorem Block.sl_latch (b : Block) (j : Nat) : ∃ w, b.latch.sl j = (b.sl j).withWait w := by
  simp only [Block.sl, Block.latch, List.getElem?_map]
  cases b.slices[j]? with
  | none => exact ⟨Slice.blank.wait, rfl⟩
  | some sl =>
    simp only [Option.map_some, Option.getD_some]
    split
    · split
      · exact ⟨_, rfl⟩
      · exact ⟨sl.wait, rfl⟩
    · exact ⟨sl.wait, rfl⟩

@[simp] theorem Block.latch_bid (b : Block) : b.latch.bid = b.bid := rfl

/-! ## Operations begun and ended -/

variable {s : State}

/-- A flag lowered at a completion (R32, R61). -/
theorem State.flag_lower {b i f : Nat} (hb : (s.blocks.find? (fun y => y.bid == b)).isSome) (hi : i < (s.blk b).slices.length) {bid j g : Nat}
    (hg : g < 12) : ((s.lower b i f).sl bid j).flag g =
      if bid = b ∧ j = i ∧ g = f then (s.sl bid j).flag g - 1 else (s.sl bid j).flag g := by
  unfold State.lower
  by_cases hf : f < 12
  · rw [if_pos hf]
    by_cases hbid : bid = b
    · subst hbid
      simp only [State.sl]
      rw [blk_modBlk_same s (f := fun b => (b.modSl i (fun sl => sl.setFlag f (sl.flag f - 1))).latch) (fun _ => rfl) hb]
      obtain ⟨w, hw⟩ := (((s.blk bid).modSl i (fun sl => sl.setFlag f (sl.flag f - 1)))).sl_latch j
      rw [hw, Slice.flag_withWait, Block.sl_modSl _ _ _ _ hi]
      by_cases hj : j = i
      · subst hj
        rw [if_pos rfl, Slice.flag_setFlag _ _ hg]
        have := ((s.blk bid).sl j).flag_lt f
        by_cases h : g = f
        · subst h
          simp
          omega
        · simp [h]
      · simp [hj]
    · rw [if_neg (by simp [hbid]), State.sl,
        blk_modBlk_other s (f := fun b => (b.modSl i (fun sl => sl.setFlag f (sl.flag f - 1))).latch) (fun _ => rfl) hbid]
      rfl
  · rw [if_neg hf, if_neg (by omega)]

theorem present_modSl (s : State) {b i other : Nat} {f : Slice → Slice} :
    ((s.modSl b i f).blocks.find? (fun y => y.bid == other)).isSome = (s.blocks.find? (fun y => y.bid == other)).isSome :=
  present_modBlk s (f := fun b => b.modSl i f) (fun _ => rfl)

theorem State.flag_modSl {b i : Nat} {f : Slice → Slice} (hb : (s.blocks.find? (fun y => y.bid == b)).isSome)
    (hi : i < (s.blk b).slices.length) (bid j g : Nat) :
    ((s.modSl b i f).sl bid j).flag g = if bid = b ∧ j = i then (f (s.sl bid j)).flag g else (s.sl bid j).flag g := by
  by_cases h : bid = b ∧ j = i
  · obtain ⟨rfl, rfl⟩ := h
    rw [if_pos ⟨rfl, rfl⟩, sl_modSl_same s hb hi]
  · rw [if_neg h, sl_modSl_other s (by omega)]

/-- A slice in which the operation `m` begins, with the identity `id` and the issue number `iss`, and the writes `ws` held. -/
def Ctx.withOp (x : Ctx) (id iss : Nat) (m : Mop) (ws : List RegWrite) (sl : Slice) : Slice :=
  let sl1 := { sl.raise x.setf with
    mops := sl.mops ++ [{ m with id := id, iss := iss, seq := sl.seq, pc := x.pc, word := x.word, flag := x.setf }] }
  if ws.isEmpty then sl1 else sl1.addPend { seq := sl1.seq, due := .flag x.setf, op := id, ready := false, writes := ws }

theorem Ctx.startOp_eq (x : Ctx) (i : Nat) (m : Mop) (ws : List RegWrite) :
    x.startOp s i m ws = { s.modSl x.bid i (x.withOp s.nextId s.iss m ws) with nextId := s.nextId + 1, iss := s.iss + 1 } := rfl

/-- A slice in which the operation `m` has ended, its result delivered. -/
def Slice.withoutOp (m : Mop) (vals : Option (List (RegDest × W32))) (sl : Slice) : Slice :=
  match vals with
  | some vs => ({ sl with mops := sl.mops.filter (fun y => y.id != m.id) } : Slice).deliver m.id vs
  | none => ({ sl with mops := sl.mops.filter (fun y => y.id != m.id) } : Slice).deliverNone m.id

theorem State.endOp_eq (b i : Nat) (m : Mop) (vals : Option (List (RegDest × W32))) :
    s.endOp b i m vals = (s.modSl b i (Slice.withoutOp m vals)).lower b i m.flag := by
  cases vals <;> rfl

theorem Ctx.flag_withOp (x : Ctx) (id iss : Nat) (m : Mop) (ws : List RegWrite) (sl : Slice) (g : Nat) :
    (x.withOp id iss m ws sl).flag g = (sl.raise x.setf).flag g := by
  refine Slice.flag_congr ?_ g
  unfold Ctx.withOp
  split <;> rfl

theorem Slice.flag_withoutOp (m : Mop) (vals : Option (List (RegDest × W32))) (sl : Slice) (g : Nat) :
    (sl.withoutOp m vals).flag g = sl.flag g := by
  refine Slice.flag_congr ?_ g
  cases vals <;> rfl

end Sys2Proof.Machine

open Sys2Proof Sys2Proof.Machine in
/-- Settles O35: the start of an operation changes its slice's flags by a raise alone, its end by a lowering alone. -/
theorem flagsCountOutstandingOperations : Obligations.FlagsCountOutstandingOperations := by
  unfold Obligations.FlagsCountOutstandingOperations
  refine ⟨fun x s i m ws hb hi bid j f hf => ?_, fun s b i m vals hb hi bid j f hf => ?_⟩
  · have h : ((x.startOp s i m ws).sl bid j).flag f =
        if bid = x.bid ∧ j = i then (x.withOp s.nextId s.iss m ws (s.sl bid j)).flag f else (s.sl bid j).flag f := State.flag_modSl hb hi bid j f
    rw [h, Ctx.flag_withOp, Slice.flag_raise _ _ hf]
    by_cases hs : bid = x.bid ∧ j = i
    · simp [hs]
    · rw [if_neg hs, if_neg (by tauto)]
  · have h : ∀ bid j, ((s.modSl b i (Slice.withoutOp m vals)).sl bid j).flag f = (s.sl bid j).flag f := fun bid j => by
      rw [State.flag_modSl hb hi, Slice.flag_withoutOp, ite_self]
    rw [State.endOp_eq, State.flag_lower ((present_modSl s).trans hb) (by rw [slices_modSl]; exact hi) hf, h]
end

section
/-! SUPPORT. The shape of every instruction of the opcode map: each is an issue with checks and an effect of its own, and a register instruction's effect
is the writes of its results alone (R67). -/

namespace Sys2Proof.Machine

/-- The keys of the instructions that do nothing but write registers or predicates. -/
def registerKeys : List Nat :=
  [0x001, 0x011, 0x040, 0x041, 0x042, 0x043, 0x044, 0x045, 0x048, 0x049, 0x04A, 0x04B, 0x04C, 0x04D, 0x04E, 0x04F, 0x050, 0x051, 0x052, 0x053, 0x054,
    0x055, 0x056, 0x057, 0x058, 0x059, 0x05A, 0x05B, 0x05C, 0x05D, 0x05E, 0x05F, 0x060, 0x061, 0x062, 0x063, 0x064, 0x065, 0x066, 0x067, 0x068, 0x069,
    0x080, 0x081, 0x082, 0x083, 0x084, 0x085, 0x086, 0x087, 0x088, 0x089, 0x08A, 0x08B, 0x08C, 0x08D, 0x08E, 0x08F, 0x090, 0x091, 0x092, 0x093, 0x094,
    0x095, 0x096, 0x097, 0x098, 0x099, 0x09A, 0x09B, 0x09C, 0x09D, 0x09E, 0x0C0, 0x0C1, 0x0C2, 0x0C3, 0x0C4, 0x0C5, 0x0C6, 0x0C7, 0x0C8, 0x0C9, 0x0CA,
    0x0CB, 0x0CC, 0x0CD, 0x0CE, 0x0CF, 0x0D0, 0x0D1, 0x0D2, 0x0D3, 0x0D4, 0x0D5, 0x0D6, 0x147, 0x14B, 0x14E, 0x18B]

/-- The instruction is an issue of its key and fields whose effect, where it does not trap, writes registers and predicates alone. -/
def WritesOnly (i : Instr) (key : Nat) (f : Fields) : Prop :=
  ∃ eff, (∀ s, exec i s = issue key f eff s) ∧ ∀ x s s2, eff x s = .ok s2 → s2 = s ∨ ∃ val more, s2 = x.put s val more

/-- The instruction is an issue of its key and fields, with an effect of its own or with checks that may walk. -/
def IssuesAs (i : Instr) (key : Nat) (f : Fields) : Prop :=
  (∃ eff, ∀ s, exec i s = issue key f eff s) ∨
    ∃ (α : Type) (chk : Ctx → State → State → State × Except (Option Trap) α) (eff : Ctx → State → α → State),
      ∀ s, exec i s = issueVia key f chk eff s

theorem WritesOnly.issues {i : Instr} {key : Nat} {f : Fields} (h : WritesOnly i key f) : IssuesAs i key f := by
  obtain ⟨eff, he, -⟩ := h
  exact .inl ⟨eff, he⟩

/-- The register instructions, by what they share in the model. -/
theorem exec_writesOnly {i : Instr} {key : Nat} {f : Fields} (hi : i.fields = some (key, f)) (hk : key ∈ registerKeys) : WritesOnly i key f := by
  cases i
  case iadd | isub | imul | imulh | imin | imax | icmp | vadd | vsub =>
    cases hi
    simp only [WritesOnly, exec, execIadd, execIsub, execImul, execImulh, execImin, execImax, execIcmp, execVadd, execVsub, intInstr2, regOp, issueAll]
    exact ⟨_, fun _ => rfl, fun x s s2 h => .inr ⟨_, _, (Except.ok.inj h).symm⟩⟩
  case imad | imadw | bfi | lea64 | sel | itst | shl64 | shr64 | ffma | ftst | fcmp | cvt | cvts | f2i | i2f | qnt | vmin | vmax | vabsd | vdot4 |
      vdot2 | p2v | shfl | bcast | vote | matchLanes | rank | prfx | rngk | hshk | redg | rdsr =>
    cases hi
    simp only [WritesOnly, exec, execImad, execImadw, execBfi, execLea64, execSel, execItst, execShl64, execShr64, execFfma, execFtst, execFcmp,
      execCvt, execCvts, execF2i, execI2f, execQnt, execVmin, execVmax, execVabsd, execVdot4, execVdot2, execP2v, execShfl, execBcast, execVote,
      execMatchLanes, execRank, execPrfx, execRngk, execHshk, execRedg, execRdsr, regOp, issueAll]
    exact ⟨_, fun _ => rfl, fun x s s2 h => .inr ⟨_, _, (Except.ok.inj h).symm⟩⟩
  case iabs | ineg =>
    cases hi
    simp only [WritesOnly, exec, execIabs, execIneg, intInstr1, regOp, issueAll]
    exact ⟨_, fun _ => rfl, fun x s s2 h => .inr ⟨_, _, (Except.ok.inj h).symm⟩⟩
  case shl | shr | sar =>
    cases hi
    simp only [WritesOnly, exec, execShl, execShr, execSar, shiftInstr, regOp, issueAll]
    exact ⟨_, fun _ => rfl, fun x s s2 h => .inr ⟨_, _, (Except.ok.inj h).symm⟩⟩
  case rot | andW | orW | xorW | andn | bfe | lea =>
    cases hi
    simp only [WritesOnly, exec, execRot, execAndW, execOrW, execXorW, execAndn, execBfe, execLea, wordInstr2, regOp, issueAll]
    exact ⟨_, fun _ => rfl, fun x s s2 h => .inr ⟨_, _, (Except.ok.inj h).symm⟩⟩
  case notW | popc | clz | ctz | brev | mov =>
    cases hi
    simp only [WritesOnly, exec, execNotW, execPopc, execClz, execCtz, execBrev, execMov, wordInstr1, regOp, issueAll]
    exact ⟨_, fun _ => rfl, fun x s s2 h => .inr ⟨_, _, (Except.ok.inj h).symm⟩⟩
  case iadd64 | isub64 | imul64 =>
    cases hi
    simp only [WritesOnly, exec, execIadd64, execIsub64, execImul64, pairInstr, regOp, issueAll]
    exact ⟨_, fun _ => rfl, fun x s s2 h => .inr ⟨_, _, (Except.ok.inj h).symm⟩⟩
  case iaddc | isubb =>
    cases hi
    simp only [WritesOnly, exec, execIaddc, execIsubb, carryInstr, issueAll]
    exact ⟨_, fun _ => rfl, fun x s s2 h => .inr ⟨_, _, (Except.ok.inj h).symm⟩⟩
  case fadd | fsub | fmul | fmin | fmax | fdiv =>
    cases hi
    simp only [WritesOnly, exec, execFadd, execFsub, execFmul, execFmin, execFmax, execFdiv, floatInstr2, regOp, issueAll]
    exact ⟨_, fun _ => rfl, fun x s s2 h => .inr ⟨_, _, (Except.ok.inj h).symm⟩⟩
  case frnd | fsqrt | frcp | frsq | fex2 | flg2 | fsin | fcos | ftanh | fcls =>
    cases hi
    simp only [WritesOnly, exec, execFrnd, execFsqrt, execFrcp, execFrsq, execFex2, execFlg2, execFsin, execFcos, execFtanh, execFcls, floatInstr1,
      regOp, issueAll]
    exact ⟨_, fun _ => rfl, fun x s s2 h => .inr ⟨_, _, (Except.ok.inj h).symm⟩⟩
  case hadd2 | hmul2 | hfma2 | badd2 | bmul2 | bfma2 =>
    cases hi
    simp only [WritesOnly, exec, execHadd2, execHmul2, execHfma2, execBadd2, execBmul2, execBfma2, halfInstr, regOp, issueAll]
    exact ⟨_, fun _ => rfl, fun x s s2 h => .inr ⟨_, _, (Except.ok.inj h).symm⟩⟩
  case pand | por | pxor | pnot | pmov =>
    cases hi
    simp only [WritesOnly, exec, execPand, execPor, execPxor, execPnot, execPmov, predInstr, regOp, issueAll]
    exact ⟨_, fun _ => rfl, fun x s s2 h => .inr ⟨_, _, (Except.ok.inj h).symm⟩⟩
  case v2p | movi | movh =>
    cases hi
    simp only [WritesOnly, exec, execV2p, execMovi, execMovh, issueAll]
    exact ⟨_, fun _ => rfl, fun x s s2 h => .inr ⟨_, _, (Except.ok.inj h).symm⟩⟩
  case nop =>
    cases hi
    simp only [WritesOnly, exec, execNop, issueAll]
    exact ⟨_, fun _ => rfl, fun x s s2 h => .inl (Except.ok.inj h).symm⟩
  case dqnt | tagff | cbrd | poolq | mxvp =>
    cases hi
    simp only [WritesOnly, exec, execDqnt, execTagff, execCbrd, execPoolq, execMxvp, tryOp, issueTry]
    refine ⟨_, fun _ => rfl, fun x s s2 h => ?_⟩
    split at h
    · cases h
    · exact .inr ⟨_, _, (Except.ok.inj h).symm⟩
  all_goals cases hi
  all_goals exact absurd hk (by decide)

/-- Every instruction of the opcode map is an issue of its key and fields. -/
theorem exec_issues {i : Instr} {key : Nat} {f : Fields} (hi : i.fields = some (key, f)) : IssuesAs i key f := by
  by_cases hk : key ∈ registerKeys
  · exact (exec_writesOnly hi hk).issues
  cases i
  case bra | brx | call | callx | ret =>
    cases hi
    simp only [IssuesAs, exec, execBra, execBrx, execCall, execCallx, execRet, transfer, issueTry]
    exact .inl ⟨_, fun _ => rfl⟩
  case exit | regang | part | refillPush | yield | wrsr | ifence | idiv | irem | fence | tfence | qwait | bar | waitt | waitta | tagclr | cbwait =>
    cases hi
    simp only [IssuesAs, exec, execExit, execRegang, execPart, execRefillPush, execYield, execWrsr, execIfence, execIdiv, execIrem, execFence,
      execTfence, execQwait, execBar, execWaitt, execWaitta, execTagclr, execCbwait, issueAll]
    exact .inl ⟨_, fun _ => rfl⟩
  case pushj | join | refill | trap | brk | harvest | qdecl | qsign | waitf | claim | give | mxv | svmap | atsub | atnext | atpost | atuns =>
    cases hi
    simp only [IssuesAs, exec, execPushj, execJoin, execRefill, execTrap, execBrk, execHarvest, execQdecl, execQsign, execWaitf, execClaim, execGive,
      execMxv, execSvmap, execAtsub, execAtnext, execAtpost, execAtuns, issueTry]
    exact .inl ⟨_, fun _ => rfl⟩
  case tlaunch | ld | st | ldv | stv | atom | acas | red | redf | reddcl | redrd | rwb | rinv | rwbi | pref =>
    cases hi
    simp only [IssuesAs, exec, execTlaunch, execLd, execSt, execLdv, execStv, execAtom, execAcas, execRed, execRedf, execReddcl, execRedrd, execRwb,
      execRinv, execRwbi, execPref]
    exact .inr ⟨_, _, _, fun _ => rfl⟩
  case ldb | stb | ldbv | stbv | atomb =>
    cases hi
    simp only [IssuesAs, exec, execLdb, execStb, execLdbv, execStbv, execAtomb, benchOp, issueTry]
    exact .inl ⟨_, fun _ => rfl⟩
  case cbexp =>
    cases hi
    simp only [IssuesAs, exec, execCbexp]
    exact .inl ⟨_, fun _ => rfl⟩
  case lalloc | lfree | lzero | lopf =>
    cases hi
    simp only [IssuesAs, exec, execLalloc, execLfree, execLzero, execLopf, loomIssue, issueTry]
    exact .inl ⟨_, fun _ => rfl⟩
  case lldc | lmma | lmms | lmmg | ldrn | ldrx =>
    cases hi
    simp only [IssuesAs, exec, execLldc, execLmma, execLmms, execLmmg, execLdrn, execLdrx, tileIssue, loomIssue, issueTry]
    exact .inl ⟨_, fun _ => rfl⟩
  case dcpy | dgth | dsct | dsca | dcsr | dfil =>
    cases hi
    simp only [IssuesAs, exec, execDcpy, execDgth, execDsct, execDsca, execDcsr, execDfil, drayIssue, engIssue, issueTry]
    exact .inl ⟨_, fun _ => rfl⟩
  case svpt | svvox | svqry | svnbr | svdwn | svfree | svclr =>
    cases hi
    simp only [IssuesAs, exec, execSvpt, execSvvox, execSvqry, execSvnbr, execSvdwn, execSvfree, execSvclr, surveyorIssue, engIssue, issueTry]
    exact .inl ⟨_, fun _ => rfl⟩
  case atstrm | atdone | atmrg =>
    cases hi
    simp only [IssuesAs, exec, execAtstrm, execAtdone, execAtmrg, engIssue, issueTry]
    exact .inl ⟨_, fun _ => rfl⟩
  all_goals cases hi
  all_goals exact absurd (by decide) hk

end Sys2Proof.Machine
end

section
/-! SUPPORT. An instruction whose check fails traps with it; a privileged instruction of a launch without privilege fails with PRIV (R67, R220). -/

namespace Sys2Proof.Machine

/-- An instruction of the opcode map of which a check of R67 fails traps with it. -/
theorem exec_stop {i : Instr} {key : Nat} {f : Fields} {s : State} {v : Visit} {t : Trap} (hi : i.fields = some (key, f)) (hv : s.visit = some v)
    (hc : (Ctx.make key f v s).check s (s.opened key f v) = some t) : exec i s = .next (s.stopped key f v t) := by
  obtain ⟨eff, he⟩ | ⟨α, chk, eff, he⟩ := exec_issues hi
  · rw [he, issue_stop hv hc]
  · rw [he, issueVia_stop hv hc]

theorem Ctx.check_priv {x : Ctx} {s s1 : State} (hd : x.deferredTrap s1 = none) (hx : x.privileged = true)
    (hp : (s.grid (s.blk x.bid).gid).priv = false) : x.check s s1 = some (x.trap .priv (x.v.slices.headD 0) 0) := by
  simp only [Ctx.check, hd, hx, hp, Bool.not_false, Bool.and_self, if_true]

theorem readsPrivileged_sreg {o : Opnd} {n : BitVec 8} (ho : o = .sreg n) (hn : 0x80 ≤ n.toNat) : readsPrivileged o = true := by
  simp [readsPrivileged, ho, hn]

/-- A privileged instruction in a launch without privilege traps with PRIV where no deferred trap is due. -/
theorem exec_priv {i : Instr} {key : Nat} {f : Fields} {s : State} {v : Visit} (hi : i.fields = some (key, f)) (hv : s.visit = some v)
    (hp : (s.grid (s.blk v.bid).gid).priv = false) (hd : (Ctx.make key f v s).deferredTrap (s.opened key f v) = none)
    (hx : (Ctx.make key f v s).privileged = true) :
    ∃ t : Trap, t.cause = .priv ∧ t.kind = 0 ∧ t.pc = (Ctx.make key f v s).pc ∧ exec i s = .next (s.stopped key f v t) :=
  ⟨_, rfl, rfl, rfl, exec_stop hi hv (Ctx.check_priv hd hx hp)⟩

theorem privileged_of_sreg {key : Nat} {f : Fields} {v : Visit} {s : State} {n : BitVec 8} (ho : f.oa = .sreg n ∨ f.ob = .sreg n) (hn : 0x80 ≤ n.toNat) :
    (Ctx.make key f v s).privileged = true := by
  rcases ho with ho | ho <;> simp [Ctx.privileged, Ctx.make, readsPrivileged_sreg ho hn]

theorem privileged_tfence {f : FormR} {v : Visit} {s : State} (h : 3 ≤ f.md.toNat % 8) : (Ctx.make 0x113 (.r f) v s).privileged = true := by
  have hm : 3 ≤ (Ctx.make 0x113 (.r f) v s).mod 2 0 := by simpa [Ctx.mod, Ctx.make, bitsOf, Fields.common] using h
  have hk : (Ctx.make 0x113 (.r f) v s).key = 0x113 := rfl
  simp [Ctx.privileged, hm, hk]

end Sys2Proof.Machine

open Sys2Proof Sys2Proof.Machine in
/-- Settles O44: every instruction goes through the checks of R67, of which privilege is the one after the deferred traps. -/
theorem privilegeIsChecked : Obligations.PrivilegeIsChecked := by
  unfold Obligations.PrivilegeIsChecked
  intro Turned
  refine ⟨?_, ?_, ?_, ?_, ?_, rfl⟩
  · intro f s v hv _ _ hp hd
    exact exec_priv rfl hv hp hd (by simp [Ctx.privileged, Ctx.make, keyIn])
  · intro f s v hv _ _ hp hd
    exact exec_priv rfl hv hp hd (by simp [Ctx.privileged, Ctx.make, keyIn])
  · intro f s v hv hm _ hp hd
    exact exec_priv rfl hv hp hd (privileged_tfence (hm rfl))
  · intro f s v hv _ hr hp hd
    obtain ⟨n, ho, hn⟩ := hr rfl
    exact exec_priv rfl hv hp hd (privileged_of_sreg (.inl ho) hn)
  · intro i key f s v n hi hv ho hn hp hd
    exact exec_priv hi hv hp hd (privileged_of_sreg ho hn)
end

section
/-! SUPPORT. The frame of one block's step: what every operation shared by the issue of an instruction leaves alone (R20, R67, R188, R197, R332). -/

namespace Sys2Proof.Machine

/-- The step from `s` to `t` changes nothing outside the slices of block `bid`, its traps and its watchdog count but time and the barrel, adds no trap
record, and keeps what `g` shows of the block's slices outside `l`. -/
structure State.Quiet (bid : Nat) (g : Slice → Slice) (l : List Nat) (s t : State) : Prop where
  bare : t.bare bid = s.bare bid
  here : (t.blocks.find? (fun b => b.bid == bid)).isSome = (s.blocks.find? (fun b => b.bid == bid)).isSome
  size : (t.blk bid).slices.length = (s.blk bid).slices.length
  still : ∀ j, j ∉ l → g (t.sl bid j) = g (s.sl bid j)
  clock : s.clock ≤ t.clock
  recs : t.recs.map TrapRec.seq = s.recs.map TrapRec.seq

variable {bid : Nat} {g : Slice → Slice} {l : List Nat} {s t u : State}

namespace State.Quiet

theorem refl (s : State) : Quiet bid g l s s := ⟨rfl, rfl, rfl, fun _ _ => rfl, Nat.le_refl _, rfl⟩

theorem trans (h : Quiet bid g l s t) (k : Quiet bid g l t u) : Quiet bid g l s u :=
  ⟨k.bare.trans h.bare, k.here.trans h.here, k.size.trans h.size, fun j hj => (k.still j hj).trans (h.still j hj),
    Nat.le_trans h.clock k.clock, k.recs.trans h.recs⟩

/-- A fold of quiet steps. -/
theorem foldl {α : Type} {f : State → α → State} (is : List α) (h : ∀ s, ∀ i ∈ is, Quiet bid g l s (f s i)) (s : State) :
    Quiet bid g l s (is.foldl f s) := by
  induction is generalizing s with
  | nil => exact refl s
  | cons i is ih => exact (h s i (by simp)).trans (ih (fun s k hk => h s k (by simp [hk])) _)

end State.Quiet

/-! ## Blocks and slices -/

theorem map_updFirst {α β : Type} {p : α → Bool} {f : α → α} {k : α → β} (h : ∀ a, p a = true → k (f a) = k a) (as : List α) :
    (updFirst p f as).map k = as.map k := by
  induction as with
  | nil => rfl
  | cons a as ih => cases hp : p a <;> simp [updFirst, hp, ih, h]

theorem map_updAt {α β : Type} {f : α → α} {k : α → β} (h : ∀ a, k (f a) = k a) (n : Nat) (as : List α) : (updAt f n as).map k = as.map k := by
  induction as generalizing n with
  | nil => cases n <;> rfl
  | cons a as ih => cases n <;> simp [updAt, ih, h]

/-- What a change shows of another slice, or of the slice itself where the change is not shown. -/
theorem Block.sl_modSl_shown (b : Block) {i j : Nat} {f : Slice → Slice} (h : j = i → ∀ sl, g (f sl) = g sl) : g ((b.modSl i f).sl j) = g (b.sl j) := by
  by_cases hj : j = i
  · simp only [Block.sl, Block.modSl, updAt_get, if_pos hj]
    cases b.slices[j]? with
    | none => rfl
    | some sl => exact h hj sl
  · simp only [Block.sl, Block.modSl, updAt_get, if_neg hj]

/-- A block's bare form holds its identity. -/
theorem Block.bid_of_bare {b c : Block} (h : b.bare = c.bare) : b.bid = c.bid := by
  injection h

theorem State.bare_modBlk {f : Block → Block} (hb : ∀ b, (f b).bare = b.bare) : (s.modBlk bid f).bare bid = s.bare bid := by
  have hm : (s.modBlk bid f).blocks.map (fun b => if b.bid = bid then b.bare else b) = s.blocks.map (fun b => if b.bid = bid then b.bare else b) := by
    refine map_updFirst (fun b hp => ?_) _
    have hid : b.bid = bid := by simpa using hp
    rw [if_pos hid, if_pos ((Block.bid_of_bare (hb b)).trans hid), hb]
  simp only [State.bare, hm]
  rfl

theorem State.Quiet.modBlk {f : Block → Block} (hb : ∀ b, (f b).bare = b.bare) (hl : ∀ b, (f b).slices.length = b.slices.length)
    (hg : ∀ b j, j ∉ l → g ((f b).sl j) = g (b.sl j)) : Quiet bid g l s (s.modBlk bid f) where
  bare := State.bare_modBlk hb
  here := present_modBlk s (fun b => Block.bid_of_bare (hb b))
  size := by
    have hf : ∀ b, (f b).bid = b.bid := fun b => Block.bid_of_bare (hb b)
    by_cases hp : (s.blocks.find? (fun b => b.bid == bid)).isSome
    · rw [blk_modBlk_same s hf hp, hl]
    · rw [blk_modBlk_absent s hf (by simpa using hp)]
  still j hj := by
    have hf : ∀ b, (f b).bid = b.bid := fun b => Block.bid_of_bare (hb b)
    simp only [State.sl]
    by_cases hp : (s.blocks.find? (fun b => b.bid == bid)).isSome
    · rw [blk_modBlk_same s hf hp, hg _ j hj]
    · rw [blk_modBlk_absent s hf (by simpa using hp)]
  clock := Nat.le_refl _
  recs := rfl

theorem State.Quiet.modSl {i : Nat} {f : Slice → Slice} (h : i ∈ l ∨ ∀ sl, g (f sl) = g sl) : Quiet bid g l s (s.modSl bid i f) :=
  .modBlk (fun _ => rfl) (fun b => b.modSl_length i f) (fun b _ hj => b.sl_modSl_shown (fun hji => h.resolve_left (hji ▸ hj)))

theorem State.Quiet.forSlices {is : List Nat} {f : Nat → Slice → Slice} (h : ∀ i ∈ is, i ∈ l ∨ ∀ sl, g (f i sl) = g sl) :
    Quiet bid g l s (s.forSlices bid is f) :=
  .foldl is (fun _ i hi => .modSl (h i hi)) s

/-- Changes of served slices alone. -/
theorem State.Quiet.served {f : Nat → Slice → Slice} : Quiet bid g l s (s.forSlices bid l f) := .forSlices (fun _ hi => .inl hi)

/-! ## Time and the barrel -/

theorem State.Quiet.modSec (c k : Nat) (f : Section → Section) : Quiet bid g l s (s.modSec c k f) where
  bare := by
    have hm : (s.modSec c k f).cores.map (fun c => { c with secs := [] }) = s.cores.map (fun c => { c with secs := [] }) :=
      map_updAt (f := fun c => { c with secs := updAt f k c.secs }) (fun _ => rfl) c s.cores
    simp only [State.bare, hm]
    rfl
  here := rfl
  size := rfl
  still _ _ := rfl
  clock := Nat.le_refl _
  recs := rfl

theorem State.Quiet.charge (c k n : Nat) : Quiet bid g l s (s.charge c k n) :=
  (modSec c k (fun x => { x with time := x.time + n, spent := true })).trans ⟨rfl, rfl, rfl, fun _ _ => rfl, Nat.le_max_left _ _, rfl⟩

theorem State.Quiet.leave : Quiet bid g l s { s with visit := none } := ⟨rfl, rfl, rfl, fun _ _ => rfl, Nat.le_refl _, rfl⟩

/-! ## Reconvergence -/

theorem State.Quiet.gather (l' : List Nat) : Quiet bid g l s (s.gather bid l') := by
  simp only [State.gather]
  split
  · exact refl s
  · exact modSec ..

/-- The close of a REGANG moves only the marks of reconvergence. -/
theorem State.Quiet.close (i : Nat) (addr : W64) (site : Nat) (pass bound : W32) (any : Bool) :
    Quiet bid Slice.still l s (s.close bid i addr site pass bound any) := by
  refine (forSlices (fun y _ => .inr (fun sl => ?_))).trans (gather _)
  split
  · cases h : sl.wait <;> simp [Slice.still, h]
  · rfl

theorem State.Quiet.closeAll (n : Nat) : Quiet bid Slice.still l s (s.closeAll bid n) := by
  induction n generalizing s with
  | zero => exact refl s
  | succ n ih =>
    simp only [State.closeAll]
    split
    · exact (close ..).trans ih
    · exact refl s

theorem State.Quiet.regangCheck : Quiet bid Slice.still l s (s.regangCheck bid) := closeAll _

/-- A waiting condition that is marked as met is the only change of a latch. -/
theorem Block.still_latch (b : Block) (j : Nat) : (b.latch.sl j).still = (b.sl j).still := by
  simp only [Block.sl, Block.latch, List.getElem?_map]
  cases b.slices[j]? with
  | none => rfl
  | some sl =>
    simp only [Option.map_some, Option.getD_some]
    cases hw : sl.wait with
    | none => rfl
    | some w =>
      by_cases hh : waitHolds b sl w.kind
      · simp [hh, Slice.still, hw]
      · simp [hh]

theorem State.Quiet.latch (n : Nat) : Quiet bid Slice.still l s (s.modBlk bid (fun b => { b.latch with wdog := n })) :=
  .modBlk (fun _ => rfl) (fun b => by simp [Block.latch]) (fun b j _ => b.still_latch j)

/-! ## Deferred traps -/

theorem State.Quiet.deferTrap {i : Nat} (d : Deferred) (h : i ∈ l ∨ ∀ sl ds, g { sl with deferred := ds } = g sl) :
    Quiet bid g l s (s.deferTrap bid i d) := by
  refine .modBlk (fun b => ?_) (fun b => ?_) (fun b j hj => ?_)
  · split <;> rfl
  · split
    · rfl
    · exact b.modSl_length i _
  · split
    · rfl
    · exact b.sl_modSl_shown (fun hji sl => h.resolve_left (hji ▸ hj) sl _)

theorem Ctx.deferPoison_quiet (x : Ctx) (s1 : State) (h : (∀ i ∈ x.v.slices, i ∈ l) ∨ ∀ sl ds, g { sl with deferred := ds } = g sl) :
    State.Quiet x.bid g l s (x.deferPoison s1 s) := by
  simp only [Ctx.deferPoison]
  split
  · exact .refl s
  · refine .foldl _ (fun s i hi => .foldl _ (fun s t _ => .deferTrap _ ?_) s) s
    exact h.imp_left (fun h => h i (List.mem_filter.1 hi).1)

/-! ## The issue -/

/-- The end of an issuing visit, after the distance counts have advanced. -/
theorem Ctx.finish_quiet (x : Ctx) (cost : Nat) (s : State) :
    State.Quiet x.bid Slice.still l (s.forSlices x.bid x.v.slices (fun _ sl => sl.advance)) (x.finish cost s) :=
  .trans (.trans (.trans (.trans (.modSec ..) (.latch _)) .regangCheck) (.charge ..)) .leave

theorem Ctx.begin_quiet (x : Ctx) (s : State) : State.Quiet x.bid g x.v.slices s (x.begin s) := .trans .served .served

theorem Ctx.put_quiet (x : Ctx) (s : State) (val : Nat → Nat → List W32) (more : Nat → Nat → List RegWrite) :
    State.Quiet x.bid g x.v.slices s (x.put s val more) := .served

/-- An instruction whose effect keeps to its served slices keeps to them as a whole. -/
theorem State.closed_quiet {key : Nat} {f : Fields} {v : Visit} {s2 : State}
    (h : Quiet v.bid Slice.still v.slices (s.opened key f v) s2) : Quiet v.bid Slice.still v.slices s (s.closed key f v s2) :=
  let x := Ctx.make key f v s
  .trans (.trans (.trans (.trans (x.begin_quiet s) h) (x.deferPoison_quiet _ (.inl (fun _ hi => hi)))) .served) (x.finish_quiet _ _)

/-! ## Taking a trap -/

/-- A trap stops its block, and adds one record at most: one already there may take its content, and keeps its number. -/
theorem State.takeTrap_frame (s : State) (bid : Nat) (r : Trap) : (s.takeTrap bid r).bare bid = s.bare bid ∧
    (∀ j, (s.takeTrap bid r).sl bid j = s.sl bid j) ∧ (s.takeTrap bid r).clock = s.clock ∧
    ∃ l : List Nat, l.length ≤ 1 ∧ (s.takeTrap bid r).recs.map TrapRec.seq = s.recs.map TrapRec.seq ++ l := by
  have hsl : ∀ (s : State) (f : Block → Block), (∀ b, (f b).bare = b.bare) → (∀ b, (f b).slices = b.slices) →
      ∀ j, (s.modBlk bid f).sl bid j = s.sl bid j :=
    fun s f hb hf j => (State.Quiet.modBlk (g := id) (l := []) hb (fun b => by rw [hf]) (fun b j _ => by simp only [id, Block.sl, hf])).still j (by simp)
  simp only [State.takeTrap]
  split
  · refine ⟨?_, ?_, rfl, [s.seqNo], by simp, ?_⟩
    · refine (State.bare_modBlk ?_).trans rfl
      exact fun _ => rfl
    · refine fun j => (hsl _ _ ?_ ?_ j).trans rfl
      all_goals exact fun _ => rfl
    · simp [State.addRecord]
  · split
    · refine ⟨?_, ?_, rfl, [], by simp, ?_⟩
      · refine (State.bare_modBlk ?_).trans rfl
        exact fun _ => rfl
      · refine fun j => (hsl _ _ ?_ ?_ j).trans rfl
        all_goals exact fun _ => rfl
      · simp only [modBlk_recs, List.append_nil]
        exact map_updFirst (f := TrapRec.displaced r) (fun _ _ => rfl) _
    · exact ⟨rfl, fun _ => rfl, rfl, [], by simp, by simp⟩
  · exact ⟨rfl, fun _ => rfl, rfl, [], by simp, by simp⟩

theorem State.stopped_frame (s : State) (key : Nat) (f : Fields) (v : Visit) (r : Trap) : (s.stopped key f v r).bare v.bid = s.bare v.bid ∧
    (∀ j, ((s.stopped key f v r).sl v.bid j).still = (s.sl v.bid j).still) ∧ s.clock ≤ (s.stopped key f v r).clock ∧
    ∃ l : List Nat, l.length ≤ 1 ∧ (s.stopped key f v r).recs.map TrapRec.seq = s.recs.map TrapRec.seq ++ l := by
  obtain ⟨hb, hs, hc, l, hl, hr⟩ := s.takeTrap_frame v.bid r
  have hq : Quiet v.bid Slice.still [] (s.takeTrap v.bid r) (s.stopped key f v r) := .charge ..
  exact ⟨hq.bare.trans hb, fun j => (hq.still j (by simp)).trans (by rw [hs]), hc ▸ hq.clock, l, hl, hq.recs.trans hr⟩

/-- An issue whose effect writes registers alone stays in its visit. -/
theorem WritesOnly.stays {i : Instr} {key : Nat} {f : Fields} (h : WritesOnly i key f) : StaysInItsVisit i := by
  intro s v t hv ht
  obtain ⟨eff, he, hw⟩ := h
  rw [he] at ht
  obtain ⟨r, hr⟩ | ⟨s2, h2, hr⟩ := issue_cases (key := key) (f := f) eff hv
  · obtain rfl := Host.Outcome.next.inj (hr.symm.trans ht)
    obtain ⟨hb, hs, hc, hl⟩ := s.stopped_frame key f v r
    exact ⟨hb, fun j _ => hs j, hc, hl⟩
  · obtain rfl := Host.Outcome.next.inj (hr.symm.trans ht)
    have h2q : State.Quiet v.bid Slice.still v.slices (s.opened key f v) s2 := by
      obtain rfl | ⟨val, more, rfl⟩ := hw _ _ _ h2
      · exact .refl _
      · exact Ctx.put_quiet (Ctx.make key f v s) _ _ _
    have hq := State.closed_quiet h2q
    exact ⟨hq.bare, hq.still, hq.clock, [], by simp, by simpa using hq.recs⟩

end Sys2Proof.Machine

open Sys2Proof Sys2Proof.Machine in
/-- Settles O31: each of the instructions is an issue whose effect is its register writes, and an issue with such an effect stays in its visit. -/
theorem registerInstructionsStayInTheirVisit : Obligations.RegisterInstructionsStayInTheirVisit := by
  unfold Obligations.RegisterInstructionsStayInTheirVisit
  constructor
  all_goals
    simp only [List.forall_mem_cons, List.not_mem_nil, false_implies, implies_true, and_true]
    and_intros
    all_goals exact fun f => (exec_writesOnly rfl (by decide)).stays
end

section
/-! SUPPORT. What the issue of a register instruction leaves in a slice that it serves (R23, R62). -/

namespace Sys2Proof.Machine

/-! ## A visit's slices -/

theorem State.Quiet.stands {v : Visit} {g : Slice → Slice} {l : List Nat} {s t : State} (h : Quiet v.bid g l s t) (hv : v.Stands s) : v.Stands t := by
  obtain ⟨hb, hn, hl⟩ := hv
  exact ⟨h.here.trans hb, hn, fun j hj => by rw [h.size]; exact hl j hj⟩

/-- Each slice of a visit that stands takes a change of them all. -/
theorem Visit.Stands.sl_forSlices {v : Visit} {s : State} (hv : v.Stands s) {i : Nat} (hi : i ∈ v.slices) (f : Nat → Slice → Slice) :
    (s.forSlices v.bid v.slices f).sl v.bid i = f i (s.sl v.bid i) := by
  obtain ⟨hb, hn, hl⟩ := hv
  rw [Machine.sl_forSlices s hb hn hl, if_pos hi]

/-! ## Opening an issue -/

theorem Slice.makeRoom_false (sl : Slice) : sl.makeRoom false = sl := rfl

theorem Slice.makeRoom_pc (sl : Slice) (b : Bool) : (sl.makeRoom b).pc = sl.pc := by
  simp only [Slice.makeRoom]
  split
  · split
    · next p _ =>
      obtain ⟨v, k, prd, pois, pend, h⟩ := sl.release_frame (fun q => q.seq == p.seq && q.op == p.op && Pend.held q)
      rw [h]
      rfl
    · rfl
  · rfl

theorem Slice.begin_pc (sl : Slice) (wm : BitVec 12) : (sl.begin wm).pc = sl.pc + 12 := by
  obtain ⟨v, k, prd, pois, pend, h⟩ := sl.release_frame (fun p => p.named wm)
  simp only [Slice.begin, h]
  rfl

/-- A served slice of the state in which an instruction reads its operands. -/
theorem Ctx.sl_begin (x : Ctx) {s : State} (hv : x.v.Stands s) {i : Nat} (hi : i ∈ x.v.slices) :
    ∃ u, (x.begin s).sl x.bid i = ((s.sl x.bid i).begin x.f.wm).makeRoom (x.holds u i) := by
  let s1 := s.forSlices x.v.bid x.v.slices (fun _ sl => sl.begin x.f.wm)
  have hq : State.Quiet x.v.bid id x.v.slices s s1 := .served
  refine ⟨s1, ((hq.stands hv).sl_forSlices hi _).trans ?_⟩
  exact congrArg (Slice.makeRoom · (x.holds s1 i)) (hv.sl_forSlices hi _)

theorem Ctx.begin_stands (x : Ctx) {s : State} (hv : x.v.Stands s) : x.v.Stands (x.begin s) :=
  (x.begin_quiet (g := id) s).stands hv

/-! ## Closing it -/

theorem Slice.settled_of_still {a b : Slice} (h : a.still = b.still) : a.settled = b.settled := by simp only [Slice.settled, h]

theorem Slice.settled_aside : Slice.Aside Slice.settled := ⟨fun _ _ _ _ _ _ => rfl, fun _ => rfl⟩

/-- The marks of reconvergence and deferred traps have no part in an advance of the distance count. -/
theorem Slice.settled_advance (sl : Slice) : sl.advance.settled = sl.settled.advance := by
  simp only [Slice.advance, Slice.settled_aside.release]
  rfl

/-- The end of an issuing visit advances the distance count of a served slice, and leaves the rest of it but marks of reconvergence and deferred traps. -/
theorem State.sl_closed {s s2 : State} {key : Nat} {f : Fields} {v : Visit} (hv : v.Stands s2) {i : Nat} (hi : i ∈ v.slices) :
    ((s.closed key f v s2).sl v.bid i).settled = (s2.sl v.bid i).advance.settled := by
  let x := Ctx.make key f v s
  have hd : Quiet v.bid Slice.settled [] s2 (x.deferPoison (s.opened key f v) s2) := x.deferPoison_quiet _ (.inr (fun _ _ => rfl))
  have hf := Slice.settled_of_still ((x.finish_quiet (l := []) (x.cost s) (x.deferPoison (s.opened key f v) s2)).still i (by simp))
  calc ((s.closed key f v s2).sl v.bid i).settled
    _ = (((x.deferPoison (s.opened key f v) s2).sl v.bid i).advance).settled := by
      refine hf.trans (congrArg Slice.settled ?_)
      exact (hd.stands hv).sl_forSlices hi _
    _ = (s2.sl v.bid i).advance.settled := by rw [Slice.settled_advance, Slice.settled_advance, hd.still i (by simp)]

/-- The writes of a register instruction in a served slice. -/
theorem Ctx.sl_put (x : Ctx) {s : State} (hv : x.v.Stands s) {i : Nat} (hi : i ∈ x.v.slices) (val : Nat → Nat → List W32) :
    (x.put s val).sl x.bid i = (s.sl x.bid i).result x.row.lat (x.writesTo s x.f.od i (val i)) := by
  refine (hv.sl_forSlices hi _).trans (congrArg ((s.sl x.bid i).result x.row.lat) ?_)
  simp

end Sys2Proof.Machine

open Sys2Proof Sys2Proof.Machine in
/-- Settles O32: the issue opens the slice, its writes are made there, and the end of the visit advances the distance count. -/
theorem registerResultsInServedSlices : Obligations.RegisterResultsInServedSlices := by
  unfold Obligations.RegisterResultsInServedSlices
  intro key f s v val hv i hi x s1
  have hs1 : v.Stands s1 := x.begin_stands hv
  obtain ⟨u, hu⟩ := x.sl_begin hv hi
  refine ⟨?_, fun hlat => ?_, ?_⟩
  · have hput : (x.put s1 (val x s1)).sl v.bid i = (s1.sl v.bid i).result x.row.lat (x.writesTo s1 f.od i (val x s1 i)) :=
      x.sl_put hs1 hi _
    rw [← hput]
    exact State.sl_closed ((x.put_quiet (g := id) s1 _ _).stands hs1) hi
  · have hh : x.holds u i = false := by simp [Ctx.holds, hlat]
    rw [hh, Slice.makeRoom_false] at hu
    exact hu
  · exact (congrArg Slice.pc hu).trans (by rw [Slice.makeRoom_pc, Slice.begin_pc]; rfl)
end

section
/-! SUPPORT. The participants of an instruction, class by class (R59, R187). -/

namespace Sys2Proof.Machine

theorem mem_bitsSet {n x i : Nat} : i ∈ bitsSet n x ↔ i < n ∧ x.testBit i = true := by simp [bitsSet]

theorem mem_posOf {m : BitVec 4} {t : Nat} : t ∈ posOf m ↔ t < 4 ∧ m.getLsbD t = true := mem_bitsSet

theorem State.mem_guarded {s : State} {bid i : Nat} {c : Common} {t : Nat} :
    t ∈ s.guarded bid i c ↔ t ∈ posOf (s.sl bid i).act ∧ (s.sl bid i).pred c.gp.toNat t = !c.gn := by
  simp [State.guarded, State.guard, ← Bool.not_eq]

/-- A Slice-class instruction takes effect where its guard holds in some, or under .all in every, active thread. -/
theorem State.takes_iff {s : State} {bid i : Nat} {c : Common} {all : Bool} : s.takes bid i c all = true ↔
    (∃ t ∈ posOf (s.sl bid i).act, (s.sl bid i).pred c.gp.toNat t = !c.gn) ∧
      (all = true → ∀ t ∈ posOf (s.sl bid i).act, (s.sl bid i).pred c.gp.toNat t = !c.gn) := by
  have hsome : (!(s.guarded bid i c).isEmpty) = true ↔ ∃ t ∈ posOf (s.sl bid i).act, (s.sl bid i).pred c.gp.toNat t = !c.gn := by
    simp only [Bool.not_eq_true', List.isEmpty_eq_false_iff_exists_mem, State.mem_guarded]
  have hall : (s.guarded bid i c).length = (posOf (s.sl bid i).act).length ↔
      ∀ t ∈ posOf (s.sl bid i).act, (s.sl bid i).pred c.gp.toNat t = !c.gn := by
    simp only [State.guarded, List.length_filter_eq_length_iff, State.guard]
    simp [← Bool.not_eq]
  simp only [State.takes, Bool.and_eq_true, hsome]
  cases all <;> simp [hall]

theorem guardClass_of_quorum {row : OpRow} {f : Fields} (h : row.guard = .quorum) : guardClass row f = if f.ob = .none then .slice else .thread := by
  simp only [guardClass, h]
  split
  · next ho => rw [if_pos ho]
  · next ho => rw [if_neg ho]

theorem guardClass_of_ne {row : OpRow} {f : Fields} (h : row.guard ≠ .quorum) : guardClass row f = row.guard := by
  cases hg : row.guard with
  | quorum => exact absurd hg h
  | thread | slice | always => simp only [guardClass, hg]

theorem Slice.result_nil (sl : Slice) (lat : Lat) : sl.result lat [] = sl := by cases lat <;> rfl

/-- The participants of an instruction of the Thread class. -/
theorem State.mem_participants_thread {s : State} {bid i key : Nat} {c : Common} {t : Nat} : t ∈ s.participants bid i key .thread c ↔
    t < 4 ∧ (s.sl bid i).act.getLsbD t = true ∧ (s.sl bid i).pred c.gp.toNat t = !c.gn := by
  simp only [State.participants, State.mem_guarded, mem_posOf, and_assoc]

/-- Under p7 the guard of every active thread holds, or inverted that of none. -/
theorem State.participants_p7 {s : State} {bid i key : Nat} {c : Common} (hc : c.gp = 7) :
    s.participants bid i key .thread c = if c.gn then [] else posOf (s.sl bid i).act := by
  have hg : ∀ t, s.guard bid i c t = !c.gn := fun t => by simp [State.guard, hc, Slice.pred]
  simp only [State.participants, State.guarded]
  cases hn : c.gn <;> simp [hg, hn]

/-- A word of an Always instruction with another guard is an illegal encoding: no answer of the checks of the common fields names another field. -/
theorem encodingFault_always {row : OpRow} {f : Fields} (hr : row.guard = .always) (hg : ¬(f.common.gp = 7 ∧ f.common.gn = false)) :
    encodingFault row f = some 3 := by
  have hc : commonFault row f.common = some 3 := by
    simp only [commonFault, hr, true_and, if_pos hg]
    split
    · rfl
    · split <;> rfl
  simp only [encodingFault, hc]

/-- The lane element that a register write of an operand names is of the position written for. -/
theorem destWrites_lane {o : Opnd} {t u r : Nat} {vals : List W32} {w : RegWrite} (hw : w ∈ destWrites o t vals) (hd : w.dest = .lane r u) : u = t := by
  simp only [destWrites, List.mem_filterMap, List.mem_mapIdx, id, exists_eq_right] at hw
  obtain ⟨j, hj, h⟩ := hw
  simp only [Option.map_eq_some_iff] at h
  obtain ⟨d, hd', rfl⟩ := h
  simp only at hd
  subst hd
  cases o <;> simp_all [destElem]

theorem Ctx.writesTo_lane {x : Ctx} {s : State} {o : Opnd} {i : Nat} {val : Nat → List W32} {w : RegWrite} {r t : Nat} (hw : w ∈ x.writesTo s o i val)
    (hd : w.dest = .lane r t) : t ∈ x.parts s i := by
  simp only [Ctx.writesTo] at hw
  split at hw
  · split at hw
    · next u hu => exact destWrites_lane hw hd ▸ List.mem_of_head? hu
    · simp at hw
  · obtain ⟨u, hu, hw⟩ := List.mem_flatMap.1 hw
    exact destWrites_lane hw hd ▸ hu

theorem Ctx.put_none (x : Ctx) (s : State) {i : Nat} (val : Nat → Nat → List W32) (h : x.parts s i = []) : (x.put s val).sl x.bid i = s.sl x.bid i := by
  have hw : x.writesTo s x.f.od i (val i) = [] := by simp only [Ctx.writesTo, h]; split <;> rfl
  refine (State.Quiet.forSlices (g := id) (l := x.v.slices.filter (· ≠ i)) (fun k hk => ?_)).still i (by simp)
  by_cases hki : k = i
  · subst hki
    exact .inr (fun sl => by simp [h, hw, Slice.result_nil])
  · exact .inl (by simp [hk, hki])

end Sys2Proof.Machine

open Sys2Proof Sys2Proof.Machine in
/-- Settles O36: the guard of each row is read off the opcode map, and the participants off the class it gives. -/
theorem guardsChooseParticipants : Obligations.GuardsChooseParticipants := by
  unfold Obligations.GuardsChooseParticipants
  intro whole always either
  have hrows : ∀ r ∈ opRows,
      (r.guard = .slice ↔ r.key ∈ whole) ∧ (r.guard = .always ↔ r.key ∈ always) ∧ (r.guard = .quorum ↔ r.key ∈ either) := by
    decide +kernel
  refine ⟨hrows, ?_, ?_, fun x s o i val w r t hw hd => Ctx.writesTo_lane hw hd, fun x s i val h => x.put_none s val h⟩
  · intro key f s s1 v i hk x holds act
    obtain ⟨row, hrow⟩ := Option.isSome_iff_exists.1 hk
    have hx : x.row = row := by simp [x, Ctx.make, hrow]
    have hkey : row.key = key := by simpa using List.find?_some hrow
    obtain ⟨hs, ha, hq⟩ := hrows row (List.mem_of_find?_eq_some hrow)
    rw [hkey] at hs ha hq
    have hparts : x.parts s1 i = s1.participants v.bid i key (guardClass row f) f.common := by rw [← hx]; rfl
    rw [hparts]
    refine ⟨fun h1 h2 h3 t => ?_, fun h => ?_, fun h => ?_⟩
    · have hc : guardClass row f = .thread := by
        cases hg : row.guard with
        | thread => rw [guardClass_of_ne (by simp [hg]), hg]
        | slice => exact absurd (hs.1 hg) h1
        | always => exact absurd (ha.1 hg) h2
        | quorum => rw [guardClass_of_quorum hg, if_neg (h3 (hq.1 hg))]
      rw [hc]
      exact State.mem_participants_thread
    · have hc : guardClass row f = .slice := by
        obtain h | ⟨h, ho⟩ := h
        · rw [guardClass_of_ne (by simp [hs.2 h]), hs.2 h]
        · rw [guardClass_of_quorum (hq.2 h), if_pos ho]
      rw [hc]
      simp only [State.participants, State.takes_iff, Bool.and_eq_true, isTransfer, keyIn, List.contains_eq_mem, decide_eq_true_eq, and_imp]
      rfl
    · have hg := ha.2 h
      rw [guardClass_of_ne (by simp [hg]), hg]
      exact ⟨rfl, fun hn => by rw [hx]; exact encodingFault_always hg hn⟩
  · intro s bid i key c hc
    exact State.participants_p7 hc
end

section
/-! SUPPORT. The register pool of a block: what a claim and a return of units do to the units of its slices, its reserve and its queue (R216, R217). -/

namespace Sys2Proof.Machine

/-! ## Units -/

/-- The units of a block's slices and its reserve. -/
def Block.poolUnits (b : Block) : Nat := sumNat (b.slices.map (fun sl => sl.alloc)) + b.reserve

/-- The units of the slices after those of one have changed. -/
theorem sumNat_alloc_updAt (f : Slice → Slice) (i : Nat) (l : List Slice) (h : i < l.length) :
    sumNat ((updAt f i l).map (fun sl => sl.alloc)) + (l[i]?.getD Slice.blank).alloc =
      sumNat (l.map (fun sl => sl.alloc)) + (f (l[i]?.getD Slice.blank)).alloc := by
  induction l generalizing i with
  | nil => simp at h
  | cons a l ih =>
    cases i with
    | zero => simp [updAt, sumNat]; omega
    | succ i =>
      have := ih i (by simpa using h)
      simp only [updAt, List.map_cons, sumNat, List.getElem?_cons_succ]
      omega

theorem Block.poolUnits_modSl (b : Block) {i : Nat} (f : Slice → Slice) (h : i < b.slices.length) :
    (b.modSl i f).poolUnits + (b.sl i).alloc = b.poolUnits + (f (b.sl i)).alloc := by
  have := sumNat_alloc_updAt f i b.slices h
  simp only [poolUnits, modSl, sl]
  omega

/-! ## The service of claims -/

/-- A slice whose claim of n units is served. -/
def Slice.served (n : Nat) (sl : Slice) : Slice :=
  { sl with alloc := sl.alloc + n, v := mdrop (fun k => decide (32 * sl.alloc ≤ k)) sl.v,
            pois := sl.pois.filter (fun k => decide (k < 32 * sl.alloc)),
            wait := sl.wait.map (fun w => match w.kind with
              | .claim _ => { w with met := true }
              | _ => w) }

/-- The block whose first claim is served. -/
def Block.serveOne (b : Block) (i n : Nat) (l : List (Nat × Nat)) : Block :=
  ({ b with claimQ := l, reserve := b.reserve - n } : Block).modSl i (Slice.served n)

theorem Block.serve_zero (b : Block) : b.serve 0 = b := rfl

theorem Block.serve_nil {b : Block} (h : b.claimQ = []) (fuel : Nat) : b.serve fuel = b := by
  cases fuel with
  | zero => rfl
  | succ fuel => simp only [Block.serve, h]

theorem Block.serve_cons {b : Block} {i n : Nat} {l : List (Nat × Nat)} (h : b.claimQ = (i, n) :: l) (hn : n ≤ b.reserve) (fuel : Nat) :
    b.serve (fuel + 1) = (b.serveOne i n l).serve fuel := by
  simp only [Block.serve, h, if_pos hn]
  rfl

theorem Block.serve_waits {b : Block} {i n : Nat} {l : List (Nat × Nat)} (h : b.claimQ = (i, n) :: l) (hn : b.reserve < n) (fuel : Nat) :
    b.serve fuel = b := by
  cases fuel with
  | zero => rfl
  | succ fuel => simp only [Block.serve, h, if_neg (Nat.not_le.2 hn)]

theorem Block.poolUnits_serveOne {b : Block} {i n : Nat} (l : List (Nat × Nat)) (hi : i < b.slices.length) (hn : n ≤ b.reserve) :
    (b.serveOne i n l).poolUnits = b.poolUnits := by
  have h := poolUnits_modSl { b with claimQ := l, reserve := b.reserve - n } (Slice.served n) hi
  have ha : (Slice.served n (b.sl i)).alloc = (b.sl i).alloc + n := rfl
  have hsl : (({ b with claimQ := l, reserve := b.reserve - n } : Block).sl i) = b.sl i := rfl
  rw [hsl, ha] at h
  simp only [serveOne, poolUnits] at h ⊢
  omega

/-- The service of claims moves units between the reserve and the slices. -/
theorem Block.poolUnits_serve (fuel : Nat) (b : Block) (hq : ∀ e ∈ b.claimQ, e.1 < b.slices.length) : (b.serve fuel).poolUnits = b.poolUnits := by
  induction fuel generalizing b with
  | zero => rfl
  | succ fuel ih =>
    cases hc : b.claimQ with
    | nil => rw [serve_nil hc]
    | cons e l =>
      obtain ⟨i, n⟩ := e
      have hi : i < b.slices.length := hq (i, n) (by simp [hc])
      by_cases hn : n ≤ b.reserve
      · rw [serve_cons hc hn, ih, poolUnits_serveOne l hi hn]
        intro e he
        simpa [serveOne] using hq e (by rw [hc]; exact List.mem_cons_of_mem _ he)
      · rw [serve_waits hc (Nat.not_le.1 hn)]

theorem Block.poolUnits_claim (b : Block) {i n : Nat} (hi : i < b.slices.length) (hq : ∀ e ∈ b.claimQ, e.1 < b.slices.length) :
    (b.claim i n).poolUnits = b.poolUnits := by
  refine poolUnits_serve _ { b with claimQ := b.claimQ ++ [(i, n)] } (fun e he => ?_)
  obtain he | he := List.mem_append.1 he
  · exact hq e he
  · rw [List.mem_singleton.1 he]
    exact hi

theorem Block.poolUnits_give (b : Block) {i n : Nat} (hi : i < b.slices.length) (hn : n ≤ (b.sl i).alloc)
    (hq : ∀ e ∈ b.claimQ, e.1 < b.slices.length) : (b.give i n).poolUnits = b.poolUnits := by
  let less := fun sl : Slice => Slice.dropOutside { sl with alloc := sl.alloc - n }
  refine (poolUnits_serve _ { b.modSl i less with reserve := b.reserve + n } (fun e he => ?_)).trans ?_
  · simpa using hq e he
  · have h := poolUnits_modSl b less hi
    have ha : (less (b.sl i)).alloc = (b.sl i).alloc - n := rfl
    have hr : (b.modSl i less).reserve = b.reserve := rfl
    rw [ha] at h
    simp only [poolUnits, hr] at h ⊢
    omega

end Sys2Proof.Machine

open Sys2Proof Sys2Proof.Machine in
/-- Settles O50: a served claim moves its units from the reserve to its slice, and a return moves them back before the queue is served. -/
theorem registerUnitsAreConserved : Obligations.RegisterUnitsAreConserved := by
  unfold Obligations.RegisterUnitsAreConserved
  exact ⟨fun b _ _ hi hq => b.poolUnits_claim hi hq, fun b _ _ hi hn hq => b.poolUnits_give hi hn hq⟩
end

section
/-! SUPPORT. A claim as its block's queue and reserve stand, and the limits of the pool (R27, R216, R217). -/

namespace Sys2Proof.Machine

theorem Block.claim_served {b : Block} {i n : Nat} (h : b.claimQ = []) (hn : n ≤ b.reserve) : b.claim i n = b.serveOne i n [] := by
  simp only [Block.claim, h, List.nil_append, Block.serveClaims, List.length_singleton]
  rw [Block.serve_cons (b := { b with claimQ := [(i, n)] }) rfl hn, Block.serve_zero]
  rfl

theorem Block.claim_behind {b : Block} {j m : Nat} {l : List (Nat × Nat)} (h : b.claimQ = (j, m) :: l) (hm : b.reserve < m) (i n : Nat) :
    b.claim i n = { b with claimQ := b.claimQ ++ [(i, n)] } := by
  simp only [Block.claim, Block.serveClaims]
  exact Block.serve_waits (b := { b with claimQ := b.claimQ ++ [(i, n)] }) (i := j) (l := l ++ [(i, n)]) (by simp [h]) hm _

theorem Block.claim_waits {b : Block} {i n : Nat} (h : b.claimQ = []) (hn : b.reserve < n) : b.claim i n = { b with claimQ := [(i, n)] } := by
  simp only [Block.claim, h, List.nil_append, Block.serveClaims]
  exact Block.serve_waits (b := { b with claimQ := [(i, n)] }) rfl hn _

/-- What is left of a map reads as before, and the rest as the default. -/
theorem mget_mdrop {α : Type} [DecidableEq α] {d : α} (p : Nat → Bool) {m : List (Nat × α)} (a : Nat) {lo : Nat} (hm : mwfFrom d lo m = true) :
    mget d (mdrop p m) a = if p a then d else mget d m a := by
  induction m generalizing lo with
  | nil => simp [mdrop]
  | cons e m ih =>
    obtain ⟨k, v⟩ := e
    obtain ⟨-, -, hm⟩ := mwfFrom_cons.1 hm
    have ih := ih hm
    by_cases hk : p k = true
    · have hd : mdrop p ((k, v) :: m) = mdrop p m := by simp [mdrop, hk]
      rw [hd, ih]
      by_cases ha : a = k
      · simp [ha, hk]
      · by_cases hlt : a < k
        · simp [mget, ha, hlt, mget_below hm (Nat.lt_succ_of_lt hlt)]
        · simp [mget, ha, hlt]
    · have hd : mdrop p ((k, v) :: m) = (k, v) :: mdrop p m := by simp [mdrop, hk]
      rw [hd]
      by_cases ha : a = k
      · simp [mget, ha, hk]
      · by_cases hlt : a < k
        · simp [mget, ha, hlt]
        · simp [mget, ha, hlt, ih]

/-- The registers of a slice whose claim is served: those it had, and new ones that read zero. -/
theorem Slice.lane_served {sl : Slice} (hv : mwf 0 sl.v = true) (n r : Nat) {t : Nat} (ht : t < 4) :
    (sl.served n).lane r t = if r < 8 * sl.alloc then sl.lane r t else 0 := by
  have hr : 4 * r + t < 32 * sl.alloc ↔ r < 8 * sl.alloc := by omega
  simp only [Slice.lane, Slice.served, mget_mdrop _ _ hv, decide_eq_true_eq, ← hr]
  by_cases h : 4 * r + t < 32 * sl.alloc
  · rw [if_neg (Nat.not_le.2 h), if_pos h]
  · rw [if_pos (Nat.not_lt.1 h), if_neg h]

theorem Ctx.claimTrap_eq_none {x : Ctx} {s : State} : x.claimTrap s = none ↔ ∀ i ∈ x.inEffect s, (s.sl x.bid i).alloc + x.claimed s i ≤ 32 := by
  simp [Ctx.claimTrap]

theorem Ctx.giveTrap_eq_none {x : Ctx} {s : State} : x.giveTrap s = none ↔ ∀ i ∈ x.inEffect s, x.claimed s i < (s.sl x.bid i).alloc := by
  simp [Ctx.giveTrap]

theorem Ctx.claimTrap_eq_some {x : Ctx} {s : State} {t : Trap} (h : x.claimTrap s = some t) : ∃ i, 32 < (s.sl x.bid i).alloc + x.claimed s i ∧
    t = x.trap .regRange i 0 0 (x.claimed s i) (s.sl x.bid i).alloc := by
  obtain ⟨i, hi, rfl⟩ := Option.map_eq_some_iff.1 h
  exact ⟨i, by simpa using List.find?_some hi, rfl⟩

theorem Ctx.giveTrap_eq_some {x : Ctx} {s : State} {t : Trap} (h : x.giveTrap s = some t) : ∃ i, (s.sl x.bid i).alloc ≤ x.claimed s i ∧
    t = x.trap .regRange i 0 0 (x.claimed s i) (s.sl x.bid i).alloc := by
  obtain ⟨i, hi, rfl⟩ := Option.map_eq_some_iff.1 h
  exact ⟨i, by simpa using List.find?_some hi, rfl⟩

end Sys2Proof.Machine

open Sys2Proof Sys2Proof.Machine in
/-- Settles O51: a claim is served where it stands first and the reserve holds its units, and the pool's limits are the tests of the two traps. -/
theorem claimsAreServedInOrderWithinLimits : Obligations.ClaimsAreServedInOrderWithinLimits := by
  unfold Obligations.ClaimsAreServedInOrderWithinLimits
  refine ⟨⟨fun b i n hq hn hi hv => ?_, fun b i n j m l h hm => Block.claim_behind h hm i n, fun b i n h hn => Block.claim_waits h hn⟩,
    fun x s => Ctx.claimTrap_eq_none, fun x s t h => ?_, fun x s => Ctx.giveTrap_eq_none, fun x s t h => ?_⟩
  · have hsl : (b.serveOne i n []).sl i = (b.sl i).served n :=
      (Block.sl_modSl { b with claimQ := [], reserve := b.reserve - n } i i (Slice.served n) hi).trans (if_pos rfl)
    rw [Block.claim_served hq hn]
    refine ⟨rfl, rfl, by rw [hsl]; rfl, fun r t ht => by rw [hsl]; exact Slice.lane_served hv n r ht⟩
  · obtain ⟨i, hi, rfl⟩ := Ctx.claimTrap_eq_some h
    exact ⟨rfl, rfl, rfl, rfl, by simp only [Ctx.trap]; omega⟩
  · obtain ⟨i, hi, rfl⟩ := Ctx.giveTrap_eq_some h
    exact ⟨rfl, rfl, rfl, rfl, hi⟩
end

section
/-! SUPPORT. The detection of a deadlock of claims (R28). -/

namespace Sys2Proof.Machine

/-- The slices of a block that have not ended. -/
def Block.unended (b : Block) : List Nat := (List.range b.slices.length).filter (fun i => !(b.sl i).ended)

theorem Block.mem_unended {b : Block} {i : Nat} : i ∈ b.unended ↔ i < b.slices.length ∧ (b.sl i).ended = false := by simp [Block.unended]

/-- The first of them is the lowest. -/
theorem Block.head_unended {b : Block} {i : Nat} (hi : i < b.slices.length) (he : (b.sl i).ended = false) (hl : ∀ j < i, (b.sl j).ended = true) :
    b.unended.head? = some i := by
  rw [Block.unended, List.head?_filter, List.find?_range_eq_some]
  exact ⟨by simp [he], by simpa using hi, fun j hj => by simp [hl j hj]⟩

theorem State.regDeadlock_eq (s : State) (bid : Nat) : s.regDeadlock bid =
    if s.mayTrap bid = false || (s.blk bid).unended.isEmpty || !(s.blk bid).unended.all (fun i => ((s.sl bid i).claiming).isSome) then none
    else
      let i := (s.blk bid).unended.headD 0
      let sl := s.sl bid i
      some (s.blockTrap bid
        { cause := .regDeadlock, slc := i, pc := sl.pc - 12, tpc := sl.pc - 12, word := (sl.wait.map (fun w => w.word)).getD 0
          info := sl.claiming.getD 0, info2 := (s.blk bid).reserve }) := rfl

/-- A block that runs stops for a trap taken. -/
theorem State.stop_takeTrap {s : State} {bid : Nat} (t : Trap) (hb : (s.blocks.find? (fun b => b.bid == bid)).isSome) (hs : (s.blk bid).stop = none) :
    ((s.takeTrap bid t).blk bid).stop = some { state := t.frameState, trap := some t, cycle := s.cycle bid } := by
  simp only [State.takeTrap, hs]
  refine (congrArg Block.stop (blk_modBlk_same _ ?_ hb)).trans rfl
  exact fun _ => rfl

theorem State.mayTrap_of_running {s : State} {bid : Nat} (hs : (s.blk bid).stop = none) : s.mayTrap bid = true := by simp only [State.mayTrap, hs]

end Sys2Proof.Machine

open Sys2Proof Sys2Proof.Machine in
/-- Settles O52: the detection looks at the slices that have not ended, the lowest of which is their first. -/
theorem claimDeadlockIsTrapped : Obligations.ClaimDeadlockIsTrapped := by
  unfold Obligations.ClaimDeadlockIsTrapped
  constructor
  · intro s bid i hb hs hi he hl hall
    have hhead := Block.head_unended hi he hl
    have hne : (s.blk bid).unended.isEmpty = false := by simpa using List.ne_nil_of_mem (List.mem_of_head? hhead)
    have hwait : (s.blk bid).unended.all (fun j => ((s.sl bid j).claiming).isSome) = true := by
      refine List.all_eq_true.2 (fun j hj => ?_)
      obtain ⟨n, hn⟩ := hall j (Block.mem_unended.1 hj).1 (Block.mem_unended.1 hj).2
      rw [hn]
      rfl
    obtain ⟨n, hn⟩ := hall i hi he
    have hex : exec (.regDeadlockDetect bid) s = .next ((s.regDeadlock bid).getD s) := rfl
    rw [hex, State.regDeadlock_eq, State.mayTrap_of_running hs, hne, hwait]
    refine ⟨_, _, rfl, State.stop_takeTrap _ hb hs, rfl, rfl, ?_, ?_, rfl⟩
    · simp [List.headD_eq_head?_getD, hhead]
    · simp [List.headD_eq_head?_getD, hhead, hn]
  · intro s bid j hj he hc
    have hall : (s.blk bid).unended.all (fun j => ((s.sl bid j).claiming).isSome) = false := by
      refine List.all_eq_false.2 ⟨j, Block.mem_unended.2 ⟨hj, he⟩, ?_⟩
      simp [hc]
    have hex : exec (.regDeadlockDetect bid) s = .next ((s.regDeadlock bid).getD s) := rfl
    rw [hex, State.regDeadlock_eq, hall]
    simp
end

section
/-! SUPPORT. The turn of a visit that serves slices which run (R20, R22, R188). -/

namespace Sys2Proof.Machine

/-! ## Changes that change nothing -/

theorem updFirst_self {α : Type} {p : α → Bool} {f : α → α} {l : List α} (h : ∀ a, l.find? p = some a → f a = a) : updFirst p f l = l := by
  induction l with
  | nil => rfl
  | cons a l ih =>
    cases hp : p a
    · simp only [updFirst, hp, Bool.false_eq_true, if_false]
      rw [ih (fun b hb => h b (by simpa [hp] using hb))]
    · simp only [updFirst, hp, if_true]
      rw [h a (by simp [hp])]

theorem updAt_self {α : Type} {f : α → α} {i : Nat} {l : List α} (h : ∀ a, l[i]? = some a → f a = a) : updAt f i l = l := by
  induction l generalizing i with
  | nil => cases i <;> rfl
  | cons a l ih =>
    cases i with
    | zero => simp only [updAt, h a (by simp)]
    | succ i => simp only [updAt, ih (fun b hb => h b (by simpa using hb))]

theorem State.modSl_self {s : State} {bid i : Nat} {f : Slice → Slice} (h : f (s.sl bid i) = s.sl bid i) : s.modSl bid i f = s := by
  have hb : updFirst (fun b => b.bid == bid) (fun b => b.modSl i f) s.blocks = s.blocks := by
    refine updFirst_self (fun b hb => ?_)
    have hu : updAt f i b.slices = b.slices := by
      refine updAt_self (fun a ha => ?_)
      have hs : s.sl bid i = a := by simp [State.sl, State.blk, hb, Block.sl, ha]
      rw [hs] at h
      exact h
    simp only [Block.modSl, hu]
  simp only [State.modSl, State.modBlk, hb]

theorem State.forSlices_self {s : State} {bid : Nat} {l : List Nat} {f : Nat → Slice → Slice} (h : ∀ i ∈ l, f i (s.sl bid i) = s.sl bid i) :
    s.forSlices bid l f = s := by
  induction l with
  | nil => rfl
  | cons i l ih =>
    rw [State.forSlices, List.foldl_cons, State.modSl_self (h i (by simp))]
    exact ih (fun k hk => h k (by simp [hk]))

theorem State.forSlices_congr {s : State} {bid : Nat} {l : List Nat} {f g : Nat → Slice → Slice} (h : ∀ i ∈ l, f i = g i) :
    s.forSlices bid l f = s.forSlices bid l g := by
  induction l generalizing s with
  | nil => rfl
  | cons i l ih =>
    simp only [State.forSlices, List.foldl_cons, h i (by simp)]
    exact ih (fun k hk => h k (by simp [hk]))

theorem State.emptyTurn_congr {s : State} {v : Visit} {a b : Nat → Bool} (h : ∀ i ∈ v.slices, a i = b i) : s.emptyTurn v a = s.emptyTurn v b := by
  simp only [State.emptyTurn]
  rw [State.forSlices_congr (fun i hi => by rw [h i hi])]

/-! ## The turn -/

theorem Slice.unhold_none {sl : Slice} (h : sl.wait = none) : sl.unhold = sl := by simp only [Slice.unhold, h]

theorem Slice.unholdTrap_none {sl : Slice} (b : Block) (h : sl.wait = none) : sl.unholdTrap b = none := by simp only [Slice.unholdTrap, h]

variable {v : Visit} {s s1 : State} {w : W96}

/-- No block condition, wait or hold stands between the visit and its word. -/
theorem Serves.turn (h : Serves v s) : s.turn v = s.tryIssue v (fun i => ((s.sl v.bid i).wait).isSome) := by
  have hhalt : s.halted v.bid = false := by simp only [State.halted, h.running]
  have hsit : v.slices.any (fun i => decide (0 < ((s.blk v.bid).sl i).ycnt)) = false :=
    List.any_eq_false.2 (fun i hi => by simpa [State.sl] using h.inTurn i hi)
  have htrap : firstSome (fun i => ((s.blk v.bid).sl i).unholdTrap (s.blk v.bid)) v.slices = none :=
    firstSome_eq_none.2 (fun i hi => Slice.unholdTrap_none _ (h.unheld i hi))
  have hself : s.forSlices v.bid v.slices (fun _ sl => sl.unhold) = s := State.forSlices_self (fun i hi => Slice.unhold_none (h.unheld i hi))
  have hheld : v.slices.all (fun i => ((s.sl v.bid i).wait).isSome) = false := by
    obtain ⟨i, hi⟩ := List.exists_mem_of_ne_nil _ h.someSlice
    exact List.all_eq_false.2 ⟨i, hi, by simp [h.unheld i hi]⟩
  have hfetch : v.slices.any (fun i => (s.sl v.bid i).unfetched) = false :=
    List.any_eq_false.2 (fun i hi => by simp [h.fetches i hi])
  simp only [State.turn, hhalt, h.redone, hsit, htrap, hself, hheld, hfetch, List.isEmpty_nil, Bool.not_true, Bool.or_self, Bool.false_eq_true, if_false]

/-- What a step answers for a turn. -/
def Turn.answer : Turn → Host.Outcome State Fault Refusal
  | .over s' => .next s'
  | .issue s' i => exec i s'

theorem Serves.step (h : Serves v s) : step s = (s.tryIssue v (fun i => ((s.sl v.bid i).wait).isSome)).answer := by
  simp only [Machine.step, h.visit, h.turn]
  rfl

/-- The held slices of a visit that serves slices which run: none. -/
theorem Serves.not_held (h : Serves v s) {i : Nat} (hi : i ∈ v.slices) : ((s.sl v.bid i).wait).isSome = false := by simp [h.unheld i hi]

theorem Serves.tryIssue_error (h : Serves v s) {e : Failure} (hf : s.visitFetch v = (s1, .error e)) :
    s.tryIssue v (fun i => ((s.sl v.bid i).wait).isSome) =
      if e.held then .over (s1.emptyTurn v (fun _ => false)) else .over (s1.wordTrap v e.cause (s.sl v.bid (v.slices.headD 0)).pc 0 e.ea e.info) := by
  simp only [State.visitFetch] at hf
  have hheld : v.slices.any (fun i => ((s.sl v.bid i).wait).isSome) = false := List.any_eq_false.2 (fun i hi => by simp [h.not_held hi])
  simp only [State.tryIssue, hf, hheld, Bool.false_or]

/-- Where a word decodes, the instruction issues once every served slice is ready, and until then the turn is empty. -/
theorem Serves.tryIssue_ok (h : Serves v s) {i : Instr} {key : Nat} {f : Fields} (hf : s.visitFetch v = (s1, .ok w)) (hd : decode w = .ok i)
    (hi : i.fields = some (key, f)) : s.tryIssue v (fun i => ((s.sl v.bid i).wait).isSome) =
      let waits := (Ctx.make key f v s1).waits s1 (rawHints w) ((Ctx.make key f v s1).room s1)
      if v.slices.any (fun j => !(s1.sl v.bid j).distOk (rawHints w) || waits j) then
        .over (s1.emptyTurn v (fun j => !(s1.sl v.bid j).distOk (rawHints w) && !waits j))
      else .issue s1 i := by
  simp only [State.visitFetch] at hf
  have hany : ∀ q : Nat → Bool, v.slices.any (fun j => ((s.sl v.bid j).wait).isSome || !(s1.sl v.bid j).distOk (rawHints w) || q j) =
      v.slices.any (fun j => !(s1.sl v.bid j).distOk (rawHints w) || q j) := by
    intro q
    refine Bool.eq_iff_iff.2 ?_
    simp only [List.any_eq_true]
    exact exists_congr (fun j => and_congr_right (fun hj => by rw [h.not_held hj, Bool.false_or]))
  have hadv : ∀ q : Nat → Bool, s1.emptyTurn v (fun j => !((s.sl v.bid j).wait).isSome && !(s1.sl v.bid j).distOk (rawHints w) && !q j) =
      s1.emptyTurn v (fun j => !(s1.sl v.bid j).distOk (rawHints w) && !q j) :=
    fun q => State.emptyTurn_congr (fun j hj => by rw [h.not_held hj, Bool.not_false, Bool.true_and])
  simp only [State.tryIssue, hf, hd, hi, Option.map_some, hany, hadv]

theorem not_ready_iff {key : Nat} {f : Fields} {j : Nat} : ¬Ready key f v s w j ↔
    (!(s.sl v.bid j).distOk (rawHints w) || (Ctx.make key f v s).waits s (rawHints w) ((Ctx.make key f v s).room s) j) = true := by
  simp only [Ready, Bool.or_eq_true, Bool.not_eq_true']
  cases (s.sl v.bid j).distOk (rawHints w) <;> simp

end Sys2Proof.Machine

open Sys2Proof Sys2Proof.Machine in
/-- Settles O5: the turn of such a visit comes to its word, and the readiness of the served slices decides whether it issues. -/
theorem stepRunsDecodedInstruction : Obligations.StepRunsDecodedInstruction := by
  unfold Obligations.StepRunsDecodedInstruction
  intro s s1 v hs
  refine ⟨fun w i key f hf hd hi => ⟨fun hr => ?_, fun hr => ?_⟩, fun e hf => ?_⟩
  · have hany : v.slices.any (fun j => !(s1.sl v.bid j).distOk (rawHints w) ||
        (Ctx.make key f v s1).waits s1 (rawHints w) ((Ctx.make key f v s1).room s1) j) = false :=
      List.any_eq_false.2 (fun j hj hn => not_ready_iff.2 hn (hr j hj))
    rw [hs.step, hs.tryIssue_ok hf hd hi]
    simp only [hany, Bool.false_eq_true, if_false, Turn.answer]
  · have hany : v.slices.any (fun j => !(s1.sl v.bid j).distOk (rawHints w) ||
        (Ctx.make key f v s1).waits s1 (rawHints w) ((Ctx.make key f v s1).room s1) j) = true :=
      List.any_eq_true.2 (hr.imp (fun j hj => ⟨hj.1, not_ready_iff.1 hj.2⟩))
    rw [hs.step, hs.tryIssue_ok hf hd hi]
    simp only [hany, if_true, Turn.answer]
  · rw [hs.step, hs.tryIssue_error hf]
    split <;> rfl

open Sys2Proof Sys2Proof.Machine in
/-- Settles O6: with no visit in progress a step looks at the agenda. -/
theorem stepTakesTheAgenda : Obligations.StepTakesTheAgenda := by
  unfold Obligations.StepTakesTheAgenda
  intro s hv
  constructor
  · intro e l hl
    simp only [step, hv, hl]
  · intro hl
    simp only [step, hv, hl]
end

section
/-! SUPPORT. The barrel's visits and the Foreman's events: the branch that each takes under the conditions that choose it. -/

namespace Sys2Proof.Machine

/-- An event whose step exists answers it. -/
theorem next_getD {o : Option State} {s t : State} (h : o = some t) : (Host.Outcome.next (o.getD s) : Host.Outcome State Fault Refusal) = .next t := by
  rw [h]
  rfl

variable {s : State}

/-! ## QUEUE_ENTRY_ACCEPT (R310) -/

/-- The state in which the Foreman reads the launch of a queue entry at `qea` that reads `e`. -/
def State.entryTaken (s : State) (q qea : Nat) (e : List Byte) : State :=
  let s0 := s.recallVirt (q / 4) qea 16
  ((({ s0 with host := { s0.host with pfPosts := s0.host.pfPosts.filter (fun p => decide (p ≠ (q, (s.queueRing q).head))) } } : State).modQueue q
    (fun r => { r with head := (r.head + 1) % 2 ^ 32 })).recallLaunch (q / 4) (field e 0 8 / 256 * 256))

/-- A posted entry of a ring that reads is answered as its launch record reads. -/
theorem State.queueAccept_read {q : Nat} {e : List Byte} (hq : q < 64) (hz : (s.queueRing q).size ≠ 0) (hr : (s.queueRing q).head ≠ (s.queueRing q).tail)
    (hb : bitOf (s.queueRing q).err 1 = false)
    (he : (s.recallVirt (q / 4) ((s.queueRing q).base + 16 * ((s.queueRing q).head % (s.queueRing q).size)) 16).readVirt (q / 4)
      ((s.queueRing q).base + 16 * ((s.queueRing q).head % (s.queueRing q).size)) 16 = .ok e) :
    let qea := (s.queueRing q).base + 16 * ((s.queueRing q).head % (s.queueRing q).size)
    let s1 := s.entryTaken q qea e
    let irq := bitOf (field e 0 8) 0
    s.queueAccept q = match s1.readLaunch (q / 4) (field e 0 8 / 256 * 256) none with
      | .error rsn => some ((s1.writeEntry (q / 4) qea (bytesOf 1 4 ++ bytesOf 1 rsn)).entryIrq q irq)
      | .ok l =>
        let s2 := s1.writeEntry (q / 4) qea (bytesOf 1 1)
        some ({ s2 with nextId := s2.nextId + 1 }.taskAccept
          (gridOf s2.nextId q qea irq ((s.recallVirt (q / 4) qea 16).host.pfPosts.contains (q, (s.queueRing q).head)) l)) := by
  have hc : ¬(64 ≤ q ∨ (s.queueRing q).size = 0 ∨ (s.queueRing q).head = (s.queueRing q).tail ∨ bitOf (s.queueRing q).err 1 = true) := by
    simp only [not_or]
    exact ⟨Nat.not_le.2 hq, hz, hr, by simp [hb]⟩
  simp only [State.queueAccept, if_neg hc, he]
  rfl

/-! ## BLOCK_RETIRE (R39) -/

theorem State.blockRetire_writesBack {bid core : Nat} (hl : (s.blk bid).loc = .resident core) (hd : s.blockDone (s.blk bid) = true)
    (hb : (s.blk bid).bar = 0) : s.blockRetire bid =
      some (((s.l1FlushAll core).drainUnits (s.blk bid).touched).modBlk bid (fun b =>
        { b with bar := ((s.l1FlushAll core).drainUnits (s.blk bid).touched).nextId })) := by
  simp only [State.blockRetire, hl, hd, hb, Bool.true_eq_false, if_false, if_true]

theorem State.blockRetire_removes {bid core : Nat} (hl : (s.blk bid).loc = .resident core) (hd : s.blockDone (s.blk bid) = true)
    (hb : (s.blk bid).bar ≠ 0) (hf : s.flushed core (s.blk bid).bar = true) : s.blockRetire bid =
      some (((((s.residueTrap (s.blk bid)).dropExtents bid).dropPv bid core).modGrid (s.blk bid).gid
        (fun g => { g with retired := g.retired + 1 })).removeBlock bid) := by
  simp only [State.blockRetire, hl, hd, hf, if_neg hb, Bool.true_eq_false, if_false]

/-! ## GRID_RETIRE (R314, R315) -/

/-- What stands once a grid's entries are discarded and the cores it leaves are free. -/
def State.gridLeft (s : State) (gid : Nat) (g0 : Grid) : State :=
  ((s.wqDrop gid).modGrid gid (fun _ => { g0 with disc := g0.disc + s.wqCount gid, started := false, hosts := [] })).freeCores

/-- The launch record that a grid links to; 0 for none. -/
def Grid.link (g : Grid) : Nat :=
  match g.cand with
  | some c => c.lra.toNat
  | none => g.lr.tlk.toNat

section
variable {gid : Nat} {g0 : Grid} (hg : s.grids.find? (fun g => g.gid == gid) = some g0) (ho : s.gridOver g0 = true)
include hg ho

/-- With every block retired the chain ends, or goes on with the launch linked to. -/
theorem State.gridRetire_over :
    let g := { g0 with disc := g0.disc + s.wqCount gid }
    let s1 := s.gridLeft gid g0
    let s2 := if g0.ended ∨ g0.failed ∨ g0.link = 0 then s1 else s1.recallLaunch g0.lr.part g0.link
    s.gridRetire gid =
      if g0.ended ∨ g0.failed then some (s2.endChain g 3 0)
      else if g0.link = 0 then some (s2.endChain g 2 0)
      else match s2.readLaunch g0.lr.part g0.link (some g0.lr.pri) with
        | .error rsn => some (s2.endChain g 4 rsn)
        | .ok l =>
          let child := { gridOf s2.nextId g0.queue g0.qea g0.irq g0.priv l with
            rq := g0.rq, chain := (g0.lr.sla, g0.lr.sln) :: g0.chain, chn := g0.chn + 1, disc := g.disc }
          some { s2 with
            nextId := s2.nextId + 1, grids := s2.grids.map (fun y => if y.gid = gid then child else y),
            ready := s2.ready.map (fun l => l.map (fun k => if k = gid then child.gid else k)) } := by
  simp only [State.gridRetire, hg, ho, Bool.true_eq_false, if_false]
  rfl

theorem State.gridRetire_failed (h : g0.ended = true ∨ g0.failed = true) :
    s.gridRetire gid = some ((s.gridLeft gid g0).endChain { g0 with disc := g0.disc + s.wqCount gid } 3 0) := by
  have h3 : g0.ended = true ∨ g0.failed = true ∨ g0.link = 0 := h.imp_right .inl
  simp only [State.gridRetire_over hg ho, if_pos h, if_pos h3]

theorem State.gridRetire_last (he : g0.ended = false) (hf : g0.failed = false) (hl : g0.link = 0) :
    s.gridRetire gid = some ((s.gridLeft gid g0).endChain { g0 with disc := g0.disc + s.wqCount gid } 2 0) := by
  simp [State.gridRetire_over hg ho, he, hf, hl]

/-- The child's launch record does not read. -/
theorem State.gridRetire_unread {rsn : Nat} (he : g0.ended = false) (hf : g0.failed = false) (hl : g0.link ≠ 0) :
    let s2 := (s.gridLeft gid g0).recallLaunch g0.lr.part g0.link
    s2.readLaunch g0.lr.part g0.link (some g0.lr.pri) = .error rsn →
      s.gridRetire gid = some (s2.endChain { g0 with disc := g0.disc + s.wqCount gid } 4 rsn) := by
  intro s2 hr
  simp [State.gridRetire_over hg ho, he, hf, hl, s2, hr]

/-- It reads, and the child takes the grid's place. -/
theorem State.gridRetire_linked {l : Launch} (he : g0.ended = false) (hf : g0.failed = false) (hl : g0.link ≠ 0) :
    let s2 := (s.gridLeft gid g0).recallLaunch g0.lr.part g0.link
    let child := { gridOf s2.nextId g0.queue g0.qea g0.irq g0.priv l with
      rq := g0.rq, chain := (g0.lr.sla, g0.lr.sln) :: g0.chain, chn := g0.chn + 1, disc := g0.disc + s.wqCount gid }
    s2.readLaunch g0.lr.part g0.link (some g0.lr.pri) = .ok l → s.gridRetire gid = some { s2 with
      nextId := s2.nextId + 1, grids := s2.grids.map (fun y => if y.gid = gid then child else y),
      ready := s2.ready.map (fun l => l.map (fun k => if k = gid then child.gid else k)) } := by
  intro s2 child hr
  simp [State.gridRetire_over hg ho, he, hf, hl, s2, child, hr]

end

/-! ## CORE_GRANT_DECISION (R316) -/

/-- The core that is being emptied for a partition. -/
def State.promisedCore (s : State) : Option Nat := (List.range s.cores.length).find? (fun c => (s.core c).promised.isSome)

/-- The partitions that want a core. -/
def State.wanting (s : State) : List Nat := (List.range 16).filter (fun p => (s.wish p).isSome)

/-- The partition furthest under its guarantee that wants a core. -/
def State.poorest (s : State) : Option Nat :=
  firstUnder (fun a b => decide ((s.heldCores a).length * (s.part b).guar < (s.heldCores b).length * (s.part a).guar))
    (s.wanting.filter (fun p => decide ((s.heldCores p).length < (s.part p).guar)))

/-- The partition furthest above its guarantee. -/
def State.richest (s : State) : Option Nat :=
  let above := fun (p : Nat) => (s.heldCores p).length - (s.part p).guar
  firstUnder (fun a b => decide (above a > above b) || (decide (above a = above b) && decide (b < a)))
    ((List.range 16).filter (fun q => decide ((s.part q).guar < (s.heldCores q).length)))

/-- The emptiest core of a partition. -/
def State.emptiest (s : State) (q : Nat) : Option Nat :=
  firstUnder (fun a b => let la := (s.residents a).length
    let lb := (s.residents b).length
    decide (la < lb) || (decide (la = lb) && decide (b < a))) (s.heldCores q)

/-- The partition of the highest priority that wants a core. -/
def State.foremost (s : State) : Option Nat :=
  let pri := fun (p : Nat) => ((s.wish p).map (fun w => w.1)).getD 4
  firstUnder (fun a b => decide (pri a < pri b) || (decide (pri a = pri b) && decide ((s.heldCores a).length < (s.heldCores b).length))) s.wanting

theorem State.coreGrant_promised {c p : Nat} (hc : s.promisedCore = some c) (hp : (s.core c).promised = some p) (hh : (s.core c).holder = none) :
    s.coreGrant = some (s.grantTaken c p) := by
  simp only [State.promisedCore] at hc
  simp only [State.coreGrant, hc, hh, hp, Option.isSome_none, Bool.false_eq_true, if_false, Option.getD_some]

theorem State.coreGrant_next (hc : s.promisedCore = none) : s.coreGrant = s.grantNext := by
  simp only [State.promisedCore] at hc
  simp only [State.coreGrant, hc]

theorem State.grantNext_free {p c : Nat} {w : Nat × Grid × Option Cand} (hp : s.poorest = some p) (hf : s.freeCore = some c) (hw : s.wish p = some w) :
    s.grantNext = some (s.giveCore p c w) := by
  simp only [State.poorest, State.wanting] at hp
  simp only [State.grantNext, hp, hf, hw, Option.map_some]

theorem State.grantNext_taken {p q c : Nat} (hp : s.poorest = some p) (hf : s.freeCore = none) (hq : s.richest = some q) (hc : s.emptiest q = some c) :
    s.grantNext = some (s.takeCore q p c) := by
  simp only [State.poorest, State.wanting] at hp
  simp only [State.richest] at hq
  simp only [State.emptiest] at hc
  simp only [State.grantNext, hp, hf, hq, hc]

theorem State.grantNext_foremost {p c : Nat} {w : Nat × Grid × Option Cand} (hn : s.poorest = none) (hf : s.freeCore = some c)
    (hp : s.foremost = some p) (hw : s.wish p = some w) : s.grantNext = some (s.giveCore p c w) := by
  simp only [State.poorest, State.wanting] at hn
  simp only [State.foremost, State.wanting] at hp
  simp only [State.grantNext, hn, hf, hp, hw, Option.map_some]

/-! ## BLOCK_STOP and BLOCK_SAVE (R332, R334) -/

theorem State.blockStopStep_drained {bid core : Nat} (hl : (s.blk bid).loc = .resident core) (hs : (s.blk bid).stop ≠ none) (hb : (s.blk bid).bar = 0)
    (he : s.settled (s.blk bid) = true) (hd : s.drained (s.blk bid) = true) :
    let s1 := (match (s.blk bid).stop.bind (fun st => st.trap) with
      | some t => s.consume bid t
      | none => s).l1FlushAll core
    s.blockStopStep bid = some (s1.modBlk bid (fun b => { b with bar := s1.nextId })) := by
  have hn : (s.blk bid).stop.isNone = false := by simpa [Option.isSome_iff_ne_none] using hs
  simp only [State.blockStopStep, hl, hn, hb, he, hd, bne_self_eq_false, Bool.or_self, Bool.true_eq_false, decide_false, Bool.false_eq_true, if_false] <;> rfl

theorem State.blockSave_drained {bid core : Nat} {st : Stop} (hl : (s.blk bid).loc = .resident core) (hs : (s.blk bid).stop = some st)
    (hb : (s.blk bid).bar ≠ 0) (hd : s.drained (s.blk bid) = true) (hf : s.flushed core (s.blk bid).bar = true) :
    let s1 := (s.dropExtents bid).dropPv bid core
    let s2 := { s1.saveSubs bid with
      cmds := (s1.saveSubs bid).cmds.map (EngCmd.requeued bid)
      cores := (s1.saveSubs bid).cores.map (fun (c : Core) => (c.withoutPins ((s.blk bid).loomQ.map (fun (o : LoomOp) => o.id))).withoutGangs bid) }
    let s3 := s2.modBlk bid (fun b => { b with
      loc := .saved, loomQ := b.loomQ.map LoomOp.requeued, resume := decide (st.state = 1), frState := st.state, bar := 0
      gangs := s.gangsOf (s.blk bid) core, wdog := s2.refTime - b.wdog })
    s.blockSave bid = some (if (s.grid (s.blk bid).gid).ended then s1.removeBlock bid else (s3.writeFrame (s3.blk bid) st.state).freeCores) := by
  have hc : ¬((s.blk bid).bar = 0 ∨ s.drained (s.blk bid) = false ∨ s.flushed core (s.blk bid).bar = false) := by simp [hb, hd, hf]
  simp only [State.blockSave, hl, hs, if_neg hc]
  split <;> rfl

/-! ## TRAP_RECORD_WRITE (R338) -/

theorem State.recWrite_log {n : Nat} {r : TrapRec} (hr : s.recs[n]? = some r) (hd : s.recReady n r = true) (hl : r.logged = false)
    (hp : s.host.pwrfail = false) :
    s.recWrite n = some { s.commitFirst r 17 with recs := updAt (fun y => { y with logged := true }) n s.recs } := by
  simp only [State.recWrite, hr, hd, hl, hp, Bool.true_eq_false, Bool.false_eq_true, if_false, if_true]

theorem State.recWrite_ring {n : Nat} {r : TrapRec} {s1 : State} (hr : s.recs[n]? = some r) (hd : s.recReady n r = true) (hl : r.logged = true)
    (hv : r.device = false) (hf : ((s.recRing r).tail + 2 ^ 32 - (s.recRing r).head) % 2 ^ 32 ≠ (s.recRing r).size)
    (hw : s.writeVirt r.part ((s.recRing r).base + 128 * ((s.recRing r).tail % max 1 (s.recRing r).size)) (recordBytes r) = .ok s1) :
    s.recWrite n = some ({ s1.modRecRing r (fun k => { k with tail := (k.tail + 1) % 2 ^ 32 }) with recs := s1.recs.eraseIdx n }.raiseMsi
      (r.part + 1) (s.recRing r).vec) := by
  simp only [State.recWrite, hr, hd, hl, hv, hw, if_neg hf, Bool.true_eq_false, Bool.false_eq_true, if_false]

/-! ## WATCHDOG_EXPIRY (R341) -/

theorem State.watchdog_idle {bid core i : Nat} (hl : (s.blk bid).loc = .resident core)
    (hi : (s.blk bid).slices.findIdx? (fun sl => !sl.ended) = some i) (hs : (s.blk bid).stop = none) (hn : s.wdogLim ≠ 0)
    (ht : s.wdogLim.toNat ≤ s.idleTime (s.blk bid)) :
    let at_ := s.standsAt core (s.blk bid).part ((s.blk bid).sl i)
    s.watchdog bid = some (s.takeTrap bid
      { cause := .watchdog, kind := 2, slc := i, pc := at_.1, tpc := at_.1, word := at_.2, info := wordOpc at_.2, info2 := s.idleTime (s.blk bid) }) := by
  have hc : ¬((decide (s.mayTrap bid = false) || decide (s.wdogLim = 0) || decide (s.idleTime (s.blk bid) < s.wdogLim.toNat)) = true) := by
    simpa [State.mayTrap_of_running hs, ht] using hn
  simp only [State.watchdog, hl, hi, if_neg hc]
  rfl

end Sys2Proof.Machine

open Sys2Proof Sys2Proof.Machine in
/-- Settles O17: under the conditions named, the step of each event is the branch that they choose. -/
theorem foremanEventsComplete : Obligations.ForemanEventsComplete := by
  unfold Obligations.ForemanEventsComplete
  refine ⟨?_, ?_, ?_, ?_, ?_, ?_, ?_, ?_, ?_, ?_, ?_, ?_, ?_⟩
  case refine_1 =>
    intro core sec n s x y g hv hx hn hy hg hf
    refine next_getD (o := s.visitSlot core sec) ?_
    simp only [State.visitSlot, hv, hx, hf, hn, hy, hg, Bool.true_eq_false, if_false]
  case refine_2 =>
    intro core sec s x hv hx hn hg s1
    have hocc : x.slots.any (fun y => !y.gangs.isEmpty) = true := by simpa [List.any_eq_true] using hg
    have hp : (!x.spent && x.passed) = true ↔ x.spent = false ∧ x.passed = true := by simp
    refine next_getD (o := s.endRotation core sec) ?_
    simp only [State.endRotation, hv, hx, hn, hocc, Option.isSome_none, Bool.not_true, Bool.or_self, Bool.false_eq_true, if_false, hp]
    rfl
  case refine_3 =>
    intro q s e r qea s0 hq hz hr hb he lra s1 irq
    have h := State.queueAccept_read hq hz hr hb he
    have hs1 : s.entryTaken q qea e = s1 := rfl
    refine ⟨fun l hl => next_getD (h.trans ?_), fun rsn hl => next_getD (h.trans ?_)⟩
    · rw [hs1, hl]
    · rw [hs1, hl]
  case refine_4 =>
    intro s held guar want poorest promised
    refine ⟨fun c p hc hp hh => ?_, fun p c w hc hp hf hw => ?_, fun p q c hc hp hf hq he => ?_, fun p c w hc hp hf hq hw => ?_⟩
    · have h := State.coreGrant_promised hc hp hh
      exact ⟨fun w hw => next_getD (h.trans (by simp only [State.grantTaken, hw])), fun hw => next_getD (h.trans (by simp only [State.grantTaken, hw]))⟩
    · exact next_getD ((State.coreGrant_next hc).trans (State.grantNext_free hp hf hw))
    · exact next_getD ((State.coreGrant_next hc).trans (State.grantNext_taken hp hf hq he))
    · exact next_getD ((State.coreGrant_next hc).trans (State.grantNext_foremost hp hf hq hw))
  case refine_5 =>
    intro rq s g hg hd hs he hc
    refine next_getD (o := s.detStart rq) ?_
    simp [State.detStart, hg, hd, hs, he, hc]
  case refine_6 =>
    intro p n core cfa s g hp s1 hf
    refine next_getD (o := s.blockAdmit p) ?_
    simp only [State.blockAdmit, hp, State.placeCand]
    rw [hf]
  case refine_7 =>
    intro bid core s g hp
    refine next_getD (o := s.blockRestore bid core) ?_
    simp only [State.blockRestore, hp, and_self, if_true, State.placeCand]
  case refine_8 =>
    exact fun bid core s hl hd => ⟨fun hb => next_getD (State.blockRetire_writesBack hl hd hb),
      fun hb hf => next_getD (State.blockRetire_removes hl hd hb hf)⟩
  case refine_9 =>
    intro gid s g0 hg ho g s1 link
    exact ⟨fun h => next_getD (State.gridRetire_failed hg ho h), fun he hf hl => next_getD (State.gridRetire_last hg ho he hf hl),
      fun rsn he hf hl hr => next_getD (State.gridRetire_unread hg ho he hf hl hr),
      fun l he hf hl hr => next_getD (State.gridRetire_linked hg ho he hf hl hr)⟩
  case refine_10 =>
    exact fun bid core s hl hs hb he hd => next_getD (State.blockStopStep_drained hl hs hb he hd)
  case refine_11 =>
    intro bid core s st b hl hs hb hd hf
    have h := State.blockSave_drained hl hs hb hd hf
    exact ⟨fun he => next_getD (h.trans (by rw [if_pos he])), fun he => next_getD (h.trans (by rw [if_neg (by rw [he]; exact Bool.false_ne_true)]))⟩
  case refine_12 =>
    exact fun n s r hr hd => ⟨fun hl hp => next_getD (State.recWrite_log hr hd hl hp),
      fun s1 hl hv hf hw => next_getD (State.recWrite_ring hr hd hl hv hf hw)⟩
  case refine_13 =>
    exact fun bid core i s hl hi hs hn ht => next_getD (State.watchdog_idle hl hi hs hn ht)
end

section
/-! SUPPORT. A counterexample to the statement that an issue stores nothing: the walk of an access recalls the partials of the lines it reads (R367), their
fold at the L3 home takes a line of a full L3 slice, and the dirty line that makes room for it is written to LPDDR6 (R293; log entry 76). The accessed
bit of a leaf is set by the same write. -/

namespace Sys2Proof.Machine

/-! ## A line taken in a full slice of the L3 -/

theorem State.forgetWo_mem (s : State) (line kid : Nat) : (s.forgetWo line kid).mem = s.mem := by
  simp only [State.forgetWo]
  split <;> rfl

theorem State.setMemLine_mem (s : State) (line kid : Nat) (d : LineData) (p : Pois) :
    (s.setMemLine line kid d p).mem = mputs 0 s.mem (128 * line) (lineSlice d 0 128) := by
  simp only [State.setMemLine]

/-- A dirty line that leaves the L3 is written to memory. -/
theorem State.evictL3_mem {s : State} {x : L3Line} {line kid : Nat} (hf : s.l3Find line kid = some x) (hd : x.dirty = true) :
    (s.evictL3 line kid).mem = mputs 0 s.mem (128 * line) (lineSlice x.data 0 128) := by
  simp only [State.evictL3, hf, hd, if_true, State.forgetWo_mem]
  exact State.setMemLine_mem ..

section
variable {s : State} {y : L3Line} {n : Nat} (hl : s.l3 = List.replicate n y) (hn : 98304 ≤ n)
include hl

include hn in
theorem State.l3Find_crowd : s.l3Find y.line y.kid = some y := by
  have h0 : n ≠ 0 := by omega
  simp [State.l3Find, hl, h0]

theorem State.l3Find_outside {line kid : Nat} (h : y.line ≠ line) : s.l3Find line kid = none := by
  simp [State.l3Find, hl, h]

include hn in
/-- The crowd's line is written to memory and leaves the L3. -/
theorem State.l3Room_crowd {line : Nat} (hd : y.dirty = true) (hh : homeIdx (128 * y.line) = homeIdx (128 * line)) :
    (s.l3Room line).mem = mputs 0 s.mem (128 * y.line) (lineSlice y.data 0 128) := by
  have hmine : s.l3.filter (fun z => homeIdx (128 * z.line) == homeIdx (128 * line)) = List.replicate n y := by
    rw [hl, List.filter_replicate, if_pos (by simp [hh])]
  have hlen : s.l3.length = n := by rw [hl, List.length_replicate]
  have hlast : (List.replicate n y).getLast? = some y := by
    have h0 : n ≠ 0 := by omega
    simp [List.getLast?_replicate, h0]
  simp only [State.l3Room, hmine, hlast, hlen, List.length_replicate, if_neg (Nat.not_lt.2 hn)]
  exact State.evictL3_mem (State.l3Find_crowd hl hn) hd

include hn in
theorem State.setL3_crowd {x : L3Line} (hd : y.dirty = true) (hx : y.line ≠ x.line) (hh : homeIdx (128 * y.line) = homeIdx (128 * x.line)) :
    (s.setL3 x).mem = mputs 0 s.mem (128 * y.line) (lineSlice y.data 0 128) := by
  have hf : ({ s with free := s.free + 1 } : State).l3Find x.line x.kid = none := State.l3Find_outside (s := { s with free := s.free + 1 }) hl hx
  simp only [State.setL3, hf, Option.isSome_none, Bool.false_eq_true, if_false]
  exact State.l3Room_crowd (s := { s with free := s.free + 1 }) hl hn hd hh

end

theorem State.takePins_none {s : State} (h : ∀ c, (s.core c).pins = []) (line kid : Nat) : s.takePins line kid = s := by
  simp only [State.takePins]
  induction List.range s.cores.length with
  | nil => rfl
  | cons c l ih => simpa [h c] using ih

theorem State.collect_none {s : State} (h : s.l2 = []) (line kid : Nat) : s.collect line kid = s := by simp [State.collect, h]

theorem State.sweepWo_mem (s : State) (line kid : Nat) : (s.sweepWo line kid).mem = s.mem := by
  simp only [State.sweepWo, State.dropWo]
  split
  · rfl
  · split <;> rfl

/-- The state that a write at the home leaves, but for what stands in the caches, memory and the written bits. -/
def State.storesAside (s : State) : State :=
  { s with l3 := [], mem := [], memKey := [], poison := [], wo := [], free := 0 }

theorem State.storesAside_setMemLine (s : State) (line kid : Nat) (d : LineData) (q : Pois) :
    (s.setMemLine line kid d q).storesAside = s.storesAside := by simp only [State.setMemLine, State.storesAside]

theorem State.storesAside_forgetWo (s : State) (line kid : Nat) : (s.forgetWo line kid).storesAside = s.storesAside := by
  simp only [State.forgetWo]
  split <;> rfl

theorem State.storesAside_withL3 (s : State) (l : List L3Line) : ({ s with l3 := l } : State).storesAside = s.storesAside := rfl

theorem State.storesAside_evictL3 (s : State) (line kid : Nat) : (s.evictL3 line kid).storesAside = s.storesAside := by
  simp only [State.evictL3]
  split
  · rfl
  · rw [State.storesAside_forgetWo, State.storesAside_withL3]
    split
    · exact State.storesAside_setMemLine ..
    · rfl

theorem State.storesAside_setL3 (s : State) (x : L3Line) : (s.setL3 x).storesAside = s.storesAside := by
  simp only [State.setL3]
  split
  · rfl
  · simp only [State.l3Room]
    split
    · rfl
    · split
      · split
        · rfl
        · exact State.storesAside_evictL3 { s with free := s.free + 1 } _ _
      · rfl

theorem State.storesAside_sweepWo (s : State) (line kid : Nat) : (s.sweepWo line kid).storesAside = s.storesAside := by
  simp only [State.sweepWo, State.dropWo]
  split
  · rfl
  · split <;> rfl

/-- A write at the home of a line that no Loom operation and no L2 holds. -/
theorem State.homeWriteLine_crowd {s : State} {y : L3Line} {n line : Nat} (hl : s.l3 = List.replicate n y) (hn : 98304 ≤ n) (hd : y.dirty = true)
    (hx : y.line ≠ line) (hh : homeIdx (128 * y.line) = homeIdx (128 * line)) (hr : isRemote (128 * line) = false) (hp : ∀ c, (s.core c).pins = [])
    (h2 : s.l2 = []) (kid : Nat) (m : LineMask) (d : LineData) (pm : LineMask) :
    (s.homeWriteLine line kid m d pm).mem = mputs 0 s.mem (128 * y.line) (lineSlice y.data 0 128) ∧
      (s.homeWriteLine line kid m d pm).storesAside = s.storesAside := by
  have hnone : s.l3Find line kid = none := State.l3Find_outside hl hx
  simp only [State.homeWriteLine, hr, Bool.false_eq_true, if_false, State.takePins_none hp, State.collect_none h2, State.l3Line, hnone, Option.getD_none,
    State.sweepWo_mem, State.storesAside_sweepWo, State.storesAside_setL3, and_true]
  exact State.setL3_crowd hl hn hd hx hh

/-! ## A walk that recalls a poisoned partial -/

/-- A partial of the line at address 0 whose payload was poisoned on its way. -/
def PartLine.spoiled : PartLine := { id := 0, sl := 0, line := 0, kid := 0, els := [], last := 0, bad := true }

theorem State.recallSpan_none {s : State} (h1 : s.partials = []) (h2 : s.partQ = []) (pa n : Nat) : s.recallSpan pa n = s := by
  simp [State.recallSpan, h1, h2]

theorem State.recallWalk_none {s : State} (h1 : s.partials = []) (h2 : s.partQ = []) (va level table : Nat) : s.recallWalk va level table = s := by
  cases level <;> simp [State.recallWalk, h1, h2]

theorem State.recallSpan_spoiled {s : State} (h1 : s.partials = [.spoiled]) (h2 : s.partQ = []) :
    s.recallSpan 0 8 = State.homeWriteLine { s with partials := [] } 0 0 0 (State.devLine { s with partials := [] } 0 0).1 0 := by
  simp [State.recallSpan, State.recallLine, State.foldLine, h1, h2, PartLine.spoiled]

/-- What the walk's recall leaves: the spoiled line is at the home, and its partial is gone. -/
def State.recalled (s : State) : State :=
  State.homeWriteLine { s with partials := [] } 0 0 0 (State.devLine { s with partials := [] } 0 0).1 0

theorem State.recallWalk_spoiled {s : State} (h1 : s.partials = [.spoiled]) (h2 : s.partQ = []) (h3 : s.recalled.partials = [])
    (h4 : s.recalled.partQ = []) : s.recallWalk 0 3 0 = s.recalled := by
  have hs : s.recallSpan 0 8 = s.recalled := State.recallSpan_spoiled h1 h2
  have hi : bitsOf 0 (24 + 9 * 3) (16 + 9 * 3) = 0 := by decide
  rw [State.recallWalk]
  simp only [h1, List.cons_append, List.isEmpty_cons, Bool.false_eq_true, if_false, hi, Nat.mul_zero, Nat.add_zero, hs, State.recallSpan_none h3 h4,
    State.recallWalk_none h3 h4, ite_self]

/-- A walk whose first entry the walker holds as invalid stops at an absent page. -/
theorem State.walk_absent {s : State} {part : Nat} (h1 : s.partials = []) (h2 : s.partQ = []) (hr : s.root part = 0)
    (hw : s.walkCache.lookup 0 = some 0) :
    s.walk part 0 false = .error { cause := .pageAbsent, ea := 0, held := false, info := walkStatus 3 1 } := by
  have hi : bitsOf 0 (24 + 9 * 3) (16 + 9 * 3) = 0 := by decide
  have hf : s.walkFrom 0 3 0 = .error { level := 3, reason := 1 } := by
    rw [State.walkFrom]
    simp [hi, State.readPte, hw, bitOf]
  simp [State.walk, hr, State.recallWalk_none h1 h2, hf]

theorem State.putExtent_mem {s : State} {bid : Nat} (h : (s.blk bid).extents = []) (e : Extent) : (s.putExtent bid e).mem = s.mem := by
  simp [State.putExtent, h]

/-- A state in which an access of block `bid` to address 0 walks: the walk recalls the spoiled partial behind a full L3 slice and ends at an absent page. -/
structure State.Crowded (s : State) (bid : Nat) (y : L3Line) : Prop where
  l3 : ∃ n, 98304 ≤ n ∧ s.l3 = List.replicate n y
  dirty : y.dirty = true
  other : y.line ≠ 0
  home : homeIdx (128 * y.line) = homeIdx 0
  l2 : s.l2 = []
  pins : ∀ c, (s.core c).pins = []
  partials : s.partials = [.spoiled]
  partQ : s.partQ = []
  extents : (s.blk bid).extents = []
  root : s.root (s.blk bid).part = 0
  cache : s.walkCache.lookup 0 = some 0
  ranges : (s.launch bid).ranges = [{ vb := 0, len := 65536, rd := true, w := true, attr := .rc }]

variable {s : State} {bid : Nat} {y : L3Line}

theorem State.Crowded.recalled (h : s.Crowded bid y) : s.recalled.mem = mputs 0 s.mem (128 * y.line) (lineSlice y.data 0 128) ∧
    s.recalled.storesAside = State.storesAside { s with partials := [] } := by
  obtain ⟨n, hn, hl⟩ := h.l3
  exact State.homeWriteLine_crowd (s := { s with partials := [] }) hl hn h.dirty h.other h.home rfl h.pins h.l2 _ _ _ _

/-- The recall leaves the blocks, the tables' roots and the walker's cache, and no partial. -/
theorem State.Crowded.recalled_fields (h : s.Crowded bid y) : s.recalled.partials = [] ∧ s.recalled.partQ = [] ∧ s.recalled.blocks = s.blocks ∧
    s.recalled.parts = s.parts ∧ s.recalled.walkCache = s.walkCache := by
  obtain ⟨-, ha⟩ := h.recalled
  have hp := congrArg State.partials ha
  have hq := congrArg State.partQ ha
  have hb := congrArg State.blocks ha
  have hr := congrArg State.parts ha
  have hw := congrArg State.walkCache ha
  exact ⟨hp, hq.trans h.partQ, hb, hr, hw⟩

theorem State.Crowded.recallWalk (h : s.Crowded bid y) : s.recallWalk 0 3 0 = s.recalled := by
  obtain ⟨hp, hq, -⟩ := h.recalled_fields
  exact State.recallWalk_spoiled h.partials h.partQ hp hq

theorem State.Crowded.fill (h : s.Crowded bid y) (hid : (s.blk bid).bid = bid) (r : RangeRec) : ∃ u f, s.fill (s.blk bid) 0 0 r = (u, .error f) ∧
    f.cause = .pageAbsent ∧ f.held = false ∧ u.mem = s.recalled.mem := by
  obtain ⟨hp, hq, hb, hr, hw⟩ := h.recalled_fields
  have hwalk : s.recalled.walk (s.blk bid).part 0 false = .error { cause := .pageAbsent, ea := 0, held := false, info := walkStatus 3 1 } := by
    refine State.walk_absent hp hq ?_ (hw ▸ h.cache)
    simpa only [State.root, hr] using h.root
  have he : (s.blk bid).extent 0 0 = none := by simp [Block.extent, h.extents]
  have hx : (s.recalled.blk bid).extents = [] := by simpa only [State.blk, hb] using h.extents
  simp only [State.fill, Nat.mul_zero, h.root, h.recallWalk, hwalk, he, Option.isSome_none, Bool.false_eq_true, if_false, if_true, hid]
  exact ⟨_, _, rfl, rfl, rfl, State.putExtent_mem hx _⟩

theorem State.Crowded.checkAccess (h : s.Crowded bid y) (hid : (s.blk bid).bid = bid) (det : Attr → Bool) : ∃ u f,
    s.checkAccess bid 0 4 4 true false (.access none false) det = (u, .error f) ∧ u.mem = s.recalled.mem := by
  obtain ⟨u, f, hf, -, -, hm⟩ := h.fill hid { vb := 0, len := 65536, rd := true, w := true, attr := .rc }
  have he : (s.blk bid).extent 0 0 = none := by simp [Block.extent, h.extents]
  have hseg : segsOf [{ vb := 0, len := 65536, rd := true, w := true, attr := .rc }] 0 4 = [{ va := 0, n := 4, rix := some 0 }] := by decide
  have hrf : s.rangeFailure bid true false [{ va := 0, n := 4, rix := some 0 }] = none := by
    simp [State.rangeFailure, h.ranges, Machine.rangeFailure]
  have ht : s.translate bid 0 0 { vb := 0, len := 65536, rd := true, w := true, attr := .rc } = (u, .error f) := by
    simp only [State.translate, he, hf]
  simp [State.checkAccess, State.checkSpan, h.ranges, hseg, hrf, State.translateSegs, ht, hm]

/-- The prefetch of address 0 is dropped, behind the recall. -/
theorem State.Crowded.prefetches {x : Ctx} (h : s.Crowded x.bid y) (hid : (s.blk x.bid).bid = x.bid) :
    ∃ u, x.prefetches s [wantOf 0 0 0 4 0 []] = (u, []) ∧ u.mem = s.recalled.mem := by
  obtain ⟨u, f, hf, hm⟩ := h.checkAccess hid (fun _ => false)
  refine ⟨u, ?_, hm⟩
  simp only [Ctx.prefetches, wantOf, hf]

theorem State.Quiet.mem {g : Slice → Slice} {l : List Nat} {s t : State} (h : Quiet bid g l s t) : t.mem = s.mem := by
  have hm := congrArg State.mem h.bare
  exact hm

/-- What follows the checks of a PREF changes no memory. -/
theorem Ctx.prefBegin_mem (x : Ctx) (s : State) (l : List (Want × List Piece)) : (x.prefBegin s l).mem = s.mem := by
  simp only [Ctx.prefBegin, Ctx.startOps]
  exact Laws.foldl_keeps (fun (t : State) => t.mem = s.mem) _ _ _ rfl (fun t ht i _ => ht)

theorem State.closed_mem {key : Nat} {f : Fields} {v : Visit} {s s2 : State} : (s.closed key f v s2).mem = s2.mem := by
  let x := Ctx.make key f v s
  have hd : Quiet v.bid Slice.settled [] s2 (x.deferPoison (s.opened key f v) s2) := x.deferPoison_quiet _ (.inr (fun _ _ => rfl))
  have ha : Quiet v.bid Slice.still v.slices (x.deferPoison (s.opened key f v) s2)
    ((x.deferPoison (s.opened key f v) s2).forSlices v.bid v.slices (fun _ sl => sl.advance)) := .served
  exact (x.finish_quiet (l := []) _ _).mem.trans (ha.mem.trans hd.mem)

/-! ## The state -/

/-- A dirty line whose home slice is that of address 0. -/
def L3Line.dirtyOne : L3Line := { line := 17, kid := 0, data := 1, dirty := true, poison := Pois.none }

/-- A placed program on a device whose L3 slice 0 is full, with the line at address 0 due from a reduction unit. -/
def State.crowd (n : Nat) : State :=
  { State.reset with
    blocks := [Block.placed], visit := some Visit.placed, l3 := List.replicate n .dirtyOne, partials := [.spoiled], walkCache := [(0, 0)]
    grids := [{ Grid.blank with lr := { Launch.blank with ranges := [{ vb := 0, len := 65536, rd := true, w := true, attr := .rc }] } }] }

/-- PREF of address 0. -/
def prefZero : FormR :=
  { ty := .b32, md := 0, gp := 7, gn := false, dist := 0, setf := 15, yld := false, od := .none, oa := .uni 0 .w 0, ob := .none, wm := 0 }

theorem State.crowded_crowd {n : Nat} (hn : 98304 ≤ n) : ((State.crowd n).opened 0x114 (.r prefZero) .placed).Crowded 0 .dirtyOne where
  l3 := ⟨n, hn, rfl⟩
  dirty := rfl
  other := by decide
  home := by decide
  l2 := rfl
  pins c := by
    have hc : ((State.crowd n).opened 0x114 (.r prefZero) .placed).cores = List.replicate 32 Core.reset := rfl
    rw [State.core, hc, List.getElem?_replicate]
    split <;> rfl
  partials := rfl
  partQ := rfl
  extents := rfl
  root := rfl
  cache := rfl
  ranges := rfl

theorem State.issues_crowd (n : Nat) : Issues 0x114 (.r prefZero) .placed (State.crowd n) where
  visit := rfl
  noDeferred := rfl
  allowed h := absurd h (by simp [Ctx.privileged, Ctx.make, keyIn, prefZero, Fields.oa, Fields.ob, readsPrivileged])
  inRange i hi := by
    obtain rfl := List.mem_singleton.1 hi
    rfl
  noTimer := rfl

theorem Ctx.wants_crowd : let x := Ctx.make 0x114 (.r prefZero) .placed (State.crowd 98304)
    let s1 := (State.crowd 98304).opened 0x114 (.r prefZero) .placed
    x.wants s1 (fun i t => wantOf i t (x.ea s1 i t) 4 0 []) = [wantOf 0 0 0 4 0 []] := by
  decide +kernel

/-- The prefetch is answered, and memory holds what the crowded slice gave up. -/
theorem exec_prefZero : ∃ t, exec (.pref prefZero) (State.crowd 98304) = .next t ∧ t.mem = mputs 0 [] (128 * 17) (lineSlice 1 0 128) := by
  let s := State.crowd 98304
  let x := Ctx.make 0x114 (.r prefZero) .placed s
  let s1 := s.opened 0x114 (.r prefZero) .placed
  have hc : s1.Crowded x.bid .dirtyOne := State.crowded_crowd (Nat.le_refl _)
  obtain ⟨u, hu, hm⟩ := hc.prefetches rfl
  have hchk : x.prefCheck s1 s1 = (u, .ok []) := by
    have hw : x.wants s1 (fun i t => wantOf i t (x.ea s1 i t) 4 0 []) = [wantOf 0 0 0 4 0 []] := Ctx.wants_crowd
    simp only [Ctx.prefCheck, hw, hu]
  refine ⟨_, issueVia_next (State.issues_crowd _) hchk, ?_⟩
  rw [State.closed_mem, Ctx.prefBegin_mem, hm, hc.recalled.1]
  rfl

end Sys2Proof.Machine

open Sys2Proof Sys2Proof.Machine in
/-- Refutes O59: PREF of address 0, whose walk recalls a spoiled partial of the line of its first table entry. The fold takes that line in a full slice of
the L3, and the dirty line 17 that makes room is written to LPDDR6: byte 2,176 reads 1 after the issue and 0 before it. -/
theorem not_anIssueStoresNothing : ¬Obligations.AnIssueStoresNothing := by
  unfold Obligations.AnIssueStoresNothing
  intro h
  obtain ⟨t, ht, hm⟩ := exec_prefZero
  obtain ⟨hmem, -⟩ := h _ _ _ _ _ _ rfl rfl ht
  have hbyte : mputs 0 [] (128 * 17) (lineSlice 1 0 128) ≠ [] := by decide +kernel
  exact hbyte (hm.symm.trans hmem)
end

section
/-! SUPPORT. Operand fields: each operand is spelt by a kind, a NUM, a VIEW and a SEL, and reads back from them (R49 to R55). -/

namespace Sys2Proof
open BitVec (extractLsb'_append_extractLsb'_eq_extractLsb' extractLsb'_append_eq_of_le extractLsb'_append_eq_right)

/-! ## Codes -/

@[simp] theorem View.ofCode_code (v : View) : View.ofCode v.code = v := by cases v <;> rfl
@[simp] theorem View.code_ofCode : ∀ c : BitVec 2, (View.ofCode c).code = c := by decide
@[simp] theorem Ty.ofCode_code (t : Ty) : Ty.ofCode t.code = t := by cases t <;> rfl
@[simp] theorem Ty.code_ofCode : ∀ c : BitVec 4, (Ty.ofCode c).code = c := by decide

/-- The 16 bits of an operand field by its parts (R49). -/
def Opnd.word (kind : BitVec 3) (num : BitVec 8) (view : BitVec 2) (sel : BitVec 3) : BitVec 16 := kind ++ num ++ view ++ sel

section
variable (kind : BitVec 3) (num : BitVec 8) (view : BitVec 2) (sel : BitVec 3)

@[simp] theorem Opnd.word_sel : (Opnd.word kind num view sel).extractLsb' 0 3 = sel := extractLsb'_append_eq_right

@[simp] theorem Opnd.word_view : (Opnd.word kind num view sel).extractLsb' 3 2 = view :=
  (extractLsb'_append_eq_of_le (by decide)).trans extractLsb'_append_eq_right

@[simp] theorem Opnd.word_num : (Opnd.word kind num view sel).extractLsb' 5 8 = num :=
  (extractLsb'_append_eq_of_le (by decide)).trans ((extractLsb'_append_eq_of_le (by decide)).trans extractLsb'_append_eq_right)

@[simp] theorem Opnd.word_kind : (Opnd.word kind num view sel).extractLsb' 13 3 = kind :=
  (extractLsb'_append_eq_of_le (by decide)).trans ((extractLsb'_append_eq_of_le (by decide)).trans
    ((extractLsb'_append_eq_of_le (by decide)).trans BitVec.extractLsb'_eq_self))

end

/-- Every operand field has its parts. -/
theorem Opnd.exists_word (w : BitVec 16) : ∃ kind num view sel, w = Opnd.word kind num view sel := by
  refine ⟨w.extractLsb' 13 3, w.extractLsb' 5 8, w.extractLsb' 3 2, w.extractLsb' 0 3, ?_⟩
  simp only [Opnd.word]
  rw [extractLsb'_append_extractLsb'_eq_extractLsb' (by decide), extractLsb'_append_extractLsb'_eq_extractLsb' (by decide),
    extractLsb'_append_extractLsb'_eq_extractLsb' (by decide)]
  exact BitVec.extractLsb'_eq_self.symm

/-! ## Numbers of fewer bits than their field -/

theorem setWidth_extract {n w : Nat} {x : BitVec w} (h : x.toNat < 2 ^ n) : (x.extractLsb' 0 n).setWidth w = x := by
  refine BitVec.eq_of_toNat_eq ?_
  rw [BitVec.toNat_setWidth, BitVec.extractLsb'_toNat, Nat.shiftRight_zero, Nat.mod_eq_of_lt h, Nat.mod_eq_of_lt x.isLt]

theorem extract_setWidth {n w : Nat} (x : BitVec n) (h : n ≤ w) : (x.setWidth w).extractLsb' 0 n = x := by
  rw [BitVec.extractLsb'_setWidth_of_le (by omega), BitVec.extractLsb'_eq_self]

theorem toNat_setWidth_lt {n w : Nat} (x : BitVec n) : (x.setWidth w).toNat < 2 ^ n :=
  Nat.lt_of_le_of_lt (by rw [BitVec.toNat_setWidth]; exact Nat.mod_le _ _) x.isLt

/-! ## Operand fields -/

theorem Res.ofNum_num (r : Res) : Res.ofNum r.num = some r := by
  cases r with
  | q n => revert n; decide
  | tg n => revert n; decide
  | cb n => revert n; decide
  | fl n => revert n; decide

theorem Res.num_ofNum {n : BitVec 8} {r : Res} (hr : Res.ofNum n = some r) : r.num = n := by
  have h : ∀ n : BitVec 8, ∀ r ∈ Res.ofNum n, r.num = n := by decide +kernel
  exact h n r hr

/-! ## The parts that each operand is spelt by -/

theorem Opnd.encode_lane (num : BitVec 8) (view : View) (sel : BitVec 3) : (lane num view sel).encode = word 0 num view.code sel := rfl

theorem Opnd.encode_uni (num : BitVec 6) (view : View) (sel : BitVec 3) : (uni num view sel).encode = word 1 (num.setWidth 8) view.code sel := by
  rw [BitVec.setWidth_eq_append (by decide : 6 ≤ 8)]
  exact congrArg (fun x : BitVec 11 => x ++ view.code ++ sel) BitVec.append_assoc

theorem Opnd.encode_pred : ∀ (num : BitVec 3) (neg : Bool), (pred num neg).encode = word 2 (num.setWidth 8) 0 ((BitVec.ofBool neg).setWidth 3) := by
  decide

theorem Opnd.encode_sreg (num : BitVec 8) : (sreg num).encode = word 3 num 0 0 :=
  (BitVec.append_assoc (x₁ := 3#3 ++ num) (x₂ := 0#2) (x₃ := 0#3)).symm

theorem Opnd.encode_res (r : Res) : (res r).encode = word 5 r.num 0 0 :=
  (BitVec.append_assoc (x₁ := 5#3 ++ r.num) (x₂ := 0#2) (x₃ := 0#3)).symm

theorem Opnd.encode_tile : ∀ num : BitVec 3, (tile num).encode = word 6 (num.setWidth 8) 0 0 := by
  decide

/-- A short immediate takes the place of NUM, VIEW and SEL (R54). -/
theorem Opnd.encode_imm {w : BitVec 16} (h : w.extractLsb' 13 3 = 4) : (imm (w.extractLsb' 0 13)).encode = w := by
  have hw : w.extractLsb' 13 3 ++ w.extractLsb' 0 13 = w :=
    (extractLsb'_append_extractLsb'_eq_extractLsb' rfl).trans BitVec.extractLsb'_eq_self
  rw [h] at hw
  exact hw

theorem Opnd.encode_none : none.encode = word 7 0 0 0 := rfl

/-! ## Operand fields read back -/

theorem Opnd.decode_encode (o : Opnd) : Opnd.decode o.encode = some o := by
  cases o with
  | lane num view sel =>
    simp only [encode_lane, Opnd.decode, word_kind, word_num, word_view, word_sel, View.ofCode_code]
    rfl
  | uni num view sel =>
    have hlt : (num.setWidth 8).toNat < 64 := toNat_setWidth_lt num
    simp only [encode_uni, Opnd.decode, word_kind, word_num, word_view, word_sel, hlt, extract_setWidth num (by decide : 6 ≤ 8), View.ofCode_code]
    rfl
  | pred num neg =>
    revert num neg
    decide
  | sreg num =>
    simp only [encode_sreg, Opnd.decode, word_kind, word_num, word_view, word_sel]
    rfl
  | imm v =>
    have hkind : (imm v).encode.extractLsb' 13 3 = 4#3 := (extractLsb'_append_eq_of_le (by decide)).trans BitVec.extractLsb'_eq_self
    have hv : (imm v).encode.extractLsb' 0 13 = v := extractLsb'_append_eq_right
    simp only [Opnd.decode, hkind, hv]
    rfl
  | res r =>
    simp only [encode_res, Opnd.decode, word_kind, word_num, word_view, word_sel, Res.ofNum_num]
    rfl
  | tile num =>
    revert num
    decide
  | none => rfl

/-- SEL of a predicate is its negation (R49). -/
theorem ofBool_sel {sel : BitVec 3} (h : sel.toNat ≤ 1) : (BitVec.ofBool (decide (sel = 1))).setWidth 3 = sel := by
  revert sel
  decide

/-- A field that decodes is spelt by its operand: the values that R49 and R50 reserve are those that no operand spells. -/
theorem Opnd.encode_decode {w : BitVec 16} {o : Opnd} (h : Opnd.decode w = some o) : o.encode = w := by
  obtain ⟨kind, num, view, sel, rfl⟩ := Opnd.exists_word w
  simp only [Opnd.decode, word_kind, word_num, word_view, word_sel] at h
  split_ifs at h with h0 h1 hnum h2 hpred h4 hplain h3 h5 h6 hnum hzero
  · cases h
    rw [encode_lane, View.code_ofCode, h0]
  · cases h
    rw [encode_uni, View.code_ofCode, setWidth_extract hnum, h1]
  · obtain ⟨hnum, rfl, hsel⟩ := hpred
    cases h
    rw [encode_pred, setWidth_extract hnum, h2, ofBool_sel hsel]
  · cases h
    exact encode_imm ((word_kind kind num view sel).trans h4)
  · cases h
    push Not at hplain
    obtain ⟨rfl, rfl⟩ := hplain
    rw [encode_sreg, h3]
  · push Not at hplain
    obtain ⟨rfl, rfl⟩ := hplain
    obtain ⟨r, hr, rfl⟩ := Option.map_eq_some_iff.1 h
    rw [encode_res, Res.num_ofNum hr, h5]
  · cases h
    push Not at hplain
    obtain ⟨rfl, rfl⟩ := hplain
    rw [encode_tile, setWidth_extract hnum, h6]
  · cases h
    push Not at hplain
    obtain ⟨rfl, rfl⟩ := hplain
    have h7 : kind = 7 := by bv_omega
    rw [encode_none, hzero, h7]

end Sys2Proof
end

section
/-! SUPPORT. Instruction words: each field stands at its place, and the fields of a word spell it (R46). -/

namespace Sys2Proof
open BitVec (extractLsb'_append_extractLsb'_eq_extractLsb' extractLsb'_append_eq_of_le extractLsb'_append_eq_right extractLsb'_append_eq_of_add_le)

/-! ## Dword 0 -/

theorem ofBool_getLsbD {w : Nat} (x : BitVec w) (n : Nat) : BitVec.ofBool (x.getLsbD n) = x.extractLsb' n 1 := by
  have hbit : ∀ y : BitVec 1, BitVec.ofBool (y == 1#1) = y := by decide
  rw [BitVec.getLsbD_eq_extractLsb', hbit]

theorem getLsbD_of_extract {w n : Nat} {x : BitVec w} {b : Bool} (h : x.extractLsb' n 1 = BitVec.ofBool b) : x.getLsbD n = b :=
  BitVec.ofBool_eq_iff_eq.1 ((ofBool_getLsbD x n).trans h)

section
variable (c : Common) (opc : BitVec 9)

theorem Common.encode_ty : (c.encode opc).extractLsb' 9 4 = c.ty.code := by
  refine (extractLsb'_append_eq_of_le (by decide)).trans ?_
  exact extractLsb'_append_eq_right

theorem Common.encode_md : (c.encode opc).extractLsb' 13 6 = c.md := by
  iterate 2 refine (extractLsb'_append_eq_of_le (by decide)).trans ?_
  exact extractLsb'_append_eq_right

theorem Common.encode_gp : (c.encode opc).extractLsb' 19 3 = c.gp := by
  iterate 3 refine (extractLsb'_append_eq_of_le (by decide)).trans ?_
  exact extractLsb'_append_eq_right

theorem Common.encode_gn : (c.encode opc).extractLsb' 22 1 = BitVec.ofBool c.gn := by
  iterate 4 refine (extractLsb'_append_eq_of_le (by decide)).trans ?_
  exact extractLsb'_append_eq_right

theorem Common.encode_dist : (c.encode opc).extractLsb' 23 4 = c.dist := by
  iterate 5 refine (extractLsb'_append_eq_of_le (by decide)).trans ?_
  exact extractLsb'_append_eq_right

theorem Common.encode_setf : (c.encode opc).extractLsb' 27 4 = c.setf := by
  iterate 6 refine (extractLsb'_append_eq_of_le (by decide)).trans ?_
  exact extractLsb'_append_eq_right

theorem Common.encode_yld : (c.encode opc).extractLsb' 31 1 = BitVec.ofBool c.yld := by
  iterate 7 refine (extractLsb'_append_eq_of_le (by decide)).trans ?_
  exact BitVec.extractLsb'_eq_self

end

/-! ## Words -/

section
variable (f : Fields) (opc : BitVec 9)

/-- The upper 64 bits of the word of an instruction's fields. -/
def Fields.high : Fields → BitVec 64
  | .r f => 0#4 ++ f.wm ++ f.ob.encode ++ f.oa.encode ++ f.od.encode
  | .l f => f.imm ++ f.oa.encode ++ f.od.encode

theorem Fields.encode_eq : f.encode opc = f.high ++ f.common.encode opc := by cases f <;> rfl

/-- Dword 0 of a word holds the common fields and the opcode. -/
theorem Fields.encode_low {a n : Nat} (h : a + n ≤ 32) : (f.encode opc).extractLsb' a n = (f.common.encode opc).extractLsb' a n := by
  rw [f.encode_eq]
  exact extractLsb'_append_eq_of_add_le h

theorem Fields.encode_high {a n : Nat} (h : 32 ≤ a) : (f.encode opc).extractLsb' a n = f.high.extractLsb' (a - 32) n := by
  rw [f.encode_eq]
  exact extractLsb'_append_eq_of_le h

theorem Fields.opc_encode : (f.encode opc).extractLsb' 0 9 = opc := by
  rw [f.encode_low opc (by decide)]
  exact extractLsb'_append_eq_right

theorem Fields.md_encode : (f.encode opc).extractLsb' 13 6 = f.common.md := by
  rw [f.encode_low opc (by decide), Common.encode_md]

theorem Fields.common_encode : Common.decode (f.encode opc) = f.common := by
  have hgn : (f.encode opc).getLsbD 22 = f.common.gn := getLsbD_of_extract ((f.encode_low opc (by decide)).trans (f.common.encode_gn opc))
  have hyld : (f.encode opc).getLsbD 31 = f.common.yld := getLsbD_of_extract ((f.encode_low opc (by decide)).trans (f.common.encode_yld opc))
  simp only [Common.decode, hgn, hyld, f.encode_low opc, Nat.reduceAdd, Nat.reduceLeDiff, Common.encode_ty, Common.encode_md, Common.encode_gp,
    Common.encode_dist, Common.encode_setf, Ty.ofCode_code]

theorem Fields.encode_od : (f.encode opc).extractLsb' 32 16 = f.od.encode := by
  rw [f.encode_high opc (by decide)]
  cases f with
  | r f => exact extractLsb'_append_eq_right
  | l f => exact extractLsb'_append_eq_right

theorem Fields.encode_oa : (f.encode opc).extractLsb' 48 16 = f.oa.encode := by
  rw [f.encode_high opc (by decide)]
  cases f with
  | r f => exact (extractLsb'_append_eq_of_le (by decide)).trans extractLsb'_append_eq_right
  | l f => exact (extractLsb'_append_eq_of_le (by decide)).trans extractLsb'_append_eq_right
end

section
variable (f : FormR) (opc : BitVec 9)

theorem FormR.encode_ob : ((Fields.r f).encode opc).extractLsb' 64 16 = f.ob.encode := by
  rw [(Fields.r f).encode_high opc (by decide)]
  iterate 2 refine (extractLsb'_append_eq_of_le (by decide)).trans ?_
  exact extractLsb'_append_eq_right

theorem FormR.encode_wm : ((Fields.r f).encode opc).extractLsb' 80 12 = f.wm := by
  rw [(Fields.r f).encode_high opc (by decide)]
  iterate 3 refine (extractLsb'_append_eq_of_le (by decide)).trans ?_
  exact extractLsb'_append_eq_right

theorem FormR.encode_reserved : ((Fields.r f).encode opc).extractLsb' 92 4 = 0 := by
  rw [(Fields.r f).encode_high opc (by decide)]
  iterate 4 refine (extractLsb'_append_eq_of_le (by decide)).trans ?_
  exact BitVec.extractLsb'_eq_self
end

theorem FormL.encode_imm (f : FormL) (opc : BitVec 9) : ((Fields.l f).encode opc).extractLsb' 64 32 = f.imm := by
  rw [(Fields.l f).encode_high opc (by decide)]
  iterate 2 refine (extractLsb'_append_eq_of_le (by decide)).trans ?_
  exact BitVec.extractLsb'_eq_self

/-- The fields of a word read back (R46). -/
theorem Fields.decode_encode (f : Fields) (opc : BitVec 9) : Fields.decode (Laws.Keyed.isL f) (f.encode opc) = .ok f := by
  cases f with
  | r f =>
    simp only [Fields.decode, Fields.encode_od, Fields.encode_oa, f.encode_ob, f.encode_wm, Opnd.decode_encode, Fields.common_encode, Laws.Keyed.isL,
      Bool.false_eq_true, if_false]
    rfl
  | l f =>
    simp only [Fields.decode, Fields.encode_od, Fields.encode_oa, f.encode_imm, Opnd.decode_encode, Fields.common_encode, Laws.Keyed.isL, if_true]
    rfl

/-- Dword 0 of a word is spelt by its common fields and its opcode. -/
theorem Common.encode_decode (w : W96) : (Common.decode w).encode (w.extractLsb' 0 9) = w.extractLsb' 0 32 := by
  simp only [Common.encode, Common.decode, Ty.code_ofCode, ofBool_getLsbD]
  iterate 7 rw [extractLsb'_append_extractLsb'_eq_extractLsb' (by decide)]

/-- A word whose fields decode is spelt by them, by its opcode and, in form R, by reserved bits that are zero (R46). -/
theorem Fields.encode_decode {formL : Bool} {w : W96} {f : Fields} (h : Fields.decode formL w = .ok f)
    (hres : formL = false → w.extractLsb' 92 4 = 0) :
    Laws.Keyed.isL f = formL ∧ f.common = Common.decode w ∧ f.encode (w.extractLsb' 0 9) = w := by
  simp only [Fields.decode] at h
  split at h
  · cases h
  · cases h
  next od oa hod hoa =>
    replace hod := Opnd.encode_decode hod
    replace hoa := Opnd.encode_decode hoa
    split at h
    next hL =>
      cases h
      refine ⟨hL.symm, rfl, ?_⟩
      refine Eq.trans ?_ (BitVec.extractLsb'_eq_self (x := w))
      simp only [Fields.encode, Common.encode_decode, hod, hoa]
      iterate 3 rw [extractLsb'_append_extractLsb'_eq_extractLsb' (by decide)]
    next hL =>
      split at h
      · cases h
      next ob hob =>
        cases h
        replace hob := Opnd.encode_decode hob
        replace hL : formL = false := by simpa using hL
        refine ⟨hL.symm, rfl, ?_⟩
        refine Eq.trans ?_ (BitVec.extractLsb'_eq_self (x := w))
        have hz : (0#4) = w.extractLsb' 92 4 := (hres hL).symm
        simp only [Fields.encode, Common.encode_decode, hod, hoa, hob, hz]
        iterate 5 rw [extractLsb'_append_extractLsb'_eq_extractLsb' (by decide)]

end Sys2Proof
end

section
/-! SUPPORT. The decoder and the encoder: the instruction of a key and its fields, and the checks of a word that decodes (R48, R65 to R67). -/

namespace Sys2Proof.Machine

/-! ## Keys and rows of the opcode map -/

theorem opRow?_some {key : Nat} {row : OpRow} (h : opRow? key = some row) : row ∈ opRows ∧ row.key = key :=
  ⟨List.mem_of_find?_eq_some h, by simpa using List.find?_some h⟩

theorem opRows_keys : ∀ row ∈ opRows, row.key = 0x20C ∨ row.key < 512 := by decide +kernel

/-- The opcode of a key is its lower nine bits: REFILL.push has the opcode of REFILL (R204). -/
theorem ofNat_opKey (opc : BitVec 9) (md : BitVec 6) : BitVec.ofNat 9 (opKey opc.toNat md) = opc := by
  unfold opKey
  split
  next h => exact BitVec.eq_of_toNat_eq h.1.symm
  · simp

theorem modOk_of_commonFault {row : OpRow} {c : Common} (h : commonFault row c = none) : ModRule.ok row.md c.ty c.md = true := by
  simp only [commonFault] at h
  split_ifs at h with _ hmod
  simpa using hmod

theorem refillPush_bit : ∀ md : BitVec 6, 4 ≤ md.toNat ∧ md.toNat ≤ 7 → md.getLsbD 2 = true := by decide

theorem refill_bit : ∀ md : BitVec 6, md.toNat < 4 → md.getLsbD 2 = false := by decide

/-- The MOD values that REFILL and REFILL.push assign tell them apart (R204). -/
theorem opKey_ofNat {key : Nat} {row : OpRow} {c : Common} (hr : opRow? key = some row) (hc : commonFault row c = none) :
    opKey (BitVec.ofNat 9 key).toNat c.md = key := by
  have hok := modOk_of_commonFault hc
  obtain ⟨hmem, hkey⟩ := opRow?_some hr
  by_cases hpush : key = 0x20C
  · subst hpush
    obtain rfl := Option.some.inj hr
    exact if_pos ⟨rfl, refillPush_bit _ (of_decide_eq_true hok)⟩
  by_cases hpop : key = 0x00C
  · subst hpop
    obtain rfl := Option.some.inj hr
    exact if_neg (fun h => absurd (refill_bit _ (of_decide_eq_true hok)) (by rw [h.2]; decide))
  have hlt : key < 512 := (hkey ▸ opRows_keys row hmem).resolve_left hpush
  simp [opKey, Nat.mod_eq_of_lt hlt, hpop]

theorem mkInstr_of_fields {i : Instr} {key : Nat} {f : Fields} (h : i.fields = some (key, f)) : mkInstr key f = some i := by
  cases i <;> cases h <;> rfl

theorem ctorsR_fields : ∀ p ∈ ctorsR, ∀ f, (p.2 f).fields = some (p.1, .r f) := by
  simp only [ctorsR, List.forall_mem_append]
  and_intros
  all_goals
    repeat refine List.forall_mem_cons.2 ⟨fun _ => rfl, ?_⟩
    exact List.forall_mem_nil _

theorem ctorsL_fields : ∀ p ∈ ctorsL, ∀ f, (p.2 f).fields = some (p.1, .l f) := by
  simp [ctorsL, ctorsL0, Instr.fields]

theorem mem_of_lookup {β : Type} {l : List (Nat × β)} {k : Nat} {b : β} (h : l.lookup k = some b) : (k, b) ∈ l := by
  obtain ⟨l₁, l₂, rfl, -⟩ := List.lookup_eq_some_iff.1 h
  simp

theorem fields_of_mkInstr {i : Instr} {key : Nat} {f : Fields} (h : mkInstr key f = some i) : i.fields = some (key, f) := by
  cases f with
  | r f =>
    obtain ⟨c, hc, rfl⟩ := Option.map_eq_some_iff.1 h
    exact ctorsR_fields _ (mem_of_lookup hc) f
  | l f =>
    obtain ⟨c, hc, rfl⟩ := Option.map_eq_some_iff.1 h
    exact ctorsL_fields _ (mem_of_lookup hc) f

/-- Every row of the opcode map has an instruction of its form. -/
theorem opRows_ctors : ∀ row ∈ opRows, (if row.formL then (ctorsL.lookup row.key).isSome else (ctorsR.lookup row.key).isSome) = true := by
  decide +kernel

theorem mkInstr_isSome {key : Nat} {row : OpRow} {f : Fields} (hr : opRow? key = some row) (hf : Laws.Keyed.isL f = row.formL) :
    (mkInstr key f).isSome = true := by
  obtain ⟨hmem, rfl⟩ := opRow?_some hr
  have hc := opRows_ctors row hmem
  cases f with
  | r f => simpa [mkInstr, ← hf, Laws.Keyed.isL] using hc
  | l f => simpa [mkInstr, ← hf, Laws.Keyed.isL] using hc

theorem encodingFault_eq_none {row : OpRow} {f : Fields} :
    encodingFault row f = none ↔ commonFault row f.common = none ∧ operandFault row f = none := by
  simp only [encodingFault]
  cases commonFault row f.common <;> simp

end Sys2Proof.Machine

namespace Sys2Proof
open Machine

/-! ## The decoder and the encoder -/

theorem Fields.okFor_iff {row : OpRow} {f : Fields} : f.okFor row = true ↔
    Laws.Keyed.isL f = row.formL ∧ f.common.ty ∈ row.types ∧ commonFault row f.common = none ∧ operandFault row f = none := by
  simp only [Fields.okFor, Bool.and_eq_true, decide_eq_true_eq, encodingFault_eq_none, and_assoc]
  cases f <;> simp [Laws.Keyed.isL, @eq_comm Bool false, @eq_comm Bool true]

theorem Instr.wellFormed_iff {i : Instr} {key : Nat} {f : Fields} (h : i.fields = some (key, f)) :
    i.wellFormed = true ↔ ∃ row, opRow? key = some row ∧ f.okFor row = true := by
  simp only [Instr.wellFormed, h]
  cases opRow? key with
  | none => simp
  | some row => simp

/-- The key of a word: its opcode, and MOD where that chooses between two rows. -/
def wordKey (w : W96) : Nat := opKey (w.extractLsb' 0 9).toNat (w.extractLsb' 13 6)

/-- The checks 2 to 4 of R67 that a word passes which stands for an instruction. -/
def StandsFor (w : W96) (i : Instr) : Prop :=
  ∃ row f, opRow? (wordKey w) = some row ∧ (Common.decode w).ty ∈ row.types ∧ (row.formL = false → w.extractLsb' 92 4 = 0) ∧
    commonFault row (Common.decode w) = none ∧ Fields.decode row.formL w = .ok f ∧ operandFault row f = none ∧ i.fields = some (wordKey w, f)

/-- What the decoder answers: an illegal opcode where the map has no row, and otherwise another error or the instruction that the word stands for. -/
theorem decode_cases (w : W96) : opRow? (wordKey w) = none ∧ decode w = .error .illegalOpcode ∨
    (opRow? (wordKey w)).isSome ∧ ((∃ e, e ≠ .illegalOpcode ∧ decode w = .error e) ∨ ∃ i, StandsFor w i ∧ decode w = .ok i) := by
  generalize hd : decode w = answer
  simp only [decode] at hd
  split at hd
  next hr => exact .inl ⟨hr, hd.symm⟩
  next row hr =>
    refine .inr ⟨Option.isSome_of_eq_some hr, ?_⟩
    split_ifs at hd with hty hres
    · exact .inl ⟨.illegalEncoding _, nofun, hd.symm⟩
    · split at hd
      · exact .inl ⟨.illegalEncoding _, nofun, hd.symm⟩
      next hc =>
        split at hd
        · exact .inl ⟨.illegalEncoding _, nofun, hd.symm⟩
        next f hf =>
          split at hd
          · exact .inl ⟨.illegalEncoding _, nofun, hd.symm⟩
          next ho =>
            have hz : row.formL = false → w.extractLsb' 92 4 = 0 := fun hL => not_not.1 (fun hz => hres ⟨hL, hz⟩)
            obtain ⟨hL, -, -⟩ := Fields.encode_decode hf hz
            obtain ⟨i, hi⟩ := Option.isSome_iff_exists.1 (mkInstr_isSome hr hL)
            rw [hi] at hd
            exact .inr ⟨i, ⟨row, f, hr, hty, hz, hc, hf, ho, fields_of_mkInstr hi⟩, hd.symm⟩
    · exact .inl ⟨.illegalType _, nofun, hd.symm⟩

theorem decode_eq_ok {w : W96} {i : Instr} : decode w = .ok i ↔ StandsFor w i := by
  constructor
  · intro h
    obtain ⟨-, hd⟩ | ⟨-, ⟨e, -, hd⟩ | ⟨j, hj, hd⟩⟩ := decode_cases w
    · cases h.symm.trans hd
    · cases h.symm.trans hd
    · cases h.symm.trans hd
      exact hj
  · rintro ⟨row, f, hr, hty, hres, hc, hf, ho, hi⟩
    have hres' : ¬(row.formL = false ∧ w.extractLsb' 92 4 ≠ 0) := fun h => h.2 (hres h.1)
    simp only [wordKey] at hr hi
    simp only [decode, hr, hty, not_true, if_false, hres', hc, hf, ho, mkInstr_of_fields hi]

/-- A word is an illegal opcode where the map has no row for it, and nowhere else (R66). -/
theorem decode_eq_illegalOpcode {w : W96} : decode w = .error .illegalOpcode ↔ opRow? (wordKey w) = none := by
  obtain ⟨hr, hd⟩ | ⟨hr, ⟨e, he, hd⟩ | ⟨i, -, hd⟩⟩ := decode_cases w
  · simp only [hd, hr]
  · simp [hd, he, Option.isSome_iff_ne_none.1 hr]
  · simp [hd, Option.isSome_iff_ne_none.1 hr]

end Sys2Proof

open Sys2Proof Sys2Proof.Machine in
/-- Settles O2: the word has the instruction's key, each of its fields reads back, and a well-formed instruction passes the decoder's checks. -/
theorem decodeInvertsEncode : Obligations.DecodeInvertsEncode := by
  unfold Obligations.DecodeInvertsEncode
  intro i w hwf hw
  obtain ⟨⟨key, f⟩, hi, rfl⟩ := Option.map_eq_some_iff.1 hw
  obtain ⟨row, hr, hok⟩ := (Instr.wellFormed_iff hi).1 hwf
  obtain ⟨hL, hty, hc, ho⟩ := Fields.okFor_iff.1 hok
  have hkey : wordKey (f.encode (BitVec.ofNat 9 key)) = key := by
    rw [wordKey, Fields.opc_encode, Fields.md_encode, opKey_ofNat hr hc]
  have hcom := f.common_encode (BitVec.ofNat 9 key)
  refine decode_eq_ok.2 ⟨row, f, hkey.symm ▸ hr, hcom.symm ▸ hty, ?_, hcom.symm ▸ hc, hL ▸ f.decode_encode _, ho, hkey.symm ▸ hi⟩
  intro hform
  cases f with
  | r f => exact f.encode_reserved _
  | l f => cases hL.trans hform

open Sys2Proof Sys2Proof.Machine in
/-- Settles O3: the checks that the decoder makes are those of a well-formed instruction, and each part of the word is spelt by the field read from it. -/
theorem decodedWordIsItsEncoding : Obligations.DecodedWordIsItsEncoding := by
  unfold Obligations.DecodedWordIsItsEncoding
  intro w i h
  obtain ⟨row, f, hr, hty, hres, hc, hf, ho, hi⟩ := decode_eq_ok.1 h
  obtain ⟨hL, hcom, hw⟩ := Fields.encode_decode hf hres
  refine ⟨(Instr.wellFormed_iff hi).2 ⟨row, hr, Fields.okFor_iff.2 ⟨hL, hcom ▸ hty, hcom ▸ hc, ho⟩⟩, ?_⟩
  simp only [Instr.encode, hi, Option.map_some, wordKey, ofNat_opKey, hw]
end

section
/-! SUPPORT. Words that are no instruction: the opcodes without a row, and the turn that comes to such a word (R66, R67). -/

namespace Sys2Proof.Machine

/-- The opcodes of the map: one run from the start of each group (R65). -/
theorem opRows_opcodes : (opRows.map OpRow.key).filter (fun k => decide (k < 512)) =
    List.range' 0x001 19 ++ List.range' 0x040 42 ++ List.range' 0x080 31 ++ List.range' 0x0C0 23 ++ List.range' 0x100 22 ++ List.range' 0x140 15 ++
      List.range' 0x180 12 ++ List.range' 0x1C0 21 := by
  decide +kernel

/-- The opcodes without a row are those of R66. -/
theorem opRow?_eq_none {n : Nat} (hn : n < 512) : opRow? n = none ↔
    n = 0 ∨ (0x014 ≤ n ∧ n ≤ 0x03F) ∨ (0x06A ≤ n ∧ n ≤ 0x07F) ∨ (0x09F ≤ n ∧ n ≤ 0x0BF) ∨ (0x0D7 ≤ n ∧ n ≤ 0x0FF) ∨ (0x116 ≤ n ∧ n ≤ 0x13F) ∨
      (0x14F ≤ n ∧ n ≤ 0x17F) ∨ (0x18C ≤ n ∧ n ≤ 0x1BF) ∨ 0x1D5 ≤ n := by
  have hmem : opRow? n = none ↔ n ∉ (opRows.map OpRow.key).filter (fun k => decide (k < 512)) := by simp [opRow?, hn]
  rw [hmem, opRows_opcodes]
  simp only [List.mem_append, List.mem_range'_1]
  omega

theorem opRow?_wordKey (w : W96) : opRow? (wordKey w) = none ↔ opRow? (w.extractLsb' 0 9).toNat = none := by
  unfold wordKey opKey
  split
  next h =>
    rw [h.1]
    decide +kernel
  · rfl

variable {v : Visit} {s s1 : State} {w : W96}

/-- A word that does not decode traps once every served slice is ready for it (R67; log entry 101). -/
theorem Serves.tryIssue_undecoded (h : Serves v s) {e : DecodeError} (hf : s.visitFetch v = (s1, .ok w)) (hd : decode w = .error e)
    (hr : ∀ i ∈ v.slices, (s1.sl v.bid i).distOk (rawHints w) = true ∧ (s1.sl v.bid i).flagsReady (rawHints w).wm 15 = true) :
    s.tryIssue v (fun i => ((s.sl v.bid i).wait).isSome) =
      .over (s1.wordTrap v (DecodeError.cause e) (s.sl v.bid (v.slices.headD 0)).pc w 0 (DecodeError.info e)) := by
  simp only [State.visitFetch] at hf
  have hany : v.slices.any (fun i => ((s.sl v.bid i).wait).isSome || !(s1.sl v.bid i).distOk (rawHints w) ||
      !(s1.sl v.bid i).flagsReady (rawHints w).wm 15) = false :=
    List.any_eq_false.2 (fun i hi => by simp only [h.not_held hi, hr i hi, Bool.not_true, Bool.or_self, not_false_eq_true, Bool.false_eq_true])
  simp only [State.tryIssue, hf, hd, hany, Bool.false_eq_true, if_false]

end Sys2Proof.Machine

open Sys2Proof Sys2Proof.Machine in
/-- Settles O4: the map has no row for these opcodes alone, and a turn that comes to such a word ends in its trap. -/
theorem unassignedOpcodesTrap : Obligations.UnassignedOpcodesTrap := by
  unfold Obligations.UnassignedOpcodesTrap
  refine ⟨fun w => ?_, fun s s1 v w hs hf hd hr => ?_, rfl⟩
  · rw [decode_eq_illegalOpcode, opRow?_wordKey]
    exact opRow?_eq_none (w.extractLsb' 0 9).isLt
  · rw [hs.step, hs.tryIssue_undecoded hf hd hr]
    rfl

open Sys2Proof Sys2Proof.Machine in
/-- Settles O1: each word is the encoding of its instruction, which is well formed, and the map has no row for opcode 0. -/
theorem workedWordsDecode : Obligations.WorkedWordsDecode := by
  unfold Obligations.WorkedWordsDecode
  have hdec : ∀ (i : Instr) (w : W96), i.wellFormed = true → i.encode = some w → decode w = .ok i := decodeInvertsEncode
  exact ⟨hdec _ _ rfl rfl, hdec _ _ rfl rfl, hdec _ _ rfl rfl, hdec _ _ rfl rfl, decode_eq_illegalOpcode.2 rfl⟩
end

section
/-! SUPPORT. Source views: the elements that a table places, side by side in the word that an instruction reads (R52). -/

namespace Sys2Proof.Machine

/-! ## Elements placed side by side -/

/-- A number put together from a low part of n bits and the rest. -/
theorem ofNat_append {m n : Nat} (a b : Nat) : BitVec.ofNat (m + n) (a % 2 ^ n + 2 ^ n * b) = BitVec.ofNat m b ++ BitVec.ofNat n a := by
  refine BitVec.eq_of_toNat_eq ?_
  have hlow : a % 2 ^ n < 2 ^ n := Nat.mod_lt _ (Nat.two_pow_pos n)
  rw [BitVec.toNat_append, BitVec.toNat_ofNat, BitVec.toNat_ofNat, BitVec.toNat_ofNat, ← Nat.shiftLeft_add_eq_or_of_lt hlow, Nat.shiftLeft_eq,
    Nat.add_comm m n, Nat.pow_add, Nat.mod_mul, Nat.add_mul_mod_self_left, Nat.mod_mod, Nat.add_mul_div_left _ _ (Nat.two_pow_pos n),
    Nat.div_eq_of_lt hlow, Nat.zero_add, Nat.mul_comm, Nat.add_comm]

/-- The element that a view places, by its bits: an element of the source, or zero (R52). -/
def placed (w : Nat) (x : W32) : Option Nat → BitVec w
  | some j => x.extractLsb' (w * j) w
  | none => 0

/-- The same element as the number that `readView` packs. -/
def placedNat (w : Nat) (x : W32) : Option Nat → Nat
  | some j => elemAt w x j
  | none => 0

theorem ofNat_placedNat (w : Nat) (x : W32) (o : Option Nat) : BitVec.ofNat w (placedNat w x o) = placed w x o := by
  cases o with
  | none => rfl
  | some j => exact BitVec.eq_of_toNat_eq (by simp [placedNat, placed, elemAt])

/-- The number that placed elements make, e0 lowest. -/
def packedNat (w : Nat) (x : W32) (l : List (Option Nat)) : Nat := (l.map (placedNat w x)).foldr (fun e acc => e % 2 ^ w + 2 ^ w * acc) 0

/-- An element put below the others. -/
theorem packed_cons {m w : Nat} {x : W32} {o : Option Nat} {l : List (Option Nat)} {y : BitVec m} (h : BitVec.ofNat m (packedNat w x l) = y) :
    BitVec.ofNat (m + w) (packedNat w x (o :: l)) = y ++ placed w x o := by
  rw [← h, ← ofNat_placedNat, ← ofNat_append]
  rfl

theorem packed_one {w : Nat} {x : W32} {o : Option Nat} : BitVec.ofNat w (packedNat w x [o]) = placed w x o := by
  rw [← ofNat_placedNat]
  exact BitVec.eq_of_toNat_eq (by simp [packedNat])

section
variable {w : Nat} {x : W32} {p q r t u y z k : Option Nat}

theorem packed_two : BitVec.ofNat (w + w) (packedNat w x [p, q]) = placed w x q ++ placed w x p := packed_cons packed_one

theorem packed_four : BitVec.ofNat (w + w + w + w) (packedNat w x [p, q, r, t]) = placed w x t ++ placed w x r ++ placed w x q ++ placed w x p :=
  packed_cons (packed_cons packed_two)

theorem packed_eight : BitVec.ofNat (w + w + w + w + w + w + w + w) (packedNat w x [p, q, r, t, u, y, z, k]) =
    placed w x k ++ placed w x z ++ placed w x y ++ placed w x u ++ placed w x t ++ placed w x r ++ placed w x q ++ placed w x p :=
  packed_cons (packed_cons (packed_cons (packed_cons packed_four)))

end

/-- A packed view places the elements of its table. -/
theorem readView_packed {view : View} {sel : BitVec 3} {x : W32} (h : view ≠ .w) :
    readView view sel x = BitVec.ofNat 32 (packedNat (viewWidth view) x (viewTable view sel.toNat)) := by
  cases view with
  | w => exact absurd rfl h
  | _ => rfl

end Sys2Proof.Machine

open Sys2Proof Sys2Proof.Machine in
/-- Settles O26: the packed views place the elements of their table, and VIEW 00 extends a part of the word or reverses its bytes. -/
theorem sourceViewsRearrange : Obligations.SourceViewsRearrange := by
  unfold Obligations.SourceViewsRearrange
  intro x h b n hh bb nn
  refine ⟨rfl, rfl, rfl, rfl, rfl, rfl, rfl, packed_four (p := some 3) (q := some 2) (r := some 1) (t := some 0), ?_⟩
  and_intros
  iterate 8 exact (readView_packed (by decide)).trans packed_two
  iterate 8 exact (readView_packed (by decide)).trans packed_four
  iterate 8 exact (readView_packed (by decide)).trans packed_eight
end

section
/-! SUPPORT. Elements of a packed word, the short immediates that fill them, and the positions that a destination chooses (R53, R54). -/

namespace Sys2Proof.Machine

/-! ## Elements of a packed word -/

/-- Element j of the number that a list of elements makes. -/
theorem elem_foldr (w : Nat) (l : List Nat) (j : Nat) :
    ((l.foldr (fun e acc => e % 2 ^ w + 2 ^ w * acc) 0) >>> (w * j)) % 2 ^ w = l.getD j 0 % 2 ^ w := by
  induction l generalizing j with
  | nil => simp
  | cons e l ih =>
    cases j with
    | zero => simp
    | succ j =>
      have hrest : ∀ n, (e % 2 ^ w + 2 ^ w * n) >>> w = n := fun n => by
        rw [Nat.shiftRight_eq_div_pow, Nat.add_mul_div_left _ _ (Nat.two_pow_pos w), Nat.div_eq_of_lt (Nat.mod_lt _ (Nat.two_pow_pos w)), Nat.zero_add]
      rw [List.foldr_cons, Nat.mul_succ, Nat.add_comm (w * j) w, Nat.shiftRight_add, hrest, ih, List.getD_cons_succ]

/-- Bits that stand below bit n are those of the number modulo 2^n. -/
theorem mod_shiftRight_mod {a k w n : Nat} (h : k + w ≤ n) : (a % 2 ^ n) >>> k % 2 ^ w = a >>> k % 2 ^ w := by
  refine Nat.eq_of_testBit_eq (fun i => ?_)
  by_cases hi : i < w
  · simp [Nat.testBit_mod_two_pow, Nat.testBit_shiftRight, hi, (by omega : k + i < n)]
  · simp [Nat.testBit_mod_two_pow, hi]

theorem elemAt_packElems {w j : Nat} (l : List Nat) (h : w * (j + 1) ≤ 32) : elemAt w (packElems w l) j = l.getD j 0 % 2 ^ w := by
  rw [← elem_foldr, elemAt, packElems, BitVec.toNat_ofNat, mod_shiftRight_mod (by simpa [Nat.mul_succ] using h)]

/-- Every element of a word of equal elements. -/
theorem elemAt_replicate {w j : Nat} (e : Nat) (h : j < 32 / w) : elemAt w (packElems w (List.replicate (32 / w) e)) j = e % 2 ^ w := by
  have hw : w * (j + 1) ≤ 32 := Nat.le_trans (Nat.mul_le_mul_left w h) (Nat.mul_div_le 32 w)
  rw [elemAt_packElems _ hw]
  simp [List.getD_eq_getElem?_getD, h]

/-! ## Short immediates -/

theorem toNat_signExtend_mod {n w k : Nat} (v : BitVec n) (h : k ≤ w) : (((v.signExtend w).toNat % 2 ^ k : Nat) : Int) = v.toInt % 2 ^ k := by
  rw [BitVec.signExtend, BitVec.toNat_ofInt]
  push_cast
  rw [Int.toNat_of_nonneg (Int.emod_nonneg _ (by positivity)), Int.emod_emod_of_dvd _ (by exact_mod_cast Nat.pow_dvd_pow 2 h)]

/-- A short immediate under a floating-point type: its rounding in every element (R54). -/
theorem immWord_float {ty : Ty} {f : Fmt} (v : BitVec 13) (h : tyFmt ty = some f) :
    immWord ty v = packElems f.w (List.replicate (32 / f.w) (f.round .rne (Dy.ofInt v.toInt))) := by
  simp only [immWord, h]

theorem immWord_narrow {ty : Ty} (v : BitVec 13) (h : tyFmt ty = none) (hw : ty.width = 16 ∨ ty.width = 8) :
    immWord ty v = packElems ty.width (List.replicate (32 / ty.width) (v.signExtend 32).toNat) := by
  simp only [immWord, h, hw, if_true]

theorem immWord_word {ty : Ty} (v : BitVec 13) (h : tyFmt ty = none) (hw : ty.width = 32) : immWord ty v = v.signExtend 32 := by
  simp [immWord, h, hw]

theorem elemAt_immWord {ty : Ty} {j : Nat} (v : BitVec 13) (h : tyFmt ty = none) (hw : ty.width = 32 ∨ ty.width = 16 ∨ ty.width = 8)
    (hj : j < 32 / ty.width) : (elemAt ty.width (immWord ty v) j : Int) = v.toInt % 2 ^ ty.width := by
  rcases hw with hw | hw
  · have hj0 : j = 0 := by simpa [hw] using hj
    rw [immWord_word v h hw, hw, hj0, elemAt, Nat.mul_zero, Nat.shiftRight_zero]
    exact toNat_signExtend_mod v (Nat.le_refl 32)
  · rw [immWord_narrow v h hw, elemAt_replicate _ hj]
    exact toNat_signExtend_mod v (by omega)

/-! ## Chosen positions -/

theorem getLsbD_maskMerge (old new m : W32) (k : Nat) :
    (maskMerge old new m).getLsbD k = if m.getLsbD k then new.getLsbD k else old.getLsbD k := by
  by_cases hk : k < 32
  · simp only [maskMerge, BitVec.getLsbD_or, BitVec.getLsbD_and, BitVec.getLsbD_not, hk]
    cases m.getLsbD k <;> simp
  · simp only [BitVec.getLsbD_of_ge _ k (Nat.le_of_not_lt hk), Bool.false_eq_true, if_false]

end Sys2Proof.Machine

open Sys2Proof Sys2Proof.Machine in
/-- Settles O28: each element of the word is the immediate modulo 2^w, or its rounding. -/
theorem shortImmediatesAsOperands : Obligations.ShortImmediatesAsOperands := by
  unfold Obligations.ShortImmediatesAsOperands
  intro v
  refine ⟨fun s bid i t => rfl, fun ty hty j hj => ?_, fun ty f hf j hj => ?_, by decide +kernel, by decide +kernel, by decide +kernel⟩
  · have hint : ∀ ty ∈ [Ty.b32, .i32, .n32, .i16x2, .n16x2, .i8x4, .n8x4],
        tyFmt ty = none ∧ (ty.width = 32 ∨ ty.width = 16 ∨ ty.width = 8) := by decide
    obtain ⟨hn, hw⟩ := hint ty hty
    exact elemAt_immWord v hn hw hj
  · rw [immWord_float v hf, elemAt_replicate _ hj]

open Sys2Proof Sys2Proof.Machine in
/-- Settles O27: a write merges under the mask that the view and SEL choose. -/
theorem partialWritesKeepTheRest : Obligations.PartialWritesKeepTheRest := by
  unfold Obligations.PartialWritesKeepTheRest
  refine ⟨fun old new m k => ?_, fun v => ?_, fun v hv => ?_, rfl, rfl, fun num v sel t x => rfl, fun num v sel t x => rfl⟩
  · exact getLsbD_maskMerge old new m k
  · cases v <;> exact ⟨rfl, rfl, rfl⟩
  · simp only [List.mem_cons, List.not_mem_nil, or_false] at hv
    obtain rfl | rfl := hv <;> exact ⟨rfl, rfl, rfl, rfl⟩
end

section
/-! SUPPORT. Transfers: the check of their targets, and what a slice in effect takes from them (R47, R190). -/

namespace Sys2Proof.Machine

variable {x : Ctx} {s : State} {target : Nat → W64}

/-! ## Targets -/

theorem Ctx.targetTrap_eq_none : x.targetTrap s target = none ↔ ∀ i ∈ x.inEffect s, (target i).toNat % 4 = 0 := by
  simp [Ctx.targetTrap]

theorem Ctx.targetTrap_eq_some {t : Trap} (h : x.targetTrap s target = some t) :
    ∃ i ∈ x.inEffect s, (target i).toNat % 4 ≠ 0 ∧ t = x.trap .misaligned i 0 (target i).toNat 4 := by
  obtain ⟨i, hi, rfl⟩ := Option.map_eq_some_iff.1 h
  exact ⟨i, List.mem_of_find?_eq_some hi, by simpa using List.find?_some hi, rfl⟩

/-! ## The slices in effect -/

theorem Ctx.mem_inEffect {i : Nat} : i ∈ x.inEffect s ↔ i ∈ x.v.slices ∧ x.parts s i ≠ [] := by
  simp [Ctx.inEffect, Ctx.takes]

/-- What a transfer leaves of a slice in effect: the link written, where there is one, and the program counter at the target. -/
def Ctx.arrive (x : Ctx) (s : State) (target : Nat → W64) (link : Bool) (i : Nat) (sl : Slice) : Slice :=
  { (if link then sl.result x.row.lat (x.writesTo s x.f.od i (fun _ => words64 (x.pc + 12))) else sl) with pc := target i }

theorem Ctx.sl_goTo (hv : x.v.Stands s) (link : Bool) (i : Nat) :
    (x.goTo s target link).sl x.bid i = if i ∈ x.inEffect s then x.arrive s target link i (s.sl x.bid i) else s.sl x.bid i := by
  obtain ⟨hb, hn, hl⟩ := hv
  exact sl_forSlices s (l := x.inEffect s) (f := x.arrive s target link) hb (hn.filter _) (fun j hj => hl j (List.mem_filter.1 hj).1) i

/-! ## The link -/

theorem maskMerge_whole (old new : W32) : maskMerge old new 0xFFFFFFFF = new := by
  have h := maskMerge_same old new (BitVec.allOnes 32)
  rwa [BitVec.and_allOnes, BitVec.and_allOnes] at h

/-- Two whole words written to a pair of uniform registers. -/
theorem Slice.uni_writePair {sl : Slice} {n : Nat} (seq : Nat) (a b : W32) (hk : mwf 0 sl.k = true) :
    let u := sl.writeAll seq [{ dest := .uni n, mask := 0xFFFFFFFF, val := a }, { dest := .uni (n + 1), mask := 0xFFFFFFFF, val := b }]
    u.uni n = a ∧ u.uni (n + 1) = b := by
  intro u
  let w : RegWrite := { dest := .uni n, mask := 0xFFFFFFFF, val := a }
  have hu : ∀ r, u.uni r = ((sl.writeSeq seq w).write { dest := .uni (n + 1), mask := 0xFFFFFFFF, val := b }).uni r := fun _ => rfl
  have hw : ∀ r, (sl.writeSeq seq w).uni r = (sl.write w).uni r := fun _ => rfl
  have hwf : mwf 0 (sl.writeSeq seq w).k = true := Slice.write_k_wf w hk
  constructor
  · rw [hu, Slice.uni_write n hwf, if_neg (by simp), hw, Slice.uni_write n hk, if_pos rfl, maskMerge_whole]
  · rw [hu, Slice.uni_write (n + 1) hwf, if_pos rfl, maskMerge_whole]

/-- A uniform destination takes the words of the first participant. -/
theorem Ctx.writesTo_uni {i : Nat} {num : BitVec 6} {view : View} {sel : BitVec 3} {val : List W32} (hi : i ∈ x.inEffect s) :
    ∃ t, x.writesTo s (.uni num view sel) i (fun _ => val) = destWrites (.uni num view sel) t val := by
  cases hp : x.parts s i with
  | nil => exact absurd hp (Ctx.mem_inEffect.1 hi).2
  | cons t l => exact ⟨t, by simp [Ctx.writesTo, hp]⟩

/-- A call leaves its link in its pair (R190). -/
theorem Ctx.uni_arrive {i : Nat} {num : BitVec 6} {view : View} {sel : BitVec 3} (sl : Slice) (hi : i ∈ x.inEffect s)
    (hod : x.f.od = .uni num view sel) (hlat : x.row.lat = .one) (hk : mwf 0 sl.k = true) :
    (x.arrive s target true i sl).uni num.toNat = (x.pc + 12).setWidth 32 ∧
      (x.arrive s target true i sl).uni (num.toNat + 1) = (x.pc + 12).extractLsb' 32 32 := by
  obtain ⟨t, ht⟩ := Ctx.writesTo_uni (num := num) (view := view) (sel := sel) (val := words64 (x.pc + 12)) hi
  have hres : ∀ r, (x.arrive s target true i sl).uni r = (sl.writeAll sl.seq (destWrites (.uni num view sel) t (words64 (x.pc + 12)))).uni r := by
    intro r
    rw [← ht, ← hod]
    simp only [Ctx.arrive, if_true, Slice.result, hlat]
    rfl
  simp only [hres]
  exact Slice.uni_writePair sl.seq _ _ hk

/-! ## Completion -/

theorem transfer_next {key : Nat} {f : Fields} {v : Visit} {target : Ctx → State → Nat → W64} {link : Bool} (h : Issues key f v s)
    (ht : ∀ i ∈ (Ctx.make key f v s).inEffect (s.opened key f v), (target (Ctx.make key f v s) (s.opened key f v) i).toNat % 4 = 0) :
    transfer key f target link s =
      .next (s.closed key f v ((Ctx.make key f v s).goTo (s.opened key f v) (target (Ctx.make key f v s) (s.opened key f v)) link)) :=
  issueTry_next h (Ctx.targetTrap_eq_none.2 ht)

end Sys2Proof.Machine

open Sys2Proof Sys2Proof.Machine in
/-- Settles O37: a transfer is its check of the targets and then, in each slice in effect, the link and the program counter. -/
theorem transfersReachTheirTargets : Obligations.TransfersReachTheirTargets := by
  unfold Obligations.TransfersReachTheirTargets
  refine ⟨fun x s target => Ctx.targetTrap_eq_none, fun x s target t h => ?_, fun x s target link i hv => ?_,
    fun x s target i num view sel hv hi hod hlat hk => ?_, fun f s v => ⟨fun h => ?_, fun h => ?_⟩, fun p hp f s v h => ?_⟩
  · obtain ⟨i, hi, hne, rfl⟩ := Ctx.targetTrap_eq_some h
    exact ⟨rfl, rfl, rfl, hi, hne⟩
  · rw [Ctx.sl_goTo hv]
    split <;> rfl
  · rw [Ctx.sl_goTo hv, if_pos hi]
    exact Ctx.uni_arrive _ hi hod hlat hk
  · intro x s1 target ht
    exact transfer_next (target := fun x _ _ => x.relative) h (fun i hi => ht.resolve_left (List.ne_nil_of_mem hi))
  · intro x s1 target ht
    exact transfer_next (target := fun x _ _ => x.relative) h (fun i hi => ht.resolve_left (List.ne_nil_of_mem hi))
  · intro x s1 ht
    simp only [List.mem_cons, List.not_mem_nil, or_false] at hp
    obtain rfl | rfl | rfl := hp
    all_goals exact transfer_next (target := fun x s i => x.src64 s i 0 x.f.oa) h ht
end

section
/-! SUPPORT. The order of the checks after decoding, and what a trap at the issue leaves alone (R67). -/

namespace Sys2Proof.Machine

theorem firstSome_append_cons {α β : Type} {g : α → Option β} {pre post : List α} {a : α} {b : β} (hpre : ∀ c ∈ pre, g c = none)
    (ha : g a = some b) : firstSome g (pre ++ a :: post) = some b := by
  induction pre with
  | nil => simp [firstSome, ha]
  | cons c pre ih => simp [firstSome, hpre c (by simp), ih (fun d hd => hpre d (by simp [hd]))]

/-- A trap of REG_RANGE is precise at the instruction, in the slice that it is found in. -/
theorem Ctx.regRange_eq_some {x : Ctx} {b : Block} {i : Nat} {t : Trap} (h : x.regRange b i = some t) :
    ∃ info info2, t = x.trap .regRange i 0 0 info info2 := by
  simp only [Ctx.regRange] at h
  split at h
  next p _ => exact ⟨p.1, p.2, (Option.some.inj h).symm⟩
  · split at h
    next p _ => exact ⟨p.1, p.2, (Option.some.inj h).symm⟩
    · obtain ⟨p, -, rfl⟩ := Option.map_eq_some_iff.1 h
      exact ⟨p.1, p.2, rfl⟩

theorem Ctx.check_regRange {x : Ctx} {s s1 : State} {t : Trap} (hd : x.deferredTrap s1 = none)
    (hp : x.privileged = true → (s.grid (s.blk x.bid).gid).priv = true) (hr : firstSome (x.regRange (s.blk x.bid)) x.v.slices = some t) :
    x.check s s1 = some t := by
  have hallowed : (x.privileged && !(s.grid (s.blk x.bid).gid).priv) = false := by
    cases hx : x.privileged with
    | false => rfl
    | true => simp [hp hx]
  simp only [Ctx.check, hd, hallowed, Bool.false_eq_true, if_false, hr]

/-- A trap at the issue changes no slice of its block. -/
theorem State.stopped_sl (s : State) (key : Nat) (f : Fields) (v : Visit) (t : Trap) (j : Nat) : (s.stopped key f v t).sl v.bid j = s.sl v.bid j := by
  obtain ⟨-, hs, -⟩ := s.takeTrap_frame v.bid t
  have hq : Quiet v.bid id [] (s.takeTrap v.bid t) (s.stopped key f v t) := .charge ..
  exact (hq.still j (by simp)).trans (hs j)

end Sys2Proof.Machine

open Sys2Proof Sys2Proof.Machine in
/-- Settles O54: the checks stand in their order, every instruction makes them, and a trap at the issue leaves its block's slices. -/
theorem noEffectAfterAFailedCheck : Obligations.NoEffectAfterAFailedCheck := by
  unfold Obligations.NoEffectAfterAFailedCheck
  refine ⟨fun key f s v => ?_, fun i key f s v t hi hv hc => exec_stop hi hv hc, fun key f s v t => ?_⟩
  · intro x s1 hd
    refine ⟨fun hx hp => ⟨_, Ctx.check_priv hd hx hp, rfl, rfl, rfl, rfl⟩, fun pre post i t hv hpre hi hp => ?_⟩
    have hfirst : firstSome (x.regRange (s.blk x.bid)) x.v.slices = some t := by
      rw [show x.v.slices = pre ++ i :: post from hv]
      exact firstSome_append_cons hpre hi
    obtain ⟨info, info2, rfl⟩ := Ctx.regRange_eq_some hi
    exact ⟨Ctx.check_regRange hd hp hfirst, rfl, rfl, rfl, rfl⟩
  · obtain ⟨hbare, -⟩ := s.stopped_frame key f v t
    exact ⟨hbare, s.stopped_sl key f v t⟩
end

section
/-! SUPPORT. Rounding of values that a format represents: exact ratios, the grid of a format, and the encoding of a grid point (R71, R72, R78). -/

namespace Sys2Proof.Machine

/-! ## Exact ratios -/

theorem log2_mul_two_pow {n : Nat} (h : n ≠ 0) (k : Nat) : (n * 2 ^ k).log2 = n.log2 + k := by
  rw [Nat.log2_eq_iff (by positivity), Nat.pow_add, Nat.add_right_comm, Nat.pow_add _ _ k]
  exact ⟨Nat.mul_le_mul_right _ (Nat.log2_self_le h), Nat.mul_lt_mul_of_pos_right Nat.lt_log2_self (Nat.two_pow_pos k)⟩

theorem pow2Nat_natCast (k : Nat) : pow2Nat (k : Int) = 2 ^ k := by simp [pow2Nat]

/-- Over a power of two, the logarithms of the numerator and the denominator alone give the logarithm of a ratio. -/
theorem ratioLog_two_pow {n : Nat} (h : n ≠ 0) (k : Nat) : ratioLog n (2 ^ k) = (n.log2 : Int) - k := by
  simp only [ratioLog, Nat.log2_two_pow]
  refine if_pos ?_
  have hn := Nat.log2_self_le h
  split
  next hl =>
    have hl : (n.log2 : Int) - k = (n.log2 - k : Nat) := by omega
    rw [hl, pow2Nat_natCast, ← Nat.pow_add, decide_eq_true_eq]
    rwa [show k + (n.log2 - k) = n.log2 by omega]
  next hl =>
    have hl : -((n.log2 : Int) - k) = (k - n.log2 : Nat) := by omega
    rw [hl, pow2Nat_natCast, decide_eq_true_eq]
    calc 2 ^ k = 2 ^ n.log2 * 2 ^ (k - n.log2) := by rw [← Nat.pow_add]; congr 1; omega
      _ ≤ n * 2 ^ (k - n.log2) := Nat.mul_le_mul_right _ hn

theorem Dy.ratio_of_nonneg {a : Dy} (h : 0 ≤ a.e) : a.ratio = (a.m.natAbs * pow2Nat a.e, 1) := if_pos h

theorem Dy.ratio_of_neg {a : Dy} (h : a.e < 0) : a.ratio = (a.m.natAbs, pow2Nat (-a.e)) := if_neg (by omega)

theorem Dy.ratio_fst_ne_zero {a : Dy} (h : a.m ≠ 0) : a.ratio.1 ≠ 0 := by
  have hm : a.m.natAbs ≠ 0 := Int.natAbs_ne_zero.2 h
  rcases lt_or_ge a.e 0 with he | he
  · rwa [Dy.ratio_of_neg he]
  · rw [Dy.ratio_of_nonneg he]
    exact Nat.mul_ne_zero hm (Nat.two_pow_pos _).ne'

/-- The logarithm of a dyadic value, taken of its numerator and denominator. -/
theorem ratioLog_ratio {a : Dy} (h : a.m ≠ 0) : ratioLog a.ratio.1 a.ratio.2 = a.log2 := by
  have hm : a.m.natAbs ≠ 0 := Int.natAbs_ne_zero.2 h
  rcases lt_or_ge a.e 0 with he | he
  · rw [Dy.ratio_of_neg he, pow2Nat, ratioLog_two_pow hm, Dy.log2]
    omega
  · have hne : a.m.natAbs * 2 ^ a.e.toNat ≠ 0 := Nat.mul_ne_zero hm (Nat.two_pow_pos _).ne'
    rw [Dy.ratio_of_nonneg he, pow2Nat, ← Nat.pow_zero 2, ratioLog_two_pow hne, log2_mul_two_pow hm, Dy.log2]
    omega

/-! ## Rounding at a grid point -/

/-- Nothing left over is never rounded up, in any mode. -/
theorem RMode.up_zero (rm : RMode) (neg : Bool) (t : Nat) {d : Nat} (h : 0 < d) : rm.up neg t 0 d = false := by
  cases rm with
  | rne => simp [RMode.up, h.ne]
  | _ => simp [RMode.up]

/-- The exponent of a format's least grid (R71). -/
def Fmt.emin (f : Fmt) : Int := 1 - (f.bias : Int) - (f.mb : Int)

/-- The value m * 2^e stands as a format writes it: below the width of a mantissa with its leading bit, and without that bit at the least exponent
alone (R71). -/
structure Fmt.OnGrid (f : Fmt) (m : Nat) (e : Int) : Prop where
  width : m < 2 ^ (f.mb + 1)
  least : f.emin ≤ e
  subnormal : m < 2 ^ f.mb → e = f.emin

/-- The encoding of a magnitude on the grid (R71). -/
def Fmt.magOf (f : Fmt) (m : Nat) (e : Int) : Nat :=
  if m < 2 ^ f.mb then m else (e - f.emin + 1).toNat * 2 ^ f.mb + (m - 2 ^ f.mb)

/-- The grid that rounding chooses for a value on the grid is its own. -/
theorem Fmt.OnGrid.unit {f : Fmt} {a : Dy} (h : f.OnGrid a.m.natAbs a.e) (hm : a.m ≠ 0) : max (a.log2 - f.mb) f.emin = a.e := by
  obtain ⟨hwidth, hleast, hsub⟩ := h
  have hm : a.m.natAbs ≠ 0 := Int.natAbs_ne_zero.2 hm
  have hlog := (Nat.log2_lt hm).2 hwidth
  rw [Dy.log2]
  by_cases hs : a.m.natAbs < 2 ^ f.mb
  · have hlow := (Nat.log2_lt hm).2 hs
    have he := hsub hs
    omega
  · have hhigh := (Nat.le_log2 hm).2 (Nat.le_of_not_lt hs)
    omega

/-- A magnitude on the grid is rounded to its own encoding, before overflow is considered (R78). -/
theorem Fmt.encMag_ratio {f : Fmt} {a : Dy} (h : f.OnGrid a.m.natAbs a.e) (hm : a.m ≠ 0) (rm : RMode) (neg : Bool) :
    f.encMag rm neg a.ratio.1 a.ratio.2 = f.magOf a.m.natAbs a.e := by
  have hu : max (ratioLog a.ratio.1 a.ratio.2 - (f.mb : Int)) (1 - (f.bias : Int) - (f.mb : Int)) = a.e := by
    rw [ratioLog_ratio hm]
    exact h.unit hm
  have hscaled : ∃ d, 0 < d ∧ (if 0 ≤ a.e then a.ratio.1 else a.ratio.1 * pow2Nat (-a.e)) = a.m.natAbs * d ∧
      (if 0 ≤ a.e then a.ratio.2 * pow2Nat a.e else a.ratio.2) = d := by
    rcases lt_or_ge a.e 0 with he | he
    · exact ⟨pow2Nat (-a.e), Nat.two_pow_pos _, by simp [he, Dy.ratio_of_neg he], by simp [he, Dy.ratio_of_neg he]⟩
    · exact ⟨pow2Nat a.e, Nat.two_pow_pos _, by simp [he, Dy.ratio_of_nonneg he], by simp [he, Dy.ratio_of_nonneg he]⟩
  obtain ⟨d, hd, hnum, hden⟩ := hscaled
  simp only [Fmt.encMag, hu, hnum, hden, Nat.mul_div_cancel _ hd, Nat.mul_mod_left, RMode.up_zero rm neg _ hd, Bool.false_eq_true, if_false,
    if_neg h.width.ne, Fmt.magOf, Fmt.emin]

/-! ## Decoded values -/

theorem Fmt.onGrid_subnormal {f : Fmt} {m : Nat} (h : m < 2 ^ f.mb) : f.OnGrid m f.emin :=
  ⟨h.trans (Nat.pow_lt_pow_right (by decide) (Nat.lt_succ_self f.mb)), le_refl f.emin, fun _ => rfl⟩

theorem Fmt.onGrid_normal {f : Fmt} {m ex : Nat} (h : m < 2 ^ f.mb) (hex : ex ≠ 0) : f.OnGrid (2 ^ f.mb + m) ((ex : Int) - f.bias - f.mb) :=
  ⟨by rw [Nat.pow_succ]; omega, by rw [Fmt.emin]; omega, fun hs => absurd hs (by omega)⟩

theorem Fmt.magOf_subnormal {f : Fmt} {m : Nat} (h : m < 2 ^ f.mb) (e : Int) : f.magOf m e = m := if_pos h

theorem Fmt.magOf_normal (f : Fmt) (m ex : Nat) : f.magOf (2 ^ f.mb + m) ((ex : Int) - f.bias - f.mb) = ex * 2 ^ f.mb + m := by
  have hexp : ((ex : Int) - f.bias - f.mb - f.emin + 1).toNat = ex := by rw [Fmt.emin]; omega
  rw [Fmt.magOf, if_neg (by omega), hexp, Nat.add_sub_cancel_left]

/-- An encoding is its magnitude and its sign bit. -/
theorem Fmt.mod_add_zero {f : Fmt} {c : Nat} (hw : 0 < f.w) (hc : c < 2 ^ f.w) : c % 2 ^ (f.w - 1) + f.zero (c.testBit (f.w - 1)) = c :=
  calc c % 2 ^ (f.w - 1) + f.zero (c.testBit (f.w - 1))
      = c % 2 ^ (f.w - 1) + 2 ^ (f.w - 1) * (c.testBit (f.w - 1)).toNat := by rw [Fmt.zero]; cases c.testBit (f.w - 1) <;> simp
    _ = c % 2 ^ (f.w - 1 + 1) := by rw [Nat.toNat_testBit, Nat.mod_pow_succ]
    _ = c := by rw [Nat.sub_add_cancel hw, Nat.mod_eq_of_lt hc]

/-- What decodes to a finite value is the encoding of its magnitude with its sign (R71). -/
theorem Fmt.decode_eq_fin {f : Fmt} {c m : Nat} {neg : Bool} {e : Int} (hw : 0 < f.w) (hc : c < 2 ^ f.w) (h : f.decode c = .fin neg m e) :
    f.OnGrid m e ∧ f.magOf m e ≤ f.maxEnc ∧ f.magOf m e + f.zero neg = c := by
  have hsign := Fmt.mod_add_zero hw hc
  simp only [Fmt.decode, Nat.mod_eq_of_lt hc] at h
  generalize c % 2 ^ (f.w - 1) = mag at h hsign
  have hfrac : mag % 2 ^ f.mb < 2 ^ f.mb := Nat.mod_lt _ (Nat.two_pow_pos _)
  have hmag : mag / 2 ^ f.mb * 2 ^ f.mb + mag % 2 ^ f.mb = mag := Nat.div_add_mod' mag (2 ^ f.mb)
  split at h
  next hmax =>
    split at h
    next hex =>
      obtain ⟨rfl, rfl, rfl⟩ := FVal.fin.inj h
      have henc : f.magOf (mag % 2 ^ f.mb) f.emin = mag := by rwa [Fmt.magOf_subnormal hfrac, ← Nat.zero_add (_ % _), ← Nat.zero_mul, ← hex]
      exact ⟨Fmt.onGrid_subnormal hfrac, henc.trans_le hmax, (congrArg (· + _) henc).trans hsign⟩
    next hex =>
      obtain ⟨rfl, rfl, rfl⟩ := FVal.fin.inj h
      have henc := (Fmt.magOf_normal f (mag % 2 ^ f.mb) (mag / 2 ^ f.mb)).trans hmag
      exact ⟨Fmt.onGrid_normal hfrac hex, henc.trans_le hmax, (congrArg (· + _) henc).trans hsign⟩
  next =>
    split at h <;> cases h

/-- A nonzero value on the grid, with its sign, is rounded to its encoding where that is at most the largest finite one (R78, R80). -/
theorem Fmt.round_fin {f : Fmt} {m : Nat} {e : Int} (h : f.OnGrid m e) (hm : m ≠ 0) (hmax : f.magOf m e ≤ f.maxEnc) (rm : RMode) (neg : Bool) :
    f.round rm (FVal.fin neg m e).dy = f.magOf m e + f.zero neg := by
  have habs : (FVal.fin neg m e).dy.m.natAbs = m := by cases neg <;> simp [FVal.dy]
  have hne : (FVal.fin neg m e).dy.m ≠ 0 := by rw [← Int.natAbs_ne_zero, habs]; exact hm
  have hsign : decide ((FVal.fin neg m e).dy.m < 0) = neg := by cases neg <;> simp [FVal.dy, Nat.pos_of_ne_zero hm]
  have hgrid : f.OnGrid (FVal.fin neg m e).dy.m.natAbs (FVal.fin neg m e).dy.e := by rw [habs]; exact h
  have henc := Fmt.encMag_ratio hgrid hne rm neg
  rw [habs, show (FVal.fin neg m e).dy.e = e from rfl] at henc
  simp only [Fmt.round, Fmt.roundRatio, hsign, if_neg (Dy.ratio_fst_ne_zero hne), henc, if_neg (Nat.not_lt.2 hmax)]

end Sys2Proof.Machine

open Sys2Proof Sys2Proof.Machine in
/-- Settles O30: a value that decodes stands on the format's grid, where rounding leaves nothing over. -/
theorem roundingKeepsRepresentableValues : Obligations.RoundingKeepsRepresentableValues := by
  unfold Obligations.RoundingKeepsRepresentableValues
  intro f hf rm c m neg e hc hdec hm
  have hwidth : ∀ f ∈ [Fmt.f32, Fmt.f16, Fmt.bf16, Fmt.e4m3, Fmt.e5m2], 0 < f.w := by decide
  obtain ⟨hgrid, hmax, henc⟩ := Fmt.decode_eq_fin (hwidth f hf) hc hdec
  rw [hdec, Fmt.round_fin hgrid hm hmax, henc]
end

section
/-! SUPPORT. The elements of an element-wise result, and a pattern read as an integer (R68, R118). -/

namespace Sys2Proof.Machine

theorem wrapTo_mod (w : Nat) (x : Int) : ((wrapTo w x % 2 ^ w : Nat) : Int) = x % 2 ^ w := by
  have hpos : (0 : Int) < 2 ^ w := by positivity
  have hcast : ((2 ^ w : Nat) : Int) = 2 ^ w := by simp
  rw [wrapTo, Int.natCast_mod, hcast, Int.toNat_of_nonneg (Int.emod_nonneg _ hpos.ne'), Int.emod_emod]

/-- Element j of a list made element by element of two words. -/
theorem getD_zipWith_elems {w j : Nat} (g : Nat → Nat → Nat) (a b : W32) (h : j < 32 / w) :
    (List.zipWith g (elems w a) (elems w b)).getD j 0 = g (elemAt w a j) (elemAt w b j) := by
  simp [List.getD_eq_getElem?_getD, elems, h]

/-- Element j of an element-wise integer operation. -/
theorem elemAt_intOp2 {ty : Ty} {j : Nat} (g : Nat → Int → Int → Int) (a b : W32) (h : j < 32 / ty.width) :
    (elemAt ty.width (intOp2 ty g a b) j : Int) =
      g ty.width (elemInt ty ty.width (elemAt ty.width a j)) (elemInt ty ty.width (elemAt ty.width b j)) % 2 ^ ty.width := by
  have hw : ty.width * (j + 1) ≤ 32 := Nat.le_trans (Nat.mul_le_mul_left _ h) (Nat.mul_div_le 32 _)
  rw [intOp2, elemAt_packElems _ hw, getD_zipWith_elems _ a b h, wrapTo_mod]

/-- A pattern of w bits as a two's-complement value. -/
theorem signedOf_of_lt {w x : Nat} (hw : 0 < w) (hx : x < 2 ^ w) : signedOf w x = if 2 ^ (w - 1) ≤ x then (x : Int) - 2 ^ w else x := by
  have hhalf : 2 ^ w = 2 * 2 ^ (w - 1) := by rw [← Nat.pow_succ', Nat.succ_eq_add_one, Nat.sub_add_cancel hw]
  simp only [signedOf, Nat.mod_eq_of_lt hx]
  by_cases h : 2 ^ (w - 1) ≤ x
  · rw [if_neg (by omega), if_pos h, Nat.cast_pow, Nat.cast_ofNat]
  · rw [if_pos (by omega), if_neg h]

theorem elemInt_of_lt {ty : Ty} {w x : Nat} (hw : 0 < w) (hx : x < 2 ^ w) :
    elemInt ty w x = if ty.signed ∧ 2 ^ (w - 1) ≤ x then (x : Int) - 2 ^ w else x := by
  rw [elemInt, signedOf_of_lt hw hx, Nat.mod_eq_of_lt hx]
  cases ty.signed <;> simp

end Sys2Proof.Machine

open Sys2Proof Sys2Proof.Machine in
/-- Settles O21: each element of the result, and each pattern as the integer it stands for. -/
theorem integerElementsWrap : Obligations.IntegerElementsWrap := by
  unfold Obligations.IntegerElementsWrap
  have hwidth : ∀ ty ∈ Ty.setB, 0 < ty.width := by decide
  exact ⟨fun ty _ g a b j hj => elemAt_intOp2 g a b hj, fun ty hty x hx => elemInt_of_lt (hwidth ty hty) hx⟩
end

section
/-! SUPPORT. How an instruction completes whose exec is one of the shared issues (R67). -/

namespace Sys2Proof.Machine

theorem Writes.of_regOp {c : FormR → Instr} {key : Nat} {val : Ctx → State → Nat → Nat → List W32}
    (h : ∀ f s, exec (c f) s = regOp key f val s) : Writes c key val := fun f s _ hi => (h f s).trans (regOp_next hi)

theorem Does.of_issueTry {c : FormR → Instr} {key : Nat} {bad : Ctx → State → Option Trap} {eff : Ctx → State → State}
    (h : ∀ f s, exec (c f) s = issueTry key (.r f) bad eff s) : Does c key bad eff :=
  fun f s _ hi => ⟨fun hb => (h f s).trans (issueTry_next hi hb), fun _ hb => (h f s).trans (issueTry_fail hi hb)⟩

end Sys2Proof.Machine

open Sys2Proof Sys2Proof.Machine in
/-- Settles O9: thirty of the instructions are register operations of their values, and DQNT an issue with its check of the codes. -/
theorem floatResults : Obligations.FloatResults := by
  unfold Obligations.FloatResults
  and_intros
  iterate 30 exact .of_regOp fun _ _ => rfl
  exact .of_issueTry fun _ _ => rfl
end

section
/-! SUPPORT. An instruction whose exec is the shared issue without checks, and the results of the integer, packed and cross-thread instructions
(R117 to R129, R144 to R155). -/

namespace Sys2Proof.Machine

theorem Always.of_issueAll {c : FormR → Instr} {key : Nat} {eff : Ctx → State → State} (h : ∀ f s, exec (c f) s = issueAll key (.r f) eff s) :
    Always c key eff := fun f s _ hi => (h f s).trans (issueAll_next hi)

/-- The same of an instruction of form L whose effect is the words that `val` gives for its fields. -/
theorem exec_written_formL {c : FormL → Instr} {key : Nat} {val : FormL → Ctx → State → Nat → Nat → List W32}
    (h : ∀ f s, exec (c f) s = issueAll key (.l f) (fun x s => x.put s (val f x s)) s) (f : FormL) (s : State) (v : Visit)
    (hi : Issues key (.l f) v s) : exec (c f) s = .next (s.written key (.l f) v (val f)) := (h f s).trans (issueAll_next hi)

/-- The state that a register instruction leaves is decided by its values in its own visit. -/
theorem State.written_congr {key : Nat} {f : Fields} {v : Visit} {s : State} {val val' : Ctx → State → Nat → Nat → List W32}
    (h : ∀ i t, val (Ctx.make key f v s) (s.opened key f v) i t = val' (Ctx.make key f v s) (s.opened key f v) i t) :
    s.written key f v val = s.written key f v val' := by
  have hv : val (Ctx.make key f v s) (s.opened key f v) = val' (Ctx.make key f v s) (s.opened key f v) := funext fun i => funext (h i)
  rw [State.written, State.written, hv]

end Sys2Proof.Machine

open Sys2Proof Sys2Proof.Machine in
/-- Settles O8: thirty-six of the instructions are register operations of their values, the divisions and the carries are issues with effects of their
own, and MOVI and MOVH are of form L. -/
theorem integerResults : Obligations.IntegerResults := by
  unfold Obligations.IntegerResults
  and_intros
  iterate 36 exact .of_regOp fun _ _ => rfl
  iterate 4 exact .of_issueAll fun _ _ => rfl
  · exact exec_written_formL (c := .movi) (val := fun f _ _ _ _ => [f.imm]) fun _ _ => rfl
  · exact exec_written_formL (c := .movh) (val := fun f x s i t => [x.a s i t, f.imm]) fun _ _ => rfl

open Sys2Proof Sys2Proof.Machine in
/-- Settles O10: all but V2P are register operations of their values, and V2P writes predicates alone. -/
theorem packedResults : Obligations.PackedResults := by
  unfold Obligations.PackedResults
  and_intros
  iterate 13 exact .of_regOp fun _ _ => rfl
  exact .of_issueAll fun _ _ => rfl

open Sys2Proof Sys2Proof.Machine in
/-- Settles O11: every one is a register operation of its value. -/
theorem crossThreadResults : Obligations.CrossThreadResults := by
  unfold Obligations.CrossThreadResults
  and_intros
  iterate 9 exact .of_regOp fun _ _ => rfl
end

section
/-! SUPPORT. Words whose MOD no row assigns stand for no instruction (R48, R67). -/

namespace Sys2Proof.Machine

/-- The key of a word is its opcode, but for REFILL, which alone has two rows (R204). -/
theorem wordKey_of_opcode {w : W96} {n : BitVec 9} (h : w.extractLsb' 0 9 = n) (hn : n ≠ 0x00C) : wordKey w = n.toNat := by
  have h12 : ¬(n.toNat = 0x00C ∧ (w.extractLsb' 13 6).getLsbD 2 = true) := fun hc => hn (BitVec.eq_of_toNat_eq hc.1)
  rw [wordKey, opKey, h, if_neg h12]

/-- The row's bound on MOD fails a word at or above it. -/
theorem commonFault_of_below {row : OpRow} {c : Common} {m : Nat} (hm : row.md = .below m) (h : m ≤ c.md.toNat) : commonFault row c ≠ none :=
  fun hc => by
    have hok := modOk_of_commonFault hc
    rw [hm] at hok
    exact absurd (of_decide_eq_true hok) (Nat.not_lt.2 h)

variable {w : W96} {n : BitVec 9} {row : OpRow} {m : Nat} (hop : w.extractLsb' 0 9 = n) (hn : n ≠ 0x00C) (hr : opRow? n.toNat = some row)
  (hm : row.md = .below m) (h : m ≤ (w.extractLsb' 13 6).toNat)
include hop hn hr hm h

theorem decode_ne_ok_of_below (i : Instr) : decode w ≠ .ok i := fun hd => by
  obtain ⟨row', f, hr', -, -, hc, -⟩ := decode_eq_ok.1 hd
  rw [wordKey_of_opcode hop hn, hr] at hr'
  obtain rfl := Option.some.inj hr'
  exact commonFault_of_below hm h hc

/-- Under a type that the row accepts such a word fails check 4 (R67). -/
theorem decode_illegalEncoding_of_below (hty : (Common.decode w).ty ∈ row.types) : ∃ k, decode w = .error (.illegalEncoding k) := by
  obtain ⟨k, hk⟩ := Option.ne_none_iff_exists'.1 (commonFault_of_below (c := Common.decode w) hm h)
  have hkey := wordKey_of_opcode hop hn
  rw [wordKey] at hkey
  simp only [decode, hkey, hr, hk, hty, not_true, if_false]
  split
  · exact ⟨3, rfl⟩
  · exact ⟨k, rfl⟩

end Sys2Proof.Machine
end

section
/-! SUPPORT. Quotients, remainders and carries (R120, R121). -/

namespace Sys2Proof.Machine

/-! ## Division (R120) -/

variable {a b : W32}

theorem divRem_unsigned (hb : b ≠ 0) : divRem false a b = (a / b, a % b) := by
  simp only [divRem, if_neg hb, Bool.false_eq_true, if_false, ← BitVec.toNat_udiv, ← BitVec.toNat_umod, BitVec.ofNat_toNat, BitVec.setWidth_eq]

/-- Within range the quotient and the remainder are those of a division that truncates toward zero. -/
theorem divRem_signed (hb : b ≠ 0) (ho : ¬(a = 0x80000000 ∧ b = 0xFFFFFFFF)) : divRem true a b = (a.sdiv b, a.srem b) := by
  have hne : a ≠ BitVec.intMin 32 ∨ b ≠ -1#32 := not_and_or.1 ho
  simp only [divRem, if_neg hb, if_true, if_neg ho, ← BitVec.toInt_sdiv_of_ne_or_ne a b hne, ← BitVec.toInt_srem, BitVec.ofInt_toInt]

/-- A remainder that truncates toward zero has its dividend's sign. -/
theorem tmod_nonneg_iff (x y : Int) : 0 ≤ x.tmod y ↔ 0 ≤ x ∨ x.tmod y = 0 := by
  constructor
  · intro h
    rcases Int.le_total 0 x with hx | hx
    · exact .inl hx
    · have hneg := Int.tmod_nonneg y (Int.neg_nonneg_of_nonpos hx)
      rw [Int.neg_tmod] at hneg
      exact .inr (by omega)
  · rintro (hx | hx)
    · exact Int.tmod_nonneg y hx
    · exact hx.ge

end Sys2Proof.Machine

open Sys2Proof Sys2Proof.Machine in
/-- Settles O22: without a sign by the quotient of naturals, with one by the truncating division of bit vectors, and the exceptions by their own
branch. -/
theorem divisionGivesAResult : Obligations.DivisionGivesAResult := by
  unfold Obligations.DivisionGivesAResult
  refine ⟨fun a b hb => ?_, fun a => rfl, fun a => rfl, rfl, fun a b hb ho => ?_⟩
  · rw [divRem_unsigned hb]
    exact ⟨BitVec.toNat_udiv, BitVec.toNat_umod⟩
  · have hne : a ≠ BitVec.intMin 32 ∨ b ≠ -1#32 := not_and_or.1 ho
    have hb0 : b.toInt ≠ 0 := fun h => hb (BitVec.eq_of_toInt_eq h)
    have hzero : a.srem b = 0 ↔ a.toInt.tmod b.toInt = 0 := by rw [← BitVec.toInt_srem, ← BitVec.toInt_inj]; rfl
    simp only [divRem_signed hb ho, hzero, BitVec.toInt_sdiv_of_ne_or_ne a b hne, BitVec.toInt_srem]
    refine ⟨Int.tdiv_mul_add_tmod _ _, ?_, tmod_nonneg_iff _ _⟩
    rw [Int.natAbs_tmod]
    exact Nat.mod_lt _ (Int.natAbs_pos.2 hb0)
end

section
/-! SUPPORT. The addition and the subtraction through a predicate (R121). -/

namespace Sys2Proof.Machine

/-- The predicate of MOD[2:0] gives the carry in and takes the carry out, but p7 neither. -/
theorem carryInstr_next {key : Nat} {f : FormR} {v : Visit} {s : State} (g : W32 → W32 → Bool → W32 × Bool) (hi : Issues key (.r f) v s) :
    let x := Ctx.make key (.r f) v s
    let s1 := s.opened key (.r f) v
    let n := f.md.toNat % 8
    let r := fun (i t : Nat) => g (x.a s1 i t) (x.b s1 i t) (decide (n ≠ 7 ∧ (s1.sl v.bid i).pred n t = true))
    carryInstr key g f s = .next (s.closed key (.r f) v (x.put s1 (fun i t => [(r i t).1])
      (fun i t => if n = 7 then [] else [{ dest := .pred n t, mask := 0xFFFFFFFF, val := predWord (r i t).2 }]))) := by
  intro x s1 n r
  have hin : ∀ i t, decide (n ≠ 7 ∧ (s1.sl v.bid i).pred n t = true) = (decide (x.mod 2 0 ≠ 7) && x.modPred s1 i t) := fun i t => by
    rw [Bool.decide_and, Bool.decide_eq_true]
    rfl
  simp only [r, hin]
  exact issueAll_next hi

end Sys2Proof.Machine

open Sys2Proof Sys2Proof.Machine in
/-- Settles O23: each is the addition or subtraction of its operands and the carry in, and MOD is below 8 in both rows. -/
theorem carryThroughAPredicate : Obligations.CarryThroughAPredicate := by
  unfold Obligations.CarryThroughAPredicate
  refine ⟨fun w hop hmd => ?_, fun f s v => ⟨fun hi => (carryInstr_next addCarry hi).trans ?_, fun hi => (carryInstr_next subBorrow hi).trans ?_⟩⟩
  · rcases hop with hop | hop
    · exact decode_ne_ok_of_below hop (by decide) rfl rfl hmd
    · exact decode_ne_ok_of_below hop (by decide) rfl rfl hmd
  · simp only [addCarry, predWord, decide_eq_true_eq]
  · simp only [subBorrow, predWord, decide_eq_true_eq]
end

section
/-! SUPPORT. Shifted elements (R122). -/

namespace Sys2Proof.Machine

variable {w : Nat}

theorem wrapTo_natCast {y : Nat} (h : y < 2 ^ w) : wrapTo w (y : Int) = y := by
  rw [wrapTo, ← Int.natCast_mod, Nat.mod_eq_of_lt h, Int.toNat_natCast]

/-- A negative integer that stands y above -2^w is y modulo 2^w. -/
theorem wrapTo_sub_two_pow {y : Nat} (h : y < 2 ^ w) : wrapTo w ((y : Int) - 2 ^ w) = y := by
  have hcast : (y : Int) - 2 ^ w = (y : Int) - ((2 ^ w : Nat) : Int) := by rw [Nat.cast_pow, Nat.cast_ofNat]
  rw [hcast, wrapTo, Int.sub_emod_right, ← wrapTo, wrapTo_natCast h]

/-- Element j of an operation on bit patterns. -/
theorem elemAt_bitOp2 {j : Nat} (g : Nat → Nat → Nat) (a b : W32) (h : j < 32 / w) :
    elemAt w (bitOp2 w g a b) j = g (elemAt w a j) (elemAt w b j) % 2 ^ w := by
  have hw : w * (j + 1) ≤ 32 := Nat.le_trans (Nat.mul_le_mul_left w h) (Nat.mul_div_le 32 w)
  rw [bitOp2, elemAt_packElems _ hw, getD_zipWith_elems g a b h]

theorem elemAt_lt (a : W32) (j : Nat) : elemAt w a j < 2 ^ w := Nat.mod_lt _ (Nat.two_pow_pos w)

theorem shlElem_mod (e c : Nat) : shlElem w e c % 2 ^ w = if c < w then e * 2 ^ c % 2 ^ w else 0 := by
  rw [shlElem, Nat.shiftLeft_eq]
  split
  · exact Nat.mod_mod _ _
  · exact Nat.zero_mod _

theorem shrElem_mod {e : Nat} (he : e < 2 ^ w) (c : Nat) : shrElem w e c % 2 ^ w = if c < w then e / 2 ^ c else 0 := by
  rw [shrElem, Nat.shiftRight_eq_div_pow]
  split
  · exact Nat.mod_eq_of_lt (Nat.lt_of_le_of_lt (Nat.div_le_self e _) he)
  · exact Nat.zero_mod _

/-- A count at or above the width shifts as the width does. -/
theorem sarElem_eq {e : Nat} (hw : 0 < w) (he : e < 2 ^ w) (c : Nat) :
    sarElem w e c = if 2 ^ (w - 1) ≤ e then e / 2 ^ min c w + (2 ^ w - 2 ^ (w - min c w)) else e / 2 ^ min c w := by
  have hk : (if c < w then c else w) = min c w := by split <;> omega
  rw [sarElem, hk, signedOf_of_lt hw he]
  have hle : min c w ≤ w := Nat.min_le_right c w
  generalize min c w = k at hle ⊢
  have hsplit : 2 ^ w = 2 ^ (w - k) * 2 ^ k := by rw [← Nat.pow_add, Nat.sub_add_cancel hle]
  have hlow : e / 2 ^ k < 2 ^ (w - k) := Nat.div_lt_of_lt_mul (by rwa [Nat.mul_comm, ← hsplit])
  have hpow : 2 ^ (w - k) ≤ 2 ^ w := Nat.pow_le_pow_right (by decide) (Nat.sub_le w k)
  split
  · have hfill : ((e : Int) - 2 ^ w) / 2 ^ k = ((e / 2 ^ k + (2 ^ w - 2 ^ (w - k)) : Nat) : Int) - 2 ^ w := by
      have hdiv : ((e : Int) - 2 ^ w) / 2 ^ k = (e : Int) / 2 ^ k - 2 ^ (w - k) := by
        rw [show (2 : Int) ^ w = 2 ^ (w - k) * 2 ^ k by exact_mod_cast hsplit, Int.sub_mul_ediv_right _ _ (by positivity)]
      rw [hdiv]
      push_cast [hpow]
      ring
    rw [hfill, wrapTo_sub_two_pow (by omega)]
  · have hcast : (e : Int) / 2 ^ k = ((e / 2 ^ k : Nat) : Int) := by push_cast; rfl
    rw [hcast, wrapTo_natCast (Nat.lt_of_le_of_lt (Nat.div_le_self e _) he)]

theorem sarElem_mod {e : Nat} (hw : 0 < w) (he : e < 2 ^ w) (c : Nat) : sarElem w e c % 2 ^ w =
    if 2 ^ (w - 1) ≤ e then (if c < w then e / 2 ^ c + (2 ^ w - 2 ^ (w - c)) else 2 ^ w - 1) else (if c < w then e / 2 ^ c else 0) := by
  have hlt : sarElem w e c < 2 ^ w := by
    rw [sarElem, wrapTo, ← Nat.cast_lt (α := Int), Int.toNat_of_nonneg (Int.emod_nonneg _ (by positivity))]
    exact Int.emod_lt_of_pos _ (by positivity)
  rw [Nat.mod_eq_of_lt hlt, sarElem_eq hw he]
  by_cases hc : c < w
  · simp only [Nat.min_eq_left hc.le, hc, if_true]
  · simp only [Nat.min_eq_right (Nat.le_of_not_lt hc), hc, if_false, Nat.div_eq_of_lt he, Nat.sub_self, Nat.pow_zero, Nat.zero_add]

end Sys2Proof.Machine

open Sys2Proof Sys2Proof.Machine in
/-- Settles O24: each element of a shift by its count, and ROT as a register operation of its rotated word. -/
theorem shiftsByAnyCount : Obligations.ShiftsByAnyCount := by
  unfold Obligations.ShiftsByAnyCount
  refine ⟨?_, Writes.of_regOp (c := .rot) fun _ _ => rfl⟩
  intro w hw a b j hj e c
  have hpos : 0 < w := (by decide : ∀ w ∈ [8, 16, 32], 0 < w) w hw
  refine ⟨?_, ?_, ?_⟩
  · rw [elemAt_bitOp2 _ a b hj, shlElem_mod]
  · rw [elemAt_bitOp2 _ a b hj, shrElem_mod (elemAt_lt a j)]
  · rw [elemAt_bitOp2 _ a b hj, sarElem_mod hpos (elemAt_lt a j)]
end

section
/-! SUPPORT. The elements that an integer compare writes (R127, R128). -/

namespace Sys2Proof.Machine

theorem wrapTo_truth {w : Nat} (p : Prop) [Decidable p] : wrapTo w (if p then -1 else 0) = if p then 2 ^ w - 1 else 0 := by
  have hones : (-1 : Int) = ((2 ^ w - 1 : Nat) : Int) - 2 ^ w := by
    push_cast [Nat.one_le_two_pow]
    ring
  split
  · rw [hones, wrapTo_sub_two_pow (Nat.sub_lt (Nat.two_pow_pos w) Nat.one_pos)]
  · exact wrapTo_natCast (Nat.two_pow_pos w)

/-- An element-wise truth: all ones or zero in each element. -/
theorem intOp2_truth (ty : Ty) (p : Int → Int → Bool) (a b : W32) : intOp2 ty (fun _ x y => if p x y then -1 else 0) a b =
    packElems ty.width ((List.range (32 / ty.width)).map (fun j =>
      if p (elemInt ty ty.width (elemAt ty.width a j)) (elemInt ty ty.width (elemAt ty.width b j)) then 2 ^ ty.width - 1 else 0)) := by
  simp only [intOp2, elems, wrapTo_truth, List.zipWith_map_left, List.zipWith_map_right, List.zipWith_self]

theorem itst_writes : Writes .itst 0x063 (fun x s i t =>
    [predWord (intCond (x.mod 2 0) (elemInt x.ty 32 (x.a s i t).toNat) (elemInt x.ty 32 (x.b s i t).toNat))]) := .of_regOp fun _ _ => rfl

theorem icmp_writes : Writes .icmp 0x064 (fun x s i t =>
    [intOp2 x.ty (fun _ a b => if intCond (x.mod 2 0) a b then -1 else 0) (x.a s i t) (x.b s i t)]) := .of_regOp fun _ _ => rfl

end Sys2Proof.Machine

open Sys2Proof Sys2Proof.Machine in
/-- Settles O25: each code by its branch, each compare by its truth, and MOD is below 6 in both rows. -/
theorem integerCompareConditions : Obligations.IntegerCompareConditions := by
  unfold Obligations.IntegerCompareConditions
  refine ⟨fun a b => ?_, fun f s v hi => ?_, fun f s v hi => ?_, fun w hop hmd => ?_⟩
  · simp [intCond]
  · exact (itst_writes f s v hi).trans (congrArg _ (State.written_congr fun _ _ => rfl))
  · refine (icmp_writes f s v hi).trans (congrArg _ (State.written_congr fun i t => ?_))
    exact congrArg (fun y => [y]) (intOp2_truth f.ty (intCond (f.md.toNat % 8)) _ _)
  · rcases hop with hop | hop
    · exact ⟨decode_ne_ok_of_below hop (by decide) rfl rfl hmd, decode_illegalEncoding_of_below hop (by decide) rfl rfl hmd⟩
    · have hsub : ∀ ty ∈ [Ty.i32, .n32], ty ∈ Ty.setB := by decide
      exact ⟨decode_ne_ok_of_below hop (by decide) rfl rfl hmd, fun hty =>
        decode_illegalEncoding_of_below hop (by decide) rfl rfl hmd (hsub _ hty)⟩
end

section
/-! SUPPORT. Decoded values as rational numbers, and the order of the floating-point compares (R71, R133). -/

namespace Sys2Proof.Machine

/-! ## Dyadic values -/

/-- The rational number that a dyadic value stands for. -/
def Dy.val (a : Dy) : ℚ := a.m * 2 ^ a.e

theorem Dy.val_neg (a : Dy) : a.neg.val = -a.val := by simp [Dy.val, Dy.neg]

/-- An exponent above another, met by scaling the integer. -/
theorem pow2Nat_mul_zpow {e e' : Int} (h : e' ≤ e) : (pow2Nat (e - e') : ℚ) * 2 ^ e' = 2 ^ e := by
  have hk : ((e - e').toNat : Int) = e - e' := Int.toNat_of_nonneg (by omega)
  rw [pow2Nat, Nat.cast_pow, Nat.cast_ofNat, ← zpow_natCast, hk, ← zpow_add₀ two_ne_zero, sub_add_cancel]

theorem Dy.val_add (a b : Dy) : (a.add b).val = a.val + b.val := by
  rw [Dy.add]
  split
  next ha => simp [Dy.val, ha]
  next ha =>
    split
    next hb => simp [Dy.val, hb]
    next hb =>
      simp only [Dy.val]
      push_cast
      rw [add_mul, mul_assoc, mul_assoc, pow2Nat_mul_zpow (min_le_left _ _), pow2Nat_mul_zpow (min_le_right _ _)]

theorem Dy.val_neg_iff (a : Dy) : a.val < 0 ↔ a.m < 0 := by
  rw [Dy.val, mul_neg_iff]
  have hpos : (0 : ℚ) < 2 ^ a.e := by positivity
  simp [hpos, hpos.not_gt]

/-- The order of dyadic values is that of the rational numbers. -/
theorem Dy.lt_iff (a b : Dy) : a.lt b = true ↔ a.val < b.val := by
  rw [Dy.lt, decide_eq_true_eq, ← Dy.val_neg_iff, Dy.sub, Dy.val_add, Dy.val_neg, ← sub_eq_add_neg, sub_neg]

/-! ## Comparisons -/

theorem FVal.val_of_isZero {x : FVal} (h : x.isZero = true) : x.dy.val = 0 := by
  cases x with
  | fin neg m e =>
    obtain rfl : m = 0 := by simpa [FVal.isZero] using h
    cases neg <;> simp [FVal.dy, Dy.val]
  | _ => cases h

variable {p q : Bool} {m n : Nat} {e k : Int}

theorem FVal.val_fin : (FVal.fin p m e).dy.val = (if p then -(m : ℚ) else m) * 2 ^ e := by
  cases p <;> simp [FVal.dy, Dy.val]

/-- Zeros of either sign are equal in a compare, and other finite values stand in the order of the rational numbers. -/
theorem fLess_fin : fLess false (.fin p m e) (.fin q n k) = true ↔ (FVal.fin p m e).dy.val < (FVal.fin q n k).dy.val := by
  simp only [fLess]
  split
  next hz =>
    obtain ⟨hx, hy⟩ := Bool.and_eq_true_iff.1 hz
    simp [FVal.val_of_isZero hx, FVal.val_of_isZero hy]
  next => exact Dy.lt_iff _ _

/-- Of two operands that are no NaN at most one is less than the other. -/
theorem fLess_asymm {x y : FVal} (h : (x.isNan || y.isNan) = false) (hlt : fLess false x y = true) : fLess false y x = false := by
  obtain ⟨hx, hy⟩ := Bool.or_eq_false_iff.1 h
  cases x with
  | nan b => cases hx
  | inf p =>
    cases y with
    | nan b => cases hy
    | inf q =>
      obtain ⟨rfl, -⟩ := Bool.and_eq_true_iff.1 hlt
      exact Bool.and_false q
    | fin q n k =>
      obtain rfl : p = true := hlt
      rfl
  | fin p m e =>
    cases y with
    | nan b => cases hy
    | inf q => exact (Bool.not_eq_true' q).mp hlt
    | fin q n k => exact Bool.eq_false_iff.2 fun hgt => absurd (fLess_fin.1 hlt) (not_lt.2 (fLess_fin.1 hgt).le)

/-- The codes of R133 under a NaN. -/
theorem fCond_of_nan {a b : Nat} (h : ((Fmt.f32.decode a).isNan || (Fmt.f32.decode b).isNan) = true) {c : Nat} (hc : c < 8) :
    fCond c a b = decide (c = 1 ∨ c = 6) := by
  simp only [fCond, h, Bool.not_true, Bool.false_and, Bool.true_or]
  revert c
  decide

/-- The codes of R133 over two operands that are no NaN, by the order of the two. -/
structure FCondOrdered (a b : Nat) (less greater : Bool) : Prop where
  eq : fCond 0 a b = (!less && !greater)
  ne : fCond 1 a b = (less || greater)
  lt : fCond 2 a b = less
  le : fCond 3 a b = !greater
  gt : fCond 4 a b = greater
  ge : fCond 5 a b = !less
  nan : fCond 6 a b = false
  num : fCond 7 a b = true

theorem fCond_ordered {a b : Nat} (h : ((Fmt.f32.decode a).isNan || (Fmt.f32.decode b).isNan) = false) :
    FCondOrdered a b (fLess false (Fmt.f32.decode a) (Fmt.f32.decode b)) (fLess false (Fmt.f32.decode b) (Fmt.f32.decode a)) := by
  constructor <;> simp [fCond, h]

theorem fCond_decoded {a b : Nat} {x y : FVal} (hx : Fmt.f32.decode a = x) (hy : Fmt.f32.decode b = y) (h : (x.isNan || y.isNan) = false) :
    FCondOrdered a b (fLess false x y) (fLess false y x) := by
  subst hx hy
  exact fCond_ordered h

theorem ftst_writes : Writes .ftst 0x086 (fun x s i t => [predWord (fCond (x.mod 2 0) (x.a s i t).toNat (x.b s i t).toNat)]) :=
  .of_regOp fun _ _ => rfl

theorem fcmp_writes : Writes .fcmp 0x087 (fun x s i t => [if fCond (x.mod 2 0) (x.a s i t).toNat (x.b s i t).toNat then 0xFFFFFFFF else 0]) :=
  .of_regOp fun _ _ => rfl

end Sys2Proof.Machine

open Sys2Proof Sys2Proof.Machine in
/-- Settles O29: the codes follow from the order of the two operands, which is that of their rational values between two finite ones. -/
theorem floatCompareConditions : Obligations.FloatCompareConditions := by
  unfold Obligations.FloatCompareConditions
  intro val
  refine ⟨fun a b h c hc => fCond_of_nan h hc, fun a b m n p q e k ha hb => ?_, fun a b m p q e ha hb => ?_, fun a b p q ha hb => ?_, fun a b h => ?_,
    fun w hop hmd => ?_, fun f s v hi => ?_, fun f s v hi => ?_⟩
  · obtain ⟨h0, h1, h2, h3, h4, h5, h6, h7⟩ := fCond_decoded ha hb rfl
    have hlt : fLess false (.fin p m e) (.fin q n k) = true ↔ val p m e < val q n k := by rw [fLess_fin, FVal.val_fin, FVal.val_fin]
    have hgt : fLess false (.fin q n k) (.fin p m e) = true ↔ val q n k < val p m e := by rw [fLess_fin, FVal.val_fin, FVal.val_fin]
    refine ⟨?_, ?_, ?_, ?_, ?_, ?_, h6, h7⟩
    · rw [h0, Bool.and_eq_true_iff, Bool.not_eq_true', Bool.not_eq_true', ← Bool.not_eq_true, ← Bool.not_eq_true, hlt, hgt, not_lt, not_lt, and_comm,
        ← le_antisymm_iff]
    · rw [h1, Bool.or_eq_true_iff, hlt, hgt, ne_iff_lt_or_gt]
    · rw [h2, hlt]
    · rw [h3, Bool.not_eq_true', ← Bool.not_eq_true, hgt, not_lt]
    · rw [h4, hgt]
    · rw [h5, Bool.not_eq_true', ← Bool.not_eq_true, hlt, not_lt]
  · obtain ⟨h0, -, h2, -, h4, -, -, -⟩ := fCond_decoded ha hb rfl
    obtain ⟨-, -, h2', -, h4', -, -, -⟩ := fCond_decoded hb ha rfl
    exact ⟨h2, h4, h0.trans (by cases p <;> rfl), h2', h4'⟩
  · obtain ⟨h0, -, h2, -, h4, -, -, -⟩ := fCond_decoded ha hb rfl
    exact ⟨h0.trans (by cases p <;> cases q <;> rfl), h2, h4.trans (Bool.and_comm _ _)⟩
  · obtain ⟨h0, h1, h2, h3, h4, h5, h6, h7⟩ := fCond_ordered h
    have hasymm := fLess_asymm h
    rw [h0, h1, h2, h3, h4, h5]
    generalize fLess false (Fmt.f32.decode a) (Fmt.f32.decode b) = lt at hasymm
    generalize fLess false (Fmt.f32.decode b) (Fmt.f32.decode a) = gt at hasymm
    revert hasymm
    cases lt <;> cases gt <;> simp [h6, h7]
  · rcases hop with hop | hop
    · exact decode_ne_ok_of_below hop (by decide) rfl rfl hmd
    · exact decode_ne_ok_of_below hop (by decide) rfl rfl hmd
  · exact (ftst_writes f s v hi).trans (congrArg _ (State.written_congr fun _ _ => rfl))
  · exact (fcmp_writes f s v hi).trans (congrArg _ (State.written_congr fun _ _ => rfl))
end

section
/-! SUPPORT. The memory system's events: the branch that each takes under the conditions that choose it. -/

namespace Sys2Proof.Machine

variable {s : State}

/-! ## MEMORY_OP_COMPLETE (R168) -/

theorem exec_memoryOpComplete {bid i op : Nat} {m : Mop} {t : State} (hm : (s.sl bid i).mops.find? (fun m => m.id == op) = some m)
    (ht : s.mopStep bid i m = some t) : exec (.memoryOpComplete bid i op) s = .next t :=
  next_getD (o := s.opStep bid i op) (by simp only [State.opStep, hm, ht])

theorem MopKind.of_memory {k : MopKind} (h : k.memory = true) : k ≠ .divide ∧ k.bench = false := by
  cases k <;> simp_all [MopKind.memory, MopKind.bench]

section
variable {bid i : Nat} {m : Mop} (ha : m.absent = false) (hb : (s.sl bid i).blocks m = false) (hp : s.signPending bid m.iss = false)
include ha hb hp

/-- At its accesses an operation of memory that nothing holds back performs them. -/
theorem State.mopStep_accesses (hk : m.kind.memory = true) (hg : m.stage = 4 ∧ s.groupHeld bid m = false ∨ m.stage = 5) :
    s.mopStep bid i m = s.performOp (s.blk bid).core bid i m := by
  obtain ⟨hd, hn⟩ := MopKind.of_memory hk
  rcases hg with ⟨h4, hg⟩ | h5
  · simp [State.mopStep, ha, hb, hp, hd, hn, h4, hg]
  · simp [State.mopStep, ha, hb, hp, hd, hn, h5]

theorem State.mopStep_bench (hk : m.kind.bench = true) (hd : m.kind ≠ .divide) : s.mopStep bid i m = s.benchStep bid i m := by
  simp only [State.mopStep, ha, hb, hp, hk, hd, decide_false, Bool.or_self, Bool.false_eq_true, if_false, if_true]

end

section
variable {core bid i : Nat} {m : Mop}

/-- An operation that goes access by access finishes once every access is performed. -/
theorem State.performOp_done
    (hk : m.kind = .load ∨ m.kind = .atom ∨ m.kind = .acas ∨ m.kind = .red ∨ m.kind = .redrd ∨ m.kind = .reddcl ∨ m.kind = .pref)
    (hd : m.accs.all (fun a => a.done) = true) : s.performOp core bid i m = some (s.finishOp core bid i m) := by
  rcases hk with hk | hk | hk | hk | hk | hk | hk
  all_goals simp only [State.performOp, hk, hd, if_true]

/-- An operation without accesses of its own finishes. -/
theorem State.performOp_order (hk : m.kind = .fence ∨ m.kind = .tfence ∨ m.kind = .ifence ∨ m.kind = .sign) :
    s.performOp core bid i m = some (s.finishOp core bid i m) := by
  rcases hk with hk | hk | hk | hk
  all_goals simp only [State.performOp, hk]

/-- A store finishes once its instruction's stores are performed and its writes are acknowledged, and on a WO line tested. -/
theorem State.performOp_store (hk : m.kind = .store) (h5 : m.stage = 5) (hg : s.groupOpen bid m = false)
    (hn : s.netw.any (fun w => w.src.op == m.id && w.src.bid == bid) = false)
    (hw : s.l2w.any (fun w => w.wo && w.src.op == m.id && w.src.bid == bid) = false) :
    s.performOp core bid i m = some (s.finishOp core bid i m) := by
  simp only [State.performOp, hk, h5, hg, hn, hw, Bool.or_self, Bool.false_eq_true, if_false, if_true]

theorem State.performOp_redf (hk : m.kind = .redf) (h5 : m.stage = 5) (hq : s.addQ.any (fun d => d.src.op == m.id && d.src.bid == bid) = false) :
    s.performOp core bid i m = some (s.finishOp core bid i m) := by
  simp only [State.performOp, hk, h5, hq, Bool.false_eq_true, if_false, if_true]

theorem State.performOp_harvest (hk : m.kind = .harvest) : s.performOp core bid i m = some ((s.harvest m.arg).finishOp core bid i m) := by
  simp only [State.performOp, hk]

/-- A range operation of the L1 alone finishes once its write-backs are acknowledged. -/
theorem State.performOp_range (hk : m.kind = .rwb ∨ m.kind = .rinv ∨ m.kind = .rwbi) (h5 : m.stage = 5) (h0 : m.arg = 0)
    (hr : m.accs.any (fun a => s.rangePending core m.bar false a) = false) : s.performOp core bid i m = some (s.finishOp core bid i m) := by
  rcases hk with hk | hk | hk
  all_goals simp only [State.performOp, hk, h5, h0, hr, Nat.zero_ne_one, decide_false, Bool.false_eq_true, if_false, if_true]

theorem State.benchStep_free (h0 : (s.blk bid).benchOps m.iss = [])
    (hh : m.accs.any (fun a => s.benchHeld bid m.iss a.ea a.bytes (decide (m.kind ≠ .ldb))) = false) :
    let s1 := (m.accs.mapIdx (fun k a => (k, a))).foldl (fun s p => s.benchAccess bid i m p.1 p.2) s
    let m1 := ((s1.sl bid i).mops.find? (fun y => y.id == m.id)).getD m
    s.benchStep bid i m = some (s1.endOp bid i m1 m1.outcome) := by
  simp only [State.benchStep, h0, hh, List.isEmpty_nil, Bool.not_true, Bool.or_self, Bool.false_eq_true, if_false]

end

/-! ## The caches and memory (R287, R288, R293, R306) -/

theorem State.flushL1_held {core line : Nat} {x : L1Line} (h : (s.core core).l1Find line = some x) :
    s.flushL1 core line = (s.writeBackL1 core x (BitVec.allOnes 128)).modCore core (fun c => c.dropL1 line) := by
  simp only [State.flushL1, h]

theorem exec_l1ParityError {core line byte : Nat} {x : L1Line} (h : (s.core core).l1Find line = some x) (hb : byte < 128) :
    exec (.l1ParityError core line byte) s = .next (s.modCore core (fun c => c.setL1 (if x.dirty.getLsbD byte = true
      then { x with poison := x.poison ||| spanMask byte 1 } else { x with valid := x.valid &&& ~~~(1#4 <<< (byte / 32)) }))) := by
  simp only [exec, execL1ParityError, h, hb, true_and, if_true]
  cases hd : x.dirty.getLsbD byte
  · simp only [Bool.false_eq_true, if_false]
  · simp only [if_true]

/-- A write that no earlier one of its line and no pin holds back is taken into its slice. -/
theorem State.l2Receive_accepted {n : Nat} {w : MWrite} (hn : s.netw[n]? = some w) (hh : w.home = false) (hp : s.pinned w.line w.kid = false)
    (he : ∀ y ∈ s.netw.take n, ¬(y.sl = w.sl ∧ y.line = w.line ∧ y.kid = w.kid)) :
    s.l2Receive n = some (({ s with netw := s.netw.eraseIdx n } : State).acceptL2 w) := by
  have hany : (s.netw.take n).any (fun y => y.sl == w.sl && y.line == w.line && y.kid == w.kid) = false :=
    List.any_eq_false.2 fun y hy => by simpa [and_assoc] using he y hy
  simp only [State.l2Receive, hn, hp, hany, hh, Bool.or_self, Bool.false_eq_true, if_false]

section
variable {w : MWrite}

/-- Where the slice may write the line, what it has acknowledged is applied. -/
theorem State.acceptL2_writable {x : L2Line} (h : s.l2Find w.sl w.line w.kid = some x) (hw : x.wr = true) :
    s.acceptL2 w = ({ s with l2w := s.l2w ++ [w] } : State).applyL2 w.sl w.line w.kid := by
  simp only [State.l2Find] at h
  simp only [State.acceptL2, State.l2Find, h, hw, if_true]

/-- Elsewhere the slice asks the directory for leave to write. -/
theorem State.acceptL2_asks (h : ∀ x, s.l2Find w.sl w.line w.kid = some x → x.wr = false) :
    s.acceptL2 w = ({ s with l2w := s.l2w ++ [w] } : State).request w.sl w.line w.kid true := by
  simp only [State.l2Find] at h
  simp only [State.acceptL2, State.l2Find]
  split
  next x hx => simp only [h x hx, Bool.false_eq_true, if_false]
  next => rfl

end

@[simp] theorem State.garbleUnit_poison (s : State) (unit : Nat) : (s.garbleUnit unit).poison = s.poison := by simp only [State.garbleUnit]

@[simp] theorem State.garbleUnit_host (s : State) (unit : Nat) : (s.garbleUnit unit).host = s.host := by simp only [State.garbleUnit]

/-- An error that nothing detects leaves the bytes outside its unit (log entry 37). -/
theorem State.garbleUnit_frame {unit a : Nat} (hw : Memory.wf s.mem = true) (ha : a / 64 ≠ unit) :
    mget 0 (s.garbleUnit unit).mem a = mget 0 s.mem a := by
  simp only [State.garbleUnit]
  rw [mget_mputs _ _ _ hw, List.length_map, List.length_range, if_neg (by omega)]

theorem exec_memoryEccError_unchecked {unit n : Nat} (hc : s.checks = false) (hn : n ≠ 0) :
    exec (.memoryEccError unit n) s = .next (s.garbleUnit unit) := by
  simp only [exec, execMemoryEccError, hc, if_neg hn, Bool.not_false, if_true]

theorem exec_memoryEccError_poisons {unit n : Nat} (hc : s.checks = true) (hn : 2 ≤ n) (hp : s.poison.contains unit = false) :
    exec (.memoryEccError unit n) s = .next { s with poison := s.poison ++ [unit] } := by
  simp only [exec, execMemoryEccError, hc, hp, if_neg (by omega : n ≠ 0), if_neg (by omega : n ≠ 1), Bool.not_true, Bool.false_eq_true, if_false]

/-! ## DIRECTORY_REQUEST (R391, R394) -/

section
variable {n : Nat} {r : DirReq} (hr : s.dirQ[n]? = some r) (ha : r.acks = []) (hw : s.reqWaits r = false)
include hr ha hw

section
variable {e : DirEntry} (he : s.dir.find? (fun e => e.covers r.line r.kid) = some e)
include he

theorem State.dirRequest_granted (hc : e.conflict r = false) : s.dirRequest n = some (s.grant r) := by
  simp only [State.dirRequest, hr, ha, hw, he, hc, List.isEmpty_nil, Bool.not_true, Bool.not_false, Bool.or_self, Bool.false_eq_true, if_false, if_true]

theorem State.dirRequest_recalls (hc : e.conflict r = true) (hz : e.sz = 0) : s.dirRequest n = some (s.actOn r e.rb 0) := by
  simp only [State.dirRequest, hr, ha, hw, he, hc, hz, List.isEmpty_nil, Bool.not_true, Bool.or_self, Bool.false_eq_true, if_false, if_true]

theorem State.dirRequest_splits (hc : e.conflict r = true) (hz : e.sz ≠ 0) (hu : s.waysUsed r.line < 8) : s.dirRequest n =
    some ((s.split e).actOn r (if covers e.rb (e.sz - 1) r.line then e.rb else e.rb + 2 ^ (e.sz - 1)) (e.sz - 1)) := by
  simp only [State.dirRequest, hr, ha, hw, he, hc, if_neg hz, if_neg (Nat.not_le.2 hu), List.isEmpty_nil, Bool.not_true, Bool.or_self,
    Bool.false_eq_true, if_false]

end

section
variable (he : s.dir.find? (fun e => e.covers r.line r.kid) = none)
include he

/-- With a way free a new entry is made, of the largest region that meets no other. -/
theorem State.dirRequest_enters (hu : s.waysUsed r.line < 8) : let sz := s.newRegion r.line r.kid
    let e : DirEntry := { rb := r.line - r.line % 2 ^ sz, kid := r.kid, sz := sz, qt := 0, dm := 0, sm := 0, used := s.nextId }
    s.dirRequest n = some (({ s with dir := s.dir ++ [e] } : State).grant r) := by
  simp only [State.dirRequest, hr, ha, hw, he, if_neg (Nat.not_le.2 hu), List.isEmpty_nil, Bool.not_true, Bool.or_self, Bool.false_eq_true, if_false]

/-- In a full set an entry is evicted. -/
theorem State.dirRequest_evicts (hu : 8 ≤ s.waysUsed r.line) : let sz := s.newRegion r.line r.kid
    s.dirRequest n = s.evictWay r (r.line - r.line % 2 ^ sz) sz none := by
  simp only [State.dirRequest, hr, ha, hw, he, if_pos hu, List.isEmpty_nil, Bool.not_true, Bool.or_self, Bool.false_eq_true, if_false]

end
end

/-- The entry evicted is the least recently used that no other message and no other request concerns. -/
theorem State.evictWay_some {r : DirReq} {v : DirEntry} {rb sz : Nat}
    (hv : leastBy (fun (e : DirEntry) => e.used) ((s.setEntries r.line).filter (fun e => !s.msgsOver e.rb e.sz e.kid &&
      !s.dirQ.any (fun q => q.id != r.id && !q.acks.isEmpty && q.kid == e.kid && meets q.rb q.sz e.rb e.sz))) = some v) :
    let ys := bitsSet 32 v.sm.toNat
    let r1 := { r with rb := rb, sz := sz, begun := true }
    s.evictWay r rb sz none = if ys.isEmpty then some ((s.dropDir v.rb v.sz v.kid).setReq r1) else
      some { s.setReq { r1 with acks := ys, evict := true, vict := some (v.rb, v.sz, v.kid) } with
        recQ := s.recQ ++ ys.map (fun y => { req := r.id, sl := y, rb := v.rb, sz := v.sz, kid := v.kid, inval := true, held := false }) } := by
  simp only [State.evictWay, ne_eq, reduceCtorEq, not_false_eq_true, decide_true, Bool.true_and, hv]

/-! ## Recalls and acknowledgements (R391, R392) -/

/-- A message that meets no pinned line is acted on. -/
theorem State.dirRecall_acts {n : Nat} {m : DirMsg} (hm : s.recQ[n]? = some m)
    (hp : ∀ x ∈ s.l2.filter (s.concerns m), s.pinned x.line x.kid = false) :
    let xs := s.l2.filter (s.concerns m)
    let s1 := xs.foldl (fun s x => let s := s.writeBackL2 x
      if m.inval then (s.dropL2 x.sl x.line x.kid).forgetWo x.line x.kid else s.modL2 x.sl x.line x.kid (fun y => { y with wr := false })) s
    s.dirRecall n = some { s1 with
      recQ := s1.recQ.eraseIdx n
      ackQ := s1.ackQ ++ [{ m with held := !xs.isEmpty }]
      lost := s1.lost.map (fun l => if l.id = m.req then { l with dirty := l.dirty + (xs.filter (fun x => decide (x.dirty ≠ 0))).length } else l) } := by
  have hany : (s.l2.filter (s.concerns m)).any (fun x => s.pinned x.line x.kid) = false :=
    List.any_eq_false.2 fun x hx => by simp only [hp x hx, Bool.false_eq_true, not_false_eq_true]
  simp only [State.dirRecall, hm, hany, Bool.false_eq_true, if_false]

/-- The state once an acknowledgement has cleared its slice from the entry of its region. -/
def State.acked (s : State) (n : Nat) (m : DirMsg) : State :=
  ({ s with ackQ := s.ackQ.eraseIdx n } : State).modDir m.rb m.sz m.kid (fun e =>
    { e with dm := e.dm &&& ~~~sliceBit m.sl, sm := if m.inval || !m.held then e.sm &&& ~~~sliceBit m.sl else e.sm })

section
variable {n : Nat} {m : DirMsg} (hm : s.ackQ[n]? = some m) (hl : s.lost.find? (fun l => l.id == m.req) = none)
include hm hl

theorem State.dirAck_unasked (hr : s.dirQ.find? (fun r => r.id == m.req) = none) : s.dirAck n = some (s.acked n m) := by
  simp only [State.dirAck, hm, hl, hr, State.acked, State.modDir]

variable {r : DirReq} (hr : s.dirQ.find? (fun r => r.id == m.req) = some r)
include hr

/-- An acknowledgement that a request waits for takes it further. -/
theorem State.dirAck_asked : s.dirAck n =
    if !(r.acks.erase m.sl).isEmpty then some ((s.acked n m).setReq { r with acks := r.acks.erase m.sl })
    else if r.evict then some (((s.acked n m).dropDir m.rb m.sz m.kid).setReq { r with acks := r.acks.erase m.sl, evict := false, vict := none })
    else if (s.acked n m).reqWaits r || !(s.acked n m).dir.any (fun e => e.covers r.line r.kid && !e.conflict r) then
      some ((s.acked n m).setReq { r with acks := r.acks.erase m.sl })
    else some ((s.acked n m).grant { r with acks := r.acks.erase m.sl }) := by
  simp only [State.dirAck, hm, hl, hr, State.acked, State.modDir]
  rfl

theorem State.dirAck_waits (ha : r.acks.erase m.sl ≠ []) : s.dirAck n = some ((s.acked n m).setReq { r with acks := r.acks.erase m.sl }) := by
  have hne : (r.acks.erase m.sl).isEmpty = false := by simpa using ha
  simp only [State.dirAck_asked hm hl hr, hne, Bool.not_false, if_true]

theorem State.dirAck_drops (ha : r.acks.erase m.sl = []) (he : r.evict = true) : s.dirAck n =
    some (((s.acked n m).dropDir m.rb m.sz m.kid).setReq { r with acks := r.acks.erase m.sl, evict := false, vict := none }) := by
  simp only [State.dirAck_asked hm hl hr, ha, he, List.isEmpty_nil, Bool.not_true, Bool.false_eq_true, if_false, if_true]

theorem State.dirAck_grants (ha : r.acks.erase m.sl = []) (he : r.evict = false) (hw : (s.acked n m).reqWaits r = false)
    (hc : (s.acked n m).dir.any (fun e => e.covers r.line r.kid && !e.conflict r) = true) : s.dirAck n = some ((s.acked n m).grant r) := by
  simp only [State.dirAck_asked hm hl hr, ha, he, hw, hc, List.isEmpty_nil, Bool.not_true, Bool.or_self, Bool.false_eq_true, if_false]
  rfl

end

/-! ## Quiet ticks and lost entries (R393, R397) -/

theorem exec_directoryQuietTick (h : ∀ a ∈ s.dir, ∀ b ∈ s.dir, s.mergeable a b = false) :
    exec .directoryQuietTick s = .next { s with dir := s.dir.map (fun e => { e with qt := min 15 (e.qt + 1) }) } := by
  refine congrArg (fun l => Host.Outcome.next { s with dir := l }) ((List.filterMap_congr fun e he => ?_).trans (congrFun List.filterMap_eq_map' _))
  have hany : s.dir.any (fun a => s.mergeable a e) = false := List.any_eq_false.2 fun a ha => by simp [h a ha e he]
  have hfind : s.dir.find? (fun b => s.mergeable e b) = none := List.find?_eq_none.2 fun b hb => by simp [h e he b hb]
  simp only [hany, hfind, Bool.false_eq_true, if_false]

/-- An entry lies in its own frame. -/
theorem covers_frame (line : Nat) : covers (line - line % 512) 9 line = true := by
  simp only [covers, Bool.and_eq_true, decide_eq_true_eq]
  omega

/-- An entry with more than one bit wrong is lost, and both dies' slices are recalled. -/
theorem exec_directoryEntryError_lost {n bits : Nat} {t : Bool} {e : DirEntry} (he : s.dir[n]? = some e) (hb : 2 ≤ bits) :
    ∃ u, exec (.directoryEntryError n bits t) s = .next u ∧ e ∉ u.dir ∧ u.recQ.length = s.recQ.length + 32 ∧ u.lost.length = s.lost.length + 1 := by
  simp only [exec, execDirectoryEntryError, he, if_neg (by omega : bits ≠ 0), if_neg (by omega : bits ≠ 1)]
  refine ⟨_, rfl, fun hmem => ?_, ?_, ?_⟩
  · have hkept := (List.mem_filter.1 hmem).2
    cases t
    · simp at hkept
    · simp [covers_frame] at hkept
  · simp
  · simp

/-! ## Atomics and addends (R171, R366) -/

section
variable {n : Nat} {r : AtomReq} {m : Mop} {a : Access} (hr : s.atomQ[n]? = some r)
  (hm : (s.sl r.bid r.slice).mops.find? (fun m => m.id == r.op) = some m) (ha : m.accs[r.part]? = some a)
  (hp : (s.recallLine r.line r.kid).pinned r.line r.kid = false)
  (hl : (((s.recallLine r.line r.kid).core ((s.recallLine r.line r.kid).blk r.bid).core).l1Find r.line).isSome = false)
  (hw : (s.recallLine r.line r.kid).ownWrite ((s.recallLine r.line r.kid).blk r.bid).core r.line r.kid = false)
include hr hm ha hp hl hw

/-- An atomic of an SC frame is performed at the home. -/
theorem State.atomNth_home (hs : a.attr = .sc)
    (hd : (s.recallLine r.line r.kid).diePending ((s.recallLine r.line r.kid).blk r.bid).core r.line r.kid = false) :
    let s1 := s.recallLine r.line r.kid
    s.atomNth n = some (s1.doAtomic r m a (s1.devLine r.line r.kid) (fun s k d => s.homeWriteLine r.line r.kid k d)) := by
  simp only [State.atomNth, hr, hm, ha, hp, hl, hw, hs, hd, Bool.false_eq_true, and_false, if_false, if_true]

/-- Another is performed at its slice where that may write the line. -/
theorem State.atomNth_slice {x : L2Line} (hs : a.attr ≠ .sc) (hx : (s.recallLine r.line r.kid).l2Find r.sl r.line r.kid = some x)
    (hwr : x.wr = true) : s.atomNth n =
      some ((s.recallLine r.line r.kid).doAtomic r m a (x.data, x.poison) (fun s k d => s.modL2 r.sl r.line r.kid (fun x =>
        { x with data := mergeLine x.data d k, dirty := x.dirty ||| k, poison := x.poison.write k }))) := by
  simp only [State.atomNth, hr, hm, ha, hp, hl, hw, hs, hx, hwr, Bool.false_eq_true, false_and, if_false, if_true]

end

section
variable {n : Nat} {d : Addend} (hd : s.addQ[n]? = some d) (hl : ((s.core d.src.core).l1Find (lineOf d.pa)).isSome = false)
  (hn : s.netw.any (fun w => w.src.core == d.src.core && w.line == lineOf d.pa && w.kid == d.kid) = false)
  (hw : s.l2w.any (fun w => w.sl == d.sl && w.line == lineOf d.pa && w.kid == d.kid) = false)
  (hp : readPoison (fun l => ({ s with addQ := s.addQ.eraseIdx n } : State).devLine l d.kid) (d.pa / 16 * 16) 16 = false)
include hd hl hn hw hp

/-- An addend of a slot that is not declared is a fault of its instruction (R173). -/
theorem State.foldNth_undeclared : let s1 := { s with addQ := s.addQ.eraseIdx n }
    RedSlot.ofBytes (s1.homeBytes d.kid (d.pa / 16 * 16) 16) = none →
      s.foldNth n = some (s1.deferAt d.src .badFormat d.src.thr d.src.vline) := by
  intro s1 hs
  simp only [State.foldNth, hd, hl, hn, hw, hp, hs, s1, Bool.or_self, Bool.false_eq_true, if_false]

theorem State.foldNth_declared {r : RedSlot} : let s1 := { s with addQ := s.addQ.eraseIdx n }
    RedSlot.ofBytes (s1.homeBytes d.kid (d.pa / 16 * 16) 16) = some r → s.foldNth n = some (s1.foldAddend d r) := by
  intro s1 hs
  simp only [State.foldNth, hd, hl, hn, hw, hp, hs, s1, Bool.or_self, Bool.false_eq_true, if_false]

end

theorem State.foldPart_some {n : Nat} {p : PartLine} (h : s.partQ[n]? = some p) :
    s.foldPart n = some (({ s with partQ := s.partQ.eraseIdx n } : State).foldLine p) := by
  simp only [State.foldPart, h]

end Sys2Proof.Machine

open Sys2Proof Sys2Proof.Machine in
/-- Settles O18: under the conditions named, the step of each event is the branch that they choose. -/
theorem memoryEventsComplete : Obligations.MemoryEventsComplete := by
  unfold Obligations.MemoryEventsComplete
  refine ⟨?_, fun core s => rfl, ?_, ?_, ?_, ?_, ?_, ?_, ?_, ?_, ?_, ?_, ?_, ?_, ?_, ?_, ?_, ?_, ?_⟩
  case refine_1 =>
    intro bid i op s m core hm ha hb hp hg
    have h4 : m.stage = 4 → m.kind.memory = true → s.mopStep bid i m = s.performOp core bid i m :=
      fun h4 hk => State.mopStep_accesses ha hb hp hk (.inl ⟨h4, hg h4⟩)
    have h5 : m.stage = 5 → m.kind.memory = true → s.mopStep bid i m = s.performOp core bid i m :=
      fun h5 hk => State.mopStep_accesses ha hb hp hk (.inr h5)
    refine ⟨fun hk hs hd => ?_, fun hk hs => ?_, fun hk hs ho hn hw => ?_, fun hk hs hq => ?_, fun hk hs => ?_, fun hk hs h0 hr => ?_,
      fun hk hd h0 hh => ?_⟩
    · have hmem : m.kind.memory = true := by rcases hk with hk | hk | hk | hk | hk | hk | hk <;> rw [hk] <;> rfl
      exact exec_memoryOpComplete hm ((h4 hs hmem).trans (State.performOp_done hk hd))
    · have hmem : m.kind.memory = true := by rcases hk with hk | hk | hk | hk <;> rw [hk] <;> rfl
      exact exec_memoryOpComplete hm ((h4 hs hmem).trans (State.performOp_order hk))
    · exact exec_memoryOpComplete hm ((h5 hs (by rw [hk]; rfl)).trans (State.performOp_store hk hs ho hn hw))
    · exact exec_memoryOpComplete hm ((h5 hs (by rw [hk]; rfl)).trans (State.performOp_redf hk hs hq))
    · exact exec_memoryOpComplete hm ((h4 hs (by rw [hk]; rfl)).trans (State.performOp_harvest hk))
    · have hmem : m.kind.memory = true := by rcases hk with hk | hk | hk <;> rw [hk] <;> rfl
      exact exec_memoryOpComplete hm ((h5 hs hmem).trans (State.performOp_range hk hs h0 hr))
    · exact exec_memoryOpComplete hm ((State.mopStep_bench ha hb hp hk hd).trans (State.benchStep_free h0 hh))
  case refine_2 =>
    exact fun core line s x hx => congrArg _ (State.flushL1_held hx)
  case refine_3 =>
    exact fun core line byte s x hx hb => exec_l1ParityError hx hb
  case refine_4 =>
    intro n s w hn hh hp he s1
    have hr : exec (.l2WriteReceive n) s = .next (({ s with netw := s.netw.eraseIdx n } : State).acceptL2 w) :=
      next_getD (State.l2Receive_accepted hn hh hp he)
    refine ⟨fun x hx hw => hr.trans (congrArg _ (State.acceptL2_writable hx hw)), fun x hx hw => hr.trans (congrArg _ (State.acceptL2_asks ?_)),
      fun hx => hr.trans (congrArg _ (State.acceptL2_asks ?_))⟩
    · intro y hy
      obtain rfl := Option.some.inj (hx.symm.trans hy)
      exact hw
    · intro y hy
      cases hx.symm.trans hy
  case refine_5 =>
    intro l2 line kid s x hx hp
    simp only [exec, execL2Eviction, hx, hp, Bool.false_eq_true, if_false]
  case refine_6 =>
    refine fun unit s => ⟨fun hc => ⟨?_, fun n hn hp => exec_memoryEccError_poisons hc hn hp⟩, fun hc hw n hn => ?_⟩
    · simp only [exec, execMemoryEccError, hc, Nat.one_ne_zero, Bool.not_true, Bool.false_eq_true, if_false, if_true]
    · exact ⟨_, exec_memoryEccError_unchecked hc (Nat.ne_of_gt hn), s.garbleUnit_poison unit, s.garbleUnit_host unit, fun a ha =>
        State.garbleUnit_frame hw ha⟩
  case refine_7 =>
    intro n s r hr ha hw
    refine ⟨fun e he hc => ?_, fun e he hc hz => ?_, fun e he hc hz hu => ?_, fun he hu => ?_, fun v he hu hv => ⟨fun hy => ?_, fun hy => ?_⟩⟩
    · exact next_getD (State.dirRequest_granted hr ha hw he (decide_eq_false (not_not.2 hc)))
    · exact next_getD (State.dirRequest_recalls hr ha hw he (decide_eq_true hc) hz)
    · exact next_getD (State.dirRequest_splits hr ha hw he (decide_eq_true hc) hz hu)
    · exact next_getD (State.dirRequest_enters hr ha hw he hu)
    · exact next_getD ((State.dirRequest_evicts hr ha hw he hu).trans ((State.evictWay_some hv).trans (if_pos (List.isEmpty_iff.2 hy))))
    · exact next_getD ((State.dirRequest_evicts hr ha hw he hu).trans ((State.evictWay_some hv).trans (if_neg (mt List.isEmpty_iff.1 hy))))
  case refine_8 =>
    intro n s m hm xs hp s1
    exact next_getD (State.dirRecall_acts hm hp)
  case refine_9 =>
    intro n s m hm hl y s1
    exact ⟨fun hr => next_getD (State.dirAck_unasked hm hl hr), fun r hr => ⟨fun ha => next_getD (State.dirAck_waits hm hl hr ha),
      fun ha he => next_getD (State.dirAck_drops hm hl hr ha he), fun ha he hw hc => next_getD (State.dirAck_grants hm hl hr ha he hw hc)⟩⟩
  case refine_10 =>
    exact fun s h => exec_directoryQuietTick h
  case refine_11 =>
    refine fun n t s e he => ⟨?_, fun bits hb => exec_directoryEntryError_lost he hb⟩
    simp only [exec, execDirectoryEntryError, he, Nat.one_ne_zero, if_false, if_true]
  case refine_12 =>
    intro n s r m a hr hm ha s1 core hp hl hw
    exact ⟨fun hs hd => next_getD (State.atomNth_home hr hm ha hp hl hw hs hd),
      fun x hs hx hwr => next_getD (State.atomNth_slice hr hm ha hp hl hw hs hx hwr)⟩
  case refine_13 =>
    intro n s d hd hl hn hw s1 hp
    exact ⟨fun hs => next_getD (State.foldNth_undeclared hd hl hn hw hp hs), fun r hs => next_getD (State.foldNth_declared hd hl hn hw hp hs)⟩
  case refine_14 =>
    intro l2 line kid s p hp
    simp only [exec, execPartialIdleTimeout, hp, State.sendPartials]
  case refine_15 =>
    exact fun n s p hp => next_getD (State.foldPart_some hp)
  case refine_16 =>
    intro bid page rix r s hg hr
    simp only [exec, execPageWalk, hg, hr]
  case refine_17 =>
    intro bid i seq m s hm
    simp only [exec, execIdivIremCompletion, hm]
  case refine_18 =>
    intro line kid s x hx s1
    simp only [exec, execL3Eviction, State.evictL3, hx, s1]
end

section
/-! SUPPORT. An instruction of memory whose exec is the shared issue with checks that walk (R167). -/

namespace Sys2Proof.Machine

theorem Reaches.of_issueVia {α : Type} {c : FormR → Instr} {key : Nat} {chk : Ctx → State → State → State × Except (Option Trap) α}
    {eff : Ctx → State → α → State} (h : ∀ f s, exec (c f) s = issueVia key (.r f) chk eff s) : Reaches c key chk eff :=
  fun f s _ _ hi => ⟨fun _ hc => (h f s).trans (issueVia_next hi hc), fun _ hc => (h f s).trans (issueVia_fail hi hc),
    fun hc => (h f s).trans (issueVia_wait hi hc)⟩

end Sys2Proof.Machine

open Sys2Proof Sys2Proof.Machine in
/-- Settles O14: fourteen of the instructions make walks in their checks, five of the bench and HARVEST check the opened state alone, and the fences have no
check of their own. -/
theorem memoryCompletes : Obligations.MemoryCompletes := by
  unfold Obligations.MemoryCompletes
  and_intros
  iterate 4 exact .of_issueVia fun _ _ => rfl
  iterate 4 exact .of_issueTry fun _ _ => rfl
  iterate 6 exact .of_issueVia fun _ _ => rfl
  · exact .of_issueTry fun _ _ => rfl
  iterate 3 exact .of_issueVia fun _ _ => rfl
  iterate 2 exact .of_issueAll fun _ _ => rfl
  · exact .of_issueVia fun _ _ => rfl
  · exact .of_issueTry fun _ _ => rfl
end

section
/-! SUPPORT. Bytes written and read back: the byte order of numbers and lines, runs of a sparse map, the bench, and a line of memory under its key
(R7, R165, R395). -/

namespace Sys2Proof.Machine

/-! ## Bytes of numbers and lines (R7) -/

@[simp] theorem length_bytesOf (n x : Nat) : (bytesOf n x).length = n := by
  induction n generalizing x with
  | zero => rfl
  | succ n ih => simp [bytesOf, ih]

theorem natOfBytes_bytesOf (n x : Nat) : natOfBytes (bytesOf n x) = x % 2 ^ (8 * n) := by
  induction n generalizing x with
  | zero => simp [bytesOf, natOfBytes, Nat.mod_one]
  | succ n ih =>
    calc natOfBytes (bytesOf (n + 1) x)
      _ = x % 256 + 256 * (x / 256 % 2 ^ (8 * n)) := by simp [bytesOf, natOfBytes, ih]
      _ = x % (256 * 2 ^ (8 * n)) := Nat.mod_mul.symm
      _ = x % 2 ^ (8 * (n + 1)) := by rw [Nat.mul_succ, Nat.pow_add, Nat.mul_comm]

theorem bytesOf_eq_map (n x : Nat) : bytesOf n x = (List.range n).map (fun i => BitVec.ofNat 8 (x >>> (8 * i))) := by
  induction n generalizing x with
  | zero => rfl
  | succ n ih =>
    have hshift (i : Nat) : (x / 256) >>> (8 * i) = x >>> (8 * (i + 1)) := by
      rw [Nat.mul_succ, Nat.add_comm, Nat.shiftRight_add, Nat.shiftRight_eq_div_pow x 8]
    simp [bytesOf, ih, List.range_succ_eq_map, Function.comp_def, hshift]

@[simp] theorem length_lineSlice (d : LineData) (o n : Nat) : (lineSlice d o n).length = n := by simp [lineSlice]

theorem lineSlice_zero (d : LineData) (n : Nat) : lineSlice d 0 n = bytesOf n d.toNat := by
  simp only [lineSlice, lineByte, Nat.zero_add, bytesOf_eq_map]
  rfl

theorem lineFromBytes_lineSlice (d : LineData) : lineFromBytes (lineSlice d 0 128) = d := by
  rw [lineFromBytes, lineSlice_zero, natOfBytes_bytesOf, show 8 * 128 = 1024 from rfl, BitVec.toNat_mod_cancel, BitVec.ofNat_toNat, BitVec.setWidth_eq]

/-! ## Runs of a sparse map -/

section
variable {α : Type} [DecidableEq α] {d : α} {m : List (Nat × α)} (w : mwf d m = true)
include w

theorem mgets_mputs_same {n : Nat} {l : List α} (hl : l.length = n) (a : Nat) : mgets d (mputs d m a l) a n = l :=
  List.ext_getElem (by simp [mgets, hl]) fun i _ hi => by simp [mgets, mget_mputs _ _ _ w, hi]

theorem mgets_mputs_other {a c n : Nat} {l : List α} (h : c + n ≤ a ∨ a + l.length ≤ c) : mgets d (mputs d m a l) c n = mgets d m c n :=
  List.map_congr_left fun i hi => by
    have hi := List.mem_range.1 hi
    rw [mget_mputs _ _ _ w, if_neg (by omega)]

end

/-! ## The bench (R165) -/

section
variable {b : Block} (w : mwf 0 b.bench = true)
include w

theorem Block.benchNat_benchWrite_same (a n data : Nat) : (b.benchWrite a (bytesOf n data)).benchNat a n = data % 2 ^ (8 * n) :=
  (congrArg natOfBytes (mgets_mputs_same w (length_bytesOf n data) a)).trans (natOfBytes_bytesOf n data)

theorem Block.benchNat_benchWrite_other {a c m : Nat} {l : List Byte} (h : c + m ≤ a ∨ a + l.length ≤ c) :
    (b.benchWrite a l).benchNat c m = b.benchNat c m := congrArg natOfBytes (mgets_mputs_other w h)

end

theorem Block.bpois_of_benchWrite {b : Block} {a x : Nat} {l : List Byte} (h : (b.benchWrite a l).bpois.contains x = true) :
    b.bpois.contains x = true := by
  rw [List.contains_iff_mem] at h ⊢
  exact List.mem_of_mem_filter h

/-! ## A line of memory (R395) -/

section
variable {s : State} (line kid : Nat) (d : LineData) (p : Pois)

@[simp] theorem State.setMemLine_keyTag (k : Nat) : (s.setMemLine line kid d p).keyTag k = s.keyTag k := by
  simp only [State.setMemLine, State.keyTag]

@[simp] theorem State.setMemLine_remoteByte (k a : Nat) : (s.setMemLine line kid d p).remoteByte k a = s.remoteByte k a := by
  simp only [State.setMemLine, State.remoteByte, State.target, State.peerAddress, State.busAddress]

/-- The two units of the line stand under the key written with, every other unit under its own. -/
theorem State.mget_setMemLine_memKey (hk : mwf 0 s.memKey = true) (u : Nat) :
    mget 0 (s.setMemLine line kid d p).memKey u = if u / 2 = line then s.keyTag kid else mget 0 s.memKey u := by
  simp only [State.setMemLine, mget_mput _ _ _ (mput_wf _ _ hk), mget_mput _ _ _ hk]
  by_cases h : u / 2 = line
  · rw [if_pos h, ite_eq_left_iff]
    exact fun hodd => if_pos (by omega)
  · rw [if_neg h, if_neg (by omega), if_neg (by omega)]

/-- A byte whose unit stands under the key it is read with is the byte that memory holds. -/
theorem State.memByte_of_keyTag {k a : Nat} (hr : isRemote a = false) (ht : mget 0 s.memKey (a / 64) = s.keyTag k) :
    s.memByte k a = mget 0 s.mem a := by
  simp [State.memByte, hr, ht]

theorem isRemote_line {line i : Nat} (h : isRemote (128 * line) = false) (hi : i < 128) : isRemote (128 * line + i) = false := by
  rw [isRemote, decide_eq_false_iff_not, hostBase] at h ⊢
  omega

theorem State.memLine_setMemLine_same (hm : Memory.wf s.mem = true) (hk : mwf 0 s.memKey = true) (hr : isRemote (128 * line) = false) :
    (s.setMemLine line kid d p).memLine line kid = d := by
  have hbyte : ∀ i ∈ List.range 128, (s.setMemLine line kid d p).memByte kid (128 * line + i) =
      mget 0 (mputs 0 s.mem (128 * line) (lineSlice d 0 128)) (128 * line + i) := fun i hi => by
    have hi := List.mem_range.1 hi
    have hkey : mget 0 (s.setMemLine line kid d p).memKey ((128 * line + i) / 64) = (s.setMemLine line kid d p).keyTag kid := by
      rw [State.mget_setMemLine_memKey line kid d p hk, if_pos (by omega), State.setMemLine_keyTag]
    rw [State.memByte_of_keyTag (isRemote_line hr hi) hkey, State.setMemLine_mem]
  calc (s.setMemLine line kid d p).memLine line kid
    _ = lineFromBytes (mgets 0 (mputs 0 s.mem (128 * line) (lineSlice d 0 128)) (128 * line) 128) :=
      congrArg lineFromBytes (List.map_congr_left hbyte)
    _ = lineFromBytes (lineSlice d 0 128) := congrArg lineFromBytes (mgets_mputs_same hm (length_lineSlice d 0 128) _)
    _ = d := lineFromBytes_lineSlice d

theorem State.memByte_setMemLine_other (hm : Memory.wf s.mem = true) (hk : mwf 0 s.memKey = true) (k : Nat) {a : Nat} (ha : a / 128 ≠ line) :
    (s.setMemLine line kid d p).memByte k a = s.memByte k a := by
  have hkey : mget 0 (s.setMemLine line kid d p).memKey (a / 64) = mget 0 s.memKey (a / 64) := by
    rw [State.mget_setMemLine_memKey line kid d p hk, if_neg (by omega)]
  have hbyte : mget 0 (s.setMemLine line kid d p).mem a = mget 0 s.mem a := by
    rw [State.setMemLine_mem, mget_mputs _ _ _ hm, length_lineSlice, if_neg (by omega)]
  have hunit : mgets 0 (s.setMemLine line kid d p).mem (64 * (a / 64)) 64 = mgets 0 s.mem (64 * (a / 64)) 64 := by
    rw [State.setMemLine_mem, mgets_mputs_other hm (by rw [length_lineSlice]; omega)]
  simp only [State.memByte, State.otherKey, State.setMemLine_keyTag, State.setMemLine_remoteByte, hkey, hbyte, hunit]

theorem State.contains_setMemLine_poison (u : Nat) : (s.setMemLine line kid d p).poison.contains u =
    if u / 2 = line then (if s.checks then p.units else 0).getLsbD (u % 2) else s.poison.contains u := by
  have hunits : u ∈ [2 * line, 2 * line + 1] ↔ u / 2 = line := by
    simp only [List.mem_cons, List.not_mem_nil, or_false]
    omega
  rw [Bool.eq_iff_iff, List.contains_iff_mem]
  simp only [State.setMemLine, List.mem_append, List.mem_filter, hunits, List.contains_iff_mem, Bool.not_eq_true', ← Bool.not_eq_true]
  by_cases h : u / 2 = line <;> simp [h]

theorem State.memPoison_setMemLine_same :
    (s.setMemLine line kid d p).memPoison line = { unit := if s.checks then p.units else 0, word := 0 } := by
  have hsplit (x : BitVec 2) : BitVec.ofBool (x.getLsbD 1) ++ BitVec.ofBool (x.getLsbD 0) = x := by
    revert x
    decide
  have hlow : 2 * line / 2 = line := by omega
  have hhigh : (2 * line + 1) / 2 = line := by omega
  simp only [State.memPoison, State.contains_setMemLine_poison, if_pos hlow, if_pos hhigh, Nat.mul_mod_right, Nat.mul_add_mod]
  exact congrArg (Pois.mk · 0) (hsplit _)

theorem State.memPoison_setMemLine_other {l : Nat} (h : l ≠ line) : (s.setMemLine line kid d p).memPoison l = s.memPoison l := by
  simp only [State.memPoison, State.contains_setMemLine_poison]
  rw [if_neg (by omega), if_neg (by omega)]

end

end Sys2Proof.Machine

open Sys2Proof Sys2Proof.Machine in
/-- Settles O57: a write of a run of bytes is read back from the sparse map, and a line's two units stand under the key it was written with. -/
theorem storedBytesReadBack : Obligations.StoredBytesReadBack := by
  unfold Obligations.StoredBytesReadBack
  refine ⟨fun b a n data w => ⟨Block.benchNat_benchWrite_same w a n data, Laws.benchWrite_wf a _ w, fun c m h => ?_, rfl,
      fun _ => Block.bpois_of_benchWrite⟩,
    fun s line kid d p hm hk hr => ⟨State.memLine_setMemLine_same line kid d p hm hk hr, State.memPoison_setMemLine_same line kid d p,
      Laws.setMemLine_wf line kid d p hm, fun k a => State.memByte_setMemLine_other line kid d p hm hk k,
      fun l => State.memPoison_setMemLine_other line kid d p, ?_⟩⟩
  · exact Block.benchNat_benchWrite_other w (by rwa [length_bytesOf])
  · simp only [State.setMemLine]
end

section
/-! SUPPORT. The instructions of groups 0x000 and 0x140: each is one of the shared issues (R67, R190, R208). -/

namespace Sys2Proof.Machine

/-- The same of an instruction of form L with checks of its own. -/
theorem DoesL.of_issueTry {c : FormL → Instr} {key : Nat} {bad : Ctx → State → Option Trap} {eff : Ctx → State → State}
    (h : ∀ f s, exec (c f) s = issueTry key (.l f) bad eff s) : DoesL c key bad eff :=
  fun f s _ hi => ⟨fun hb => (h f s).trans (issueTry_next hi hb), fun _ hb => (h f s).trans (issueTry_fail hi hb)⟩

/-- The same of one without. -/
theorem DoesL.of_issueAll {c : FormL → Instr} {key : Nat} {eff : Ctx → State → State} (h : ∀ f s, exec (c f) s = issueAll key (.l f) eff s) :
    DoesL c key (fun _ _ => none) eff := fun f s _ hi => ⟨fun _ => (h f s).trans (issueAll_next hi), fun _ hb => nomatch hb⟩

end Sys2Proof.Machine

open Sys2Proof Sys2Proof.Machine in
/-- Settles O12: the transfers, PUSHJ, JOIN, REFILL, TRAP and BRK check before their effect, TLAUNCH walks, RDSR writes registers, and the others have no
check of their own. -/
theorem controlCompletes : Obligations.ControlCompletes := by
  unfold Obligations.ControlCompletes
  and_intros
  · exact .of_issueAll fun _ _ => rfl
  · exact DoesL.of_issueTry fun _ _ => rfl
  · exact Does.of_issueTry fun _ _ => rfl
  · exact DoesL.of_issueTry fun _ _ => rfl
  iterate 2 exact Does.of_issueTry fun _ _ => rfl
  · exact .of_issueAll fun _ _ => rfl
  · exact DoesL.of_issueTry fun _ _ => rfl
  · exact Does.of_issueTry fun _ _ => rfl
  · exact DoesL.of_issueAll fun _ _ => rfl
  · exact .of_issueAll fun _ _ => rfl
  · exact Does.of_issueTry fun _ _ => rfl
  · exact .of_issueAll fun _ _ => rfl
  · exact .of_issueVia fun _ _ => rfl
  · exact .of_issueAll fun _ _ => rfl
  iterate 2 exact Does.of_issueTry fun _ _ => rfl
  · exact .of_regOp fun _ _ => rfl
  iterate 2 exact .of_issueAll fun _ _ => rfl

open Sys2Proof Sys2Proof.Machine in
/-- Settles O13: each is an issue with its own checks or with none, and CBEXP one whose effect itself may trap. -/
theorem syncCompletes : Obligations.SyncCompletes := by
  unfold Obligations.SyncCompletes
  and_intros
  iterate 2 exact .of_issueTry fun _ _ => rfl
  iterate 2 exact .of_issueAll fun _ _ => rfl
  · exact .of_issueTry fun _ _ => rfl
  iterate 2 exact .of_issueAll fun _ _ => rfl
  · exact .of_issueTry fun _ _ => rfl
  · exact .of_issueAll fun _ _ => rfl
  · exact fun f s v hi => ⟨fun s2 h => issue_next hi h, fun t h => issue_fail hi h⟩
  · exact .of_issueAll fun _ _ => rfl
  iterate 4 exact .of_issueTry fun _ _ => rfl

end

section
/-! SUPPORT. The cores, windows and partition pages at reset are each of one kind. -/

namespace Sys2Proof.Machine

theorem State.core_reset {c : Nat} (h : c < 32) : State.reset.core c = Core.reset := by
  have hc : State.reset.cores = List.replicate 32 Core.reset := rfl
  rw [State.core, hc, List.getElem?_replicate, if_pos h]
  rfl

end Sys2Proof.Machine

open Sys2Proof Sys2Proof.Machine in
/-- Settles O7: each field by its value at reset, and the lists of cores, windows and pages by the one element that they repeat. -/
theorem resetLeaves : Obligations.ResetLeaves := by
  unfold Obligations.ResetLeaves
  have hcore : ∀ c < 32, State.reset.core c = Core.reset := fun c h => State.core_reset h
  refine ⟨rfl, fun c hc => ?_, rfl, rfl, rfl, rfl, rfl, rfl, rfl, rfl, fun w hw => ?_, ?_, rfl, rfl, rfl, rfl⟩
  · rw [hcore c hc]
    exact ⟨rfl, rfl, rfl, rfl, rfl, rfl, rfl, rfl, rfl, by decide⟩
  · rw [List.eq_of_mem_replicate hw]
    rfl
  · decide
end

section
/-! SUPPORT. Sets of thread positions and mask-stack entries: what each reads as, and what EXIT, PUSHJ and JOIN make of them (R191 to R194). -/

namespace Sys2Proof.Machine

/-! ## Sets of positions -/

theorem getLsbD_foldl_setBit (l : List Nat) (m : BitVec 4) (t : Nat) :
    (l.foldl (fun m t => m ||| (1#4 <<< t)) m).getLsbD t = (m.getLsbD t || (decide (t < 4) && decide (t ∈ l))) := by
  induction l generalizing m with
  | nil => simp
  | cons a l ih =>
    have hbit : (1#4 <<< a).getLsbD t = (decide (t < 4) && decide (t = a)) := by
      simp only [BitVec.getLsbD_shiftLeft, BitVec.getLsbD_one]
      by_cases h : t = a
      · simp [h]
      · simp [h]; omega
    rw [List.foldl_cons, ih, BitVec.getLsbD_or, hbit]
    by_cases h : t = a <;> cases decide (t < 4) <;> simp [h]

theorem getLsbD_maskOf (l : List Nat) (t : Nat) : (maskOf l).getLsbD t = (decide (t < 4) && decide (t ∈ l)) := by
  simp [maskOf, getLsbD_foldl_setBit]

/-- The set of some positions of a set lies within it. -/
theorem maskOf_filter_posOf_and (m : BitVec 4) (p : Nat → Bool) : maskOf ((posOf m).filter p) &&& m = maskOf ((posOf m).filter p) := by
  ext t ht
  rw [← BitVec.getLsbD_eq_getElem, ← BitVec.getLsbD_eq_getElem, BitVec.getLsbD_and, getLsbD_maskOf]
  cases hm : m.getLsbD t <;> simp [mem_posOf, hm]

theorem Ctx.taken_and_act (x : Ctx) (s : State) (i : Nat) : x.taken s i &&& (s.sl x.bid i).act = x.taken s i :=
  maskOf_filter_posOf_and _ _

/-! ## Entries (R192) -/

section
open BitVec
variable (k : Bool) (m : BitVec 4) (pc : W64)

theorem extract_stackEntry_align : (stackEntry k m pc).extractLsb' 0 2 = 0 := extractLsb'_append_eq_right

theorem extract_stackEntry_address : (stackEntry k m pc).extractLsb' 2 50 = pc.extractLsb' 2 50 :=
  (extractLsb'_append_eq_of_le (by decide)).trans extractLsb'_append_eq_right

theorem extract_stackEntry_reserved : (stackEntry k m pc).extractLsb' 52 7 = 0 :=
  (extractLsb'_append_eq_of_le (by decide)).trans ((extractLsb'_append_eq_of_le (by decide)).trans extractLsb'_append_eq_right)

@[simp] theorem entryMask_stackEntry : entryMask (stackEntry k m pc) = m :=
  (extractLsb'_append_eq_of_le (by decide)).trans ((extractLsb'_append_eq_of_le (by decide)).trans
    ((extractLsb'_append_eq_of_le (by decide)).trans extractLsb'_append_eq_right))

theorem getLsbD_stackEntry_kind : (stackEntry k m pc).getLsbD 63 = k :=
  getLsbD_of_extract ((extractLsb'_append_eq_of_le (by decide)).trans ((extractLsb'_append_eq_of_le (by decide)).trans
    ((extractLsb'_append_eq_of_le (by decide)).trans ((extractLsb'_append_eq_of_le (by decide)).trans extractLsb'_eq_self))))

/-- An address below 2^52 and a multiple of 4 is kept whole. -/
theorem entryPc_stackEntry {pc : W64} (h : pc.toNat < 2 ^ 52) (h4 : pc.toNat % 4 = 0) : entryPc (stackEntry k m pc) = pc := by
  refine eq_of_toNat_eq ?_
  have happ : ((pc.extractLsb' 2 50) ++ 0#2).toNat = pc.toNat / 4 % 2 ^ 50 * 4 := by
    rw [toNat_append, extractLsb'_toNat, toNat_ofNat, Nat.zero_mod, Nat.or_zero, Nat.shiftLeft_eq, Nat.shiftRight_eq_div_pow]
  rw [entryPc, extract_stackEntry_address, toNat_setWidth, happ]
  omega

end

/-! ## Threads that end (R191) -/

/-- A mask-stack entry without some threads. -/
def entryLess (gone : BitVec 4) (e : BitVec 64) : BitVec 64 := e &&& ~~~((gone.setWidth 64) <<< 59)

theorem getLsbD_entryLess (gone : BitVec 4) (e : BitVec 64) (n : Nat) :
    (entryLess gone e).getLsbD n = (e.getLsbD n && !(decide (59 ≤ n) && gone.getLsbD (n - 59))) := by
  by_cases hn : n < 64
  · by_cases h : 59 ≤ n
    · simp [entryLess, hn, Nat.not_lt.2 h, h]
    · simp [entryLess, hn, h]
      omega
  · have h : ∀ x : BitVec 64, x.getLsbD n = false := fun x => BitVec.getLsbD_of_ge x n (by omega)
    simp [h]

theorem entryMask_entryLess (gone : BitVec 4) (e : BitVec 64) : entryMask (entryLess gone e) = entryMask e &&& ~~~gone := by
  ext t ht
  have h : 59 + t - 59 = t := by omega
  simp [entryMask, getLsbD_entryLess, h, ← BitVec.getLsbD_eq_getElem, ht]

theorem getLsbD_entryLess_outside (gone : BitVec 4) (e : BitVec 64) {n : Nat} (h : n < 59 ∨ 62 < n) : (entryLess gone e).getLsbD n = e.getLsbD n := by
  rw [getLsbD_entryLess]
  rcases h with h | h
  · simp [Nat.not_le.2 h]
  · simp [BitVec.getLsbD_of_ge gone (n - 59) (by omega)]

end Sys2Proof.Machine

open Sys2Proof Sys2Proof.Machine in
/-- Settles O38: the parts of an entry read back one by one, and the threads that end leave each entry's set alone. -/
theorem maskStackEntriesFollowTheirThreads : Obligations.MaskStackEntriesFollowTheirThreads := by
  unfold Obligations.MaskStackEntriesFollowTheirThreads
  refine ⟨fun k m pc => ⟨getLsbD_stackEntry_kind k m pc, entryMask_stackEntry k m pc, extract_stackEntry_reserved k m pc,
    extract_stackEntry_address k m pc, extract_stackEntry_align k m pc, entryMask_stackEntry k m pc, entryPc_stackEntry k m⟩,
    fun sl gone => ⟨rfl, rfl, ⟨entryLess gone, rfl, fun e => ⟨entryMask_entryLess gone e, fun n => getLsbD_entryLess_outside gone e⟩⟩, rfl⟩⟩
end

section
/-! SUPPORT. The entries that PUSHJ pushes and the JOINs pop (R193, R194). -/

namespace Sys2Proof.Machine

/-! ## JOIN -/

section
variable {live : BitVec 4} {e : BitVec 64} {l : List (BitVec 64)}

theorem popLive_dead (h : entryMask e &&& live = 0) : popLive live (e :: l) = popLive live l := if_pos h

theorem popLive_live (h : entryMask e &&& live ≠ 0) : popLive live (e :: l) = some (entryMask e &&& live, entryPc e, l) := if_neg h

theorem popLive_append {pre : List (BitVec 64)} (h : ∀ d ∈ pre, entryMask d &&& live = 0) : popLive live (pre ++ l) = popLive live l := by
  induction pre with
  | nil => rfl
  | cons d pre ih => rw [List.cons_append, popLive_dead (h d (by simp)), ih (fun c hc => h c (by simp [hc]))]

theorem popLive_eq_none : popLive live l = none ↔ ∀ d ∈ l, entryMask d &&& live = 0 := by
  induction l with
  | nil => simp [popLive]
  | cons e l ih =>
    by_cases h : entryMask e &&& live = 0
    · simp [popLive_dead h, ih, h]
    · rw [popLive_live h, List.forall_mem_cons]
      exact ⟨nofun, fun hl => absurd hl.1 h⟩

theorem popLive_stackEntry (k : Bool) (m : BitVec 4) (pc : W64) : popLive live (stackEntry k m pc :: l) =
    if m &&& live = 0 then popLive live l else some (m &&& live, entryPc (stackEntry k m pc), l) := by
  simp only [popLive, entryMask_stackEntry]

/-- An entry of threads that all live gives them back. -/
theorem popLive_stackEntry_whole {m : BitVec 4} (k : Bool) (pc : W64) (h : m &&& live = m) (hm : m ≠ 0) :
    popLive live (stackEntry k m pc :: l) = some (m, entryPc (stackEntry k m pc), l) := by
  rw [popLive_stackEntry, h, if_neg hm]

end

theorem Ctx.joinTrap_eq_none {x : Ctx} {s : State} : x.joinTrap s = none ↔ ∀ i ∈ x.v.slices, (s.sl x.bid i).mstk ≠ [] := by
  simp [Ctx.joinTrap]

theorem Ctx.joinTrap_eq_some {x : Ctx} {s : State} {t : Trap} (h : x.joinTrap s = some t) : ∃ i, (s.sl x.bid i).mstk = [] ∧ t = x.trap .indexBounds i 0 := by
  obtain ⟨i, hi, rfl⟩ := Option.map_eq_some_iff.1 h
  exact ⟨i, by simpa using List.find?_some hi, rfl⟩

theorem Ctx.pushjTrap_eq_none {x : Ctx} {s : State} : x.pushjTrap s = none ↔ ∀ i ∈ x.v.slices, (s.sl x.bid i).mstk.length + x.pushes s i ≤ 16 := by
  simp [Ctx.pushjTrap]

theorem Ctx.pushjTrap_eq_some {x : Ctx} {s : State} {t : Trap} (h : x.pushjTrap s = some t) : ∃ i info, t = x.trap .indexBounds i 0 0 info 16 := by
  obtain ⟨i, -, rfl⟩ := Option.map_eq_some_iff.1 h
  exact ⟨i, _, rfl⟩

/-! ## PUSHJ -/

section
variable {x : Ctx} {s : State} {i : Nat} {sl : Slice}

/-- The reconvergence entry of a PUSHJ in a slice, and the pending-path entry of its taken set. -/
def Ctx.joinEntry (x : Ctx) (sl : Slice) : BitVec 64 := stackEntry false sl.act (x.pc + 12 + x.wordOff 16)
def Ctx.pathEntry (x : Ctx) (s : State) (i : Nat) : BitVec 64 := stackEntry true (x.taken s i) (x.pc + 12 + x.wordOff 0)

theorem Ctx.pushj_both (ht : x.taken s i ≠ 0) (hf : sl.act &&& ~~~(x.taken s i) ≠ 0) :
    x.pushj s i sl = { sl with mstk := x.pathEntry s i :: x.joinEntry sl :: sl.mstk, act := sl.act &&& ~~~(x.taken s i) } := if_pos ⟨ht, hf⟩

theorem Ctx.pushj_untaken (ht : x.taken s i = 0) (ha : sl.act ≠ 0) : x.pushj s i sl = { sl with mstk := x.joinEntry sl :: sl.mstk } := by
  have hf : sl.act &&& ~~~(x.taken s i) ≠ 0 := by
    rw [ht]
    exact (BitVec.and_allOnes (x := sl.act)).symm ▸ ha
  exact (if_neg (fun h => h.1 ht)).trans (if_pos hf)

theorem Ctx.pushj_taken (hf : sl.act &&& ~~~(x.taken s i) = 0) :
    x.pushj s i sl = { sl with mstk := x.joinEntry sl :: sl.mstk, pc := x.pc + 12 + x.wordOff 0 } :=
  (if_neg (fun h => h.2 hf)).trans (if_neg (not_not.2 hf))

end

/-- A set within a set within a third lies within that. -/
theorem and_eq_left_trans {a b c : BitVec 4} (h : a &&& b = a) (k : b &&& c = b) : a &&& c = a := by
  rw [← h, BitVec.and_assoc, k]

theorem and_not_and_left (a b : BitVec 4) : a &&& ~~~b &&& a = a &&& ~~~b := by
  rw [BitVec.and_comm a, BitVec.and_assoc, BitVec.and_self]

theorem and_eq_left_of_and_not {a b : BitVec 4} (h : a &&& ~~~b = 0) : a &&& b = a := by
  revert a b
  decide

end Sys2Proof.Machine

open Sys2Proof Sys2Proof.Machine in
/-- Settles O40: the pops by induction on the stack, and the traps by the tests that they make. -/
theorem joinPassesOverDeadPaths : Obligations.JoinPassesOverDeadPaths := by
  unfold Obligations.JoinPassesOverDeadPaths
  refine ⟨fun live pre post e hpre he => (popLive_append hpre).trans (popLive_live he), fun live l => popLive_eq_none,
    fun x s => Ctx.joinTrap_eq_none, fun x s t h => ?_, fun x s => Ctx.pushjTrap_eq_none, fun x s t h => ?_⟩
  · obtain ⟨i, hi, rfl⟩ := Ctx.joinTrap_eq_some h
    exact ⟨rfl, rfl, hi⟩
  · obtain ⟨i, info, rfl⟩ := Ctx.pushjTrap_eq_some h
    exact ⟨rfl, rfl⟩

open Sys2Proof Sys2Proof.Machine in
/-- Settles O39: the entries that each PUSHJ pushes, popped one after another; every taken set lies within the path that it leaves. -/
theorem pushjAndJoinReconverge : Obligations.PushjAndJoinReconverge := by
  unfold Obligations.PushjAndJoinReconverge
  intro x s i sl hsl hact tk ft tgt jn u
  have htk : tk &&& sl.act = tk := hsl ▸ x.taken_and_act s i
  have huntaken : tk = 0 → u = { sl with mstk := x.joinEntry sl :: sl.mstk } := fun ht => Ctx.pushj_untaken ht hact
  have htaken : ft = 0 → u = { sl with mstk := x.joinEntry sl :: sl.mstk, pc := tgt } := fun hf => Ctx.pushj_taken hf
  have hboth : tk ≠ 0 → ft ≠ 0 → u = { sl with mstk := x.pathEntry s i :: x.joinEntry sl :: sl.mstk, act := ft } :=
    fun ht hf => Ctx.pushj_both ht hf
  refine ⟨fun ht hf => ?_, fun ht => ?_, fun hf => ?_, fun live => ⟨fun ht hf => ?_, ?_, ?_⟩, ?_⟩
  · rw [hboth ht hf]
    exact ⟨rfl, rfl, rfl⟩
  · rw [huntaken ht]
    exact ⟨rfl, rfl, rfl⟩
  · rw [htaken hf]
    exact ⟨rfl, rfl, rfl⟩
  · rw [hboth ht hf]
    exact popLive_stackEntry true tk tgt
  · rintro (ht | hf)
    · rw [huntaken ht]
      rfl
    · rw [htaken hf]
      rfl
  · exact popLive_stackEntry false sl.act jn
  · intro y s2 j in_ ht hf ha hm hl hlive tk2 w ht2 hf2 tgt2 jn2
    have hin : in_.mstk = x.pathEntry s i :: x.joinEntry sl :: sl.mstk ∧ in_.act = ft ∧ in_.live = sl.live := by
      rw [hboth ht hf] at ha hm hl
      exact ⟨hm, ha, hl⟩
    obtain ⟨hmstk, hact2, hlv⟩ := hin
    have hw : w = { in_ with mstk := y.pathEntry s2 j :: y.joinEntry in_ :: in_.mstk, act := ft &&& ~~~tk2 } :=
      (Ctx.pushj_both ht2 (by rw [hact2]; exact hf2)).trans (by rw [hact2])
    have hactLive : sl.act &&& sl.live = sl.act := and_eq_left_of_and_not hlive
    have hftLive : ft &&& sl.live = ft := and_eq_left_trans (and_not_and_left sl.act tk) hactLive
    have htk2 : tk2 &&& ft = tk2 := hact2 ▸ y.taken_and_act s2 j
    have htkLive : tk &&& sl.live = tk := and_eq_left_trans htk hactLive
    have hwl : w.live = sl.live := by rw [hw]; exact hlv
    have hjoin : y.joinEntry in_ = stackEntry false ft (y.pc + 12 + y.wordOff 16) := by rw [Ctx.joinEntry, hact2]
    refine ⟨by rw [hw], y.joinEntry in_ :: in_.mstk, x.joinEntry sl :: sl.mstk, ?_, ?_, ?_, ?_⟩
    · rw [hwl, hw]
      exact popLive_stackEntry_whole true _ (and_eq_left_trans htk2 hftLive) ht2
    · rw [hwl, hjoin, hm]
      exact popLive_stackEntry_whole false _ hftLive hf
    · rw [hwl, hboth ht hf]
      exact popLive_stackEntry_whole true _ htkLive ht
    · rw [hwl]
      exact popLive_stackEntry_whole false _ hactLive hact
end

section
/-! SUPPORT. The traps of QSIGN and QDECL, and the tags: what a command added, a command completed and TAGCLR make of each (R33, R208, R209, R212). -/

namespace Sys2Proof.Machine

/-! ## Signs and declared counts (R208, R209) -/

variable {x : Ctx} {s : State}

theorem Ctx.undeclared_eq_none {q : Nat} (h : 0 < ((s.blk x.bid).quorum q).decl) : x.undeclared s q = none := if_neg (Nat.ne_of_gt h)

theorem Ctx.undeclared_eq_some {q : Nat} (h : ((s.blk x.bid).quorum q).decl = 0) (he : x.inEffect s ≠ []) :
    ∃ i thr, x.undeclared s q = some (x.trap .countResidue i thr 0 q ((s.blk x.bid).quorum q).info) := by
  obtain ⟨i, l, hl⟩ := List.exists_cons_of_ne_nil he
  exact ⟨i, (x.parts s i).headD 0, by simp only [Ctx.undeclared, h, if_true, hl, List.head?_cons, Option.map_some]⟩

theorem Ctx.qdeclTrap_eq_some (h : ∃ i ∈ x.inEffect s, 1024 < (x.b s i 0).toNat) :
    ∃ i, x.qdeclTrap s = some (x.trap .indexBounds i 0 0 (x.b s i 0).toNat 1024) := by
  have hf : ((x.inEffect s).find? (fun i => decide (1024 < (x.b s i 0).toNat))).isSome := by
    obtain ⟨i, hi, hb⟩ := h
    exact List.find?_isSome.2 ⟨i, hi, decide_eq_true hb⟩
  obtain ⟨i, hi⟩ := Option.isSome_iff_exists.1 hf
  exact ⟨i, by rw [Ctx.qdeclTrap, hi, Option.map_some]⟩

theorem qsign_does : Does .qsign 0x141 (fun x s => x.undeclared s (resNo x.f.oa)) (fun x s => x.sign s (resNo x.f.oa)) :=
  .of_issueTry fun _ _ => rfl

theorem qdecl_does : Does .qdecl 0x140 Ctx.qdeclTrap Ctx.qdecl := .of_issueTry fun _ _ => rfl

end Sys2Proof.Machine

open Sys2Proof Sys2Proof.Machine in
/-- Settles O46: each is the check of its instruction, which the issue turns into the trap. -/
theorem undeclaredSignsTrap : Obligations.UndeclaredSignsTrap := by
  unfold Obligations.UndeclaredSignsTrap
  refine ⟨fun f s v hi => ?_, fun f s v hi => ?_, fun x s q => Ctx.undeclared_eq_none⟩
  · intro x s1 hd he
    obtain ⟨i, thr, ht⟩ := Ctx.undeclared_eq_some (x := x) hd he
    exact ⟨_, rfl, rfl, rfl, (qsign_does f s v hi).2 _ ht⟩
  · intro x s1 hb
    obtain ⟨i, ht⟩ := Ctx.qdeclTrap_eq_some hb
    exact ⟨_, rfl, rfl, rfl, (qdecl_does f s v hi).2 _ ht⟩
end

section
namespace Sys2Proof.Machine

/-! ## Tags (R33, R212) -/

@[simp] theorem Block.latch_tag (b : Block) (n : Nat) : b.latch.tag n = b.tag n := rfl

theorem Block.setTag_wf {b : Block} (h : mwf ⟨0, false⟩ b.tags = true) (n : Nat) (t : Tag) : mwf ⟨0, false⟩ (b.setTag n t).tags = true :=
  mput_wf _ _ h

theorem Block.tagAdd_wf {b : Block} (h : mwf ⟨0, false⟩ b.tags = true) (n : Nat) : mwf ⟨0, false⟩ (b.tagAdd n).tags = true := Block.setTag_wf h n _

theorem Block.tag_setTag {b : Block} (h : mwf ⟨0, false⟩ b.tags = true) (n m : Nat) (t : Tag) : (b.setTag n t).tag m = if m = n then t else b.tag m :=
  mget_mput _ _ _ h

theorem Block.tag_tagAdd {b : Block} (h : mwf ⟨0, false⟩ b.tags = true) (n m : Nat) :
    (b.tagAdd n).tag m = if m = n then ⟨(b.tag n).pending + 1, false⟩ else b.tag m := Block.tag_setTag h n m _

theorem Block.tag_tagDone {b : Block} (h : mwf ⟨0, false⟩ b.tags = true) (n m : Nat) :
    (b.tagDone n).tag m = if m = n then ⟨(b.tag n).pending - 1, decide ((b.tag n).pending ≤ 1)⟩ else b.tag m := by
  rw [Block.tagDone, Block.latch_tag, Block.tag_setTag h]

/-- A tag made idle where it is ready. -/
def Tag.idled (t : Tag) : Tag := if t.ready then ⟨t.pending, false⟩ else t

/-- The ready tags of a list made idle one after another. -/
theorem Block.tag_foldl_idle (l : List Nat) {b : Block} (h : mwf ⟨0, false⟩ b.tags = true) (m : Nat) :
    (l.foldl (fun b n => if (b.tag n).ready then b.setTag n ⟨(b.tag n).pending, false⟩ else b) b).tag m =
      if m ∈ l then (b.tag m).idled else b.tag m := by
  induction l generalizing b with
  | nil => simp
  | cons n l ih =>
    rw [List.foldl_cons]
    by_cases hr : (b.tag n).ready = true
    · rw [if_pos hr, ih (Block.setTag_wf h n _), Block.tag_setTag h]
      by_cases hm : m = n
      · subst hm
        simp [Tag.idled, hr]
      · simp [hm]
    · rw [if_neg hr, ih h]
      by_cases hm : m = n
      · subst hm
        simp [Tag.idled, hr]
      · simp [hm]

theorem mem_bitsSet_toNat {w : W64} {n : Nat} : n ∈ bitsSet 64 w.toNat ↔ w.getLsbD n = true :=
  mem_bitsSet.trans ⟨fun h => h.2, fun h => ⟨BitVec.lt_of_getLsbD h, h⟩⟩

theorem Block.tag_tagsIdle {b : Block} (h : mwf ⟨0, false⟩ b.tags = true) (w : W64) (m : Nat) :
    (b.tagsIdle w).tag m = if w.getLsbD m = true then (b.tag m).idled else b.tag m := by
  rw [Block.tagsIdle, Block.tag_foldl_idle _ h]
  simp only [mem_bitsSet_toNat]

end Sys2Proof.Machine

open Sys2Proof Sys2Proof.Machine in
/-- Settles O47: each change is a write of one tag, or of each ready tag of a mask. -/
theorem tagsFollowTheirCommands : Obligations.TagsFollowTheirCommands := by
  unfold Obligations.TagsFollowTheirCommands
  refine fun b h => ⟨Block.tag_tagAdd h, fun n m hn => ?_, fun w m => ?_, fun n => ?_⟩
  · have hone : (b.tag n).pending ≤ 1 ↔ (b.tag n).pending = 1 := by omega
    rw [Block.tag_tagDone h]
    simp only [hone]
  · rw [Block.tag_tagsIdle h]
    by_cases hw : w.getLsbD m = true <;> simp [hw, Tag.idled]
  · have hz : (b.tag n).pending + 1 ≤ 1 ↔ (b.tag n).pending = 0 := by omega
    rw [Block.tag_tagDone (Block.tagAdd_wf h n), if_pos rfl, Block.tag_tagAdd h, if_pos rfl]
    simp only [Nat.add_sub_cancel, hz]
end

section
/-! SUPPORT. The waits on tags, the lowest ready tag of a mask, and whether a launch is deterministic while an instruction issues (R212, R223, R346). -/

namespace Sys2Proof.Machine

/-! ## Waits -/

theorem Block.tagsDone_iff {b : Block} {w : W64} : b.tagsDone w = true ↔ ∀ n, w.getLsbD n = true → (b.tag n).pending = 0 := by
  simp only [Block.tagsDone, List.all_eq_true, mem_bitsSet_toNat, beq_iff_eq]

theorem Block.tagsReady_iff {b : Block} {w : W64} : b.tagsReady w = true ↔ ∃ n, w.getLsbD n = true ∧ (b.tag n).ready = true := by
  simp only [Block.tagsReady, List.any_eq_true, mem_bitsSet_toNat]

/-! ## The lowest ready tag -/

/-- The lowest ready tag of a mask, or 64. -/
def Block.firstReady (b : Block) (w : W64) : Nat := ((bitsSet 64 w.toNat).filter (fun n => (b.tag n).ready)).headD 64

theorem Block.firstReady_eq {b : Block} {w : W64} :
    b.firstReady w = ((List.range 64).find? (fun n => (b.tag n).ready && w.getLsbD n)).getD 64 := by
  rw [Block.firstReady, List.headD_eq_head?_getD, bitsSet, List.filter_filter, List.head?_filter]
  rfl

theorem Block.firstReady_le {b : Block} {w : W64} {n : Nat} (hw : w.getLsbD n = true) (hr : (b.tag n).ready = true) :
    b.firstReady w ≤ n ∧ w.getLsbD (b.firstReady w) = true ∧ (b.tag (b.firstReady w)).ready = true := by
  have hn : n < 64 := BitVec.lt_of_getLsbD hw
  have hs : ((List.range 64).find? (fun n => (b.tag n).ready && w.getLsbD n)).isSome := List.find?_isSome.2 ⟨n, by simpa using hn, by simp [hw, hr]⟩
  obtain ⟨k, hk⟩ := Option.isSome_iff_exists.1 hs
  rw [Block.firstReady_eq, hk, Option.getD_some]
  obtain ⟨hp, -, hleast⟩ := List.find?_range_eq_some.1 hk
  obtain ⟨hkr, hkw⟩ := Bool.and_eq_true_iff.1 hp
  refine ⟨Nat.not_lt.1 (fun hlt => ?_), hkw, hkr⟩
  simpa [hw, hr] using hleast n hlt

theorem Block.firstReady_none {b : Block} {w : W64} (h : ∀ n, w.getLsbD n = true → (b.tag n).ready = false) : b.firstReady w = 64 := by
  have hn : (List.range 64).find? (fun n => (b.tag n).ready && w.getLsbD n) = none := by
    refine List.find?_eq_none.2 (fun n _ => ?_)
    cases hw : w.getLsbD n with
    | false => simp
    | true => simp [h n hw]
  rw [Block.firstReady_eq, hn, Option.getD_none]

theorem Block.firstReady_le_64 {b : Block} {w : W64} : b.firstReady w ≤ 64 := by
  by_cases h : ∃ n, w.getLsbD n = true ∧ (b.tag n).ready = true
  · obtain ⟨n, hw, hr⟩ := h
    exact Nat.le_trans (Block.firstReady_le hw hr).1 (Nat.le_of_lt (BitVec.lt_of_getLsbD hw))
  · refine Nat.le_of_eq (Block.firstReady_none (fun n hw => Bool.eq_false_iff.2 (fun hr => h ⟨n, hw, hr⟩)))

theorem Block.toNat_firstReady {b : Block} {w : W64} : (BitVec.ofNat 32 (b.firstReady w)).toNat = b.firstReady w := by
  rw [BitVec.toNat_ofNat]
  exact Nat.mod_eq_of_lt (Nat.lt_of_le_of_lt Block.firstReady_le_64 (by decide))

/-! ## Deterministic launches -/

/-- The block of a state's bare form is its own bare form. -/
theorem State.blk_bare (s : State) (bid : Nat) : (s.bare bid).blk bid = (s.blk bid).bare := by
  have hp : (fun b : Block => b.bid == bid) ∘ (fun b => if b.bid = bid then b.bare else b) = fun b => b.bid == bid := by
    funext b
    by_cases h : b.bid = bid
    · simp [h, Block.bare]
    · simp [h]
  simp only [State.blk, State.bare, List.find?_map, hp]
  cases hb : s.blocks.find? (fun b => b.bid == bid) with
  | none => rfl
  | some b =>
    have hid : b.bid = bid := by simpa using List.find?_some hb
    simp [hid]

variable {bid : Nat} {g : Slice → Slice} {l : List Nat} {s t : State}

theorem State.Quiet.blk_bare (h : Quiet bid g l s t) : (t.blk bid).bare = (s.blk bid).bare := by
  rw [← State.blk_bare, ← State.blk_bare, h.bare]

theorem State.Quiet.grids (h : Quiet bid g l s t) : t.grids = s.grids := by
  have hb : (t.bare bid).grids = (s.bare bid).grids := by rw [h.bare]
  exact hb

theorem State.Quiet.det (h : Quiet bid g l s t) : t.det bid = s.det bid := by
  have hg : (t.blk bid).gid = (s.blk bid).gid := by
    have hb : (t.blk bid).bare.gid = (s.blk bid).bare.gid := by rw [h.blk_bare]
    exact hb
  simp only [State.det, State.launch, State.grid, hg, h.grids]

theorem State.det_opened (s : State) (key : Nat) (f : Fields) (v : Visit) : (s.opened key f v).det v.bid = s.det v.bid :=
  ((Ctx.make key f v s).begin_quiet (g := id) s).det

theorem Ctx.timerTrap_eq_none {x : Ctx} {s : State} (h : s.det x.bid = false) (on : Bool) : x.timerTrap s on = none := by
  simp [Ctx.timerTrap, h]

theorem Ctx.timerTrap_eq_some {x : Ctx} {s : State} (h : s.det x.bid = true) (he : x.inEffect s ≠ []) :
    ∃ i thr, x.timerTrap s true = some (x.trap .detTimer i thr) := by
  obtain ⟨i, l, hl⟩ := List.exists_cons_of_ne_nil he
  exact ⟨i, (x.parts s i).headD 0, by simp [Ctx.timerTrap, h, hl]⟩

theorem tagff_does : Does .tagff 0x147 (fun x s => x.timerTrap s true)
    (fun x s => x.put s (fun i t => [BitVec.ofNat 32 ((s.blk x.bid).firstReady (x.src64 s i t x.f.oa))])) := .of_issueTry fun _ _ => rfl

theorem exec_tagff {f : FormR} {s : State} {v : Visit} (hi : Issues 0x147 (.r f) v s) (hd : s.det v.bid = false) : exec (.tagff f) s =
    .next (s.written 0x147 (.r f) v (fun x s i t => [BitVec.ofNat 32 ((s.blk x.bid).firstReady (x.src64 s i t x.f.oa))])) :=
  (tagff_does f s v hi).1 (Ctx.timerTrap_eq_none ((s.det_opened _ _ v).trans hd) true)

theorem exec_tagff_det {f : FormR} {s : State} {v : Visit} (hi : Issues 0x147 (.r f) v s) (hd : s.det v.bid = true)
    (he : (Ctx.make 0x147 (.r f) v s).inEffect (s.opened 0x147 (.r f) v) ≠ []) :
    ∃ i thr, exec (.tagff f) s = .next (s.stopped 0x147 (.r f) v ((Ctx.make 0x147 (.r f) v s).trap .detTimer i thr)) := by
  obtain ⟨i, thr, ht⟩ := Ctx.timerTrap_eq_some (x := Ctx.make 0x147 (.r f) v s) ((s.det_opened _ _ v).trans hd) he
  exact ⟨i, thr, (tagff_does f s v hi).2 _ ht⟩

end Sys2Proof.Machine

open Sys2Proof Sys2Proof.Machine in
/-- Settles O48: the waits by the tags of their mask, and TAGFF by the lowest ready one, behind its check of a deterministic launch. -/
theorem tagWaitsAndFirstReady : Obligations.TagWaitsAndFirstReady := by
  unfold Obligations.TagWaitsAndFirstReady
  refine ⟨fun b sl w => Block.tagsDone_iff, fun b sl w => ?_, fun f s v hi hd => ?_, fun f s v hi hd he => ?_⟩
  · exact Bool.or_eq_true_iff.trans (or_congr Block.tagsReady_iff Block.tagsDone_iff)
  · refine ⟨fun u i t => BitVec.ofNat 32 ((u.blk v.bid).firstReady (u.src64 v.bid i t f.oa)),
      (exec_tagff hi hd).trans (congrArg _ (State.written_congr (fun i t => rfl))), fun u i t => ⟨fun n hw hr => ?_, fun h => ?_⟩⟩
    · rw [Block.toNat_firstReady]
      exact Block.firstReady_le hw hr
    · exact congrArg (BitVec.ofNat 32) (Block.firstReady_none h)
  · obtain ⟨i, thr, ht⟩ := exec_tagff_det hi hd he
    exact ⟨_, rfl, ht⟩
end

section
/-! SUPPORT. The return from a trap: which of its branches a block takes (R339). -/

namespace Sys2Proof.Machine

variable {b : Block} {st n : Nat} {t : Trap}

/-- Whether slice i of a block goes on behind the instruction of the trap: it stands there in a gang of the named slice. -/
def Block.skips (b : Block) (t : Trap) (i : Nat) (sl : Slice) : Bool :=
  decide (sl.pc = t.pc ∧ !sl.ended ∧ (b.gangs.any (fun g => g.2.contains t.slc && g.2.contains i)))

theorem Block.skips_iff {i : Nat} {sl : Slice} :
    b.skips t i sl = true ↔ sl.pc = t.pc ∧ sl.ended = false ∧ ∃ g ∈ b.gangs, t.slc ∈ g.2 ∧ i ∈ g.2 := by
  simp [Block.skips]

/-- A block whose slices at the instruction of the trap have gone on behind it. -/
def Block.skipped (b : Block) (t : Trap) : Block :=
  { b with resume := true, slices := b.slices.mapIdx (fun i sl => if b.skips t i sl then { sl with pc := sl.pc + 12 } else sl) }

theorem Block.resumeDisp_eq (h : b.stop = some { state := st, trap := some t, cycle := n }) (disp : Nat) : b.resumeDisp disp =
    if (disp = 1 ∨ t.cause = .trap ∨ t.cause = .brk) ∧ t.kind = 0 then b.skipped t
    else if disp = 1 ∧ t.kind = 2 then ({ b with resume := true } : Block).skipWait t.slc
    else { b with resume := true } := by
  simp only [Block.resumeDisp, h, Block.skipped, Block.skips, decide_eq_true_eq]

theorem Block.resumeDisp_untrapped (h : ∀ t st n, b.stop ≠ some { state := st, trap := some t, cycle := n }) (disp : Nat) :
    b.resumeDisp disp = { b with resume := true } := by
  unfold Block.resumeDisp
  dsimp only
  split
  next st t n hs => exact absurd hs (h t st n)
  · rfl

theorem Block.sl_skipped {i : Nat} (hi : i < b.slices.length) :
    (b.skipped t).sl i = if b.skips t i (b.sl i) then { b.sl i with pc := (b.sl i).pc + 12 } else b.sl i := by
  have hs : b.sl i = b.slices[i] := by simp [Block.sl, hi]
  simp only [hs]
  simp [Block.sl, Block.skipped, hi]

theorem Block.sl_skipWait {i k : Nat} (hi : i < b.slices.length) :
    (b.skipWait k).sl i = if i = k then { b.sl i with wait := none } else b.sl i := by
  by_cases h : i = k
  · subst h
    exact (b.sl_modSl i i _ hi).trans (by simp)
  · rw [if_neg h]
    exact b.sl_modSl_shown (g := id) (fun hk => absurd hk h)

end Sys2Proof.Machine

open Sys2Proof Sys2Proof.Machine in
/-- Settles O56: each branch of the return, by the cause and the kind of the trap that the block stopped for. -/
theorem returnFromTrap : Obligations.ReturnFromTrap := by
  unfold Obligations.ReturnFromTrap
  refine ⟨fun b h => ?_, fun b st n t hs hc hk => ?_, fun b st n t hs => ⟨fun hk => ?_, fun hk => ?_, fun hk => ?_⟩⟩
  · by_cases hstop : ∃ t st n, b.stop = some { state := st, trap := some t, cycle := n }
    · obtain ⟨t, st, n, hs⟩ := hstop
      obtain ⟨ht, hb⟩ := h st n t hs
      rw [Block.resumeDisp_eq hs]
      simp [ht, hb]
    · push Not at hstop
      exact Block.resumeDisp_untrapped hstop 0
  · rw [Block.resumeDisp_eq hs, Block.resumeDisp_eq hs, if_pos ⟨.inr hc, hk⟩, if_pos ⟨.inl rfl, hk⟩]
  · rw [Block.resumeDisp_eq hs, if_pos ⟨.inl rfl, hk⟩]
    refine ⟨rfl, List.length_mapIdx, fun i hi => ?_⟩
    rw [Block.sl_skipped hi]
    simp only [Block.skips_iff]
  · rw [Block.resumeDisp_eq hs]
    simp [hk]
  · rw [Block.resumeDisp_eq hs, if_neg (by simp [hk]), if_pos ⟨rfl, hk⟩]
    exact ⟨rfl, fun i hi => Block.sl_skipWait hi, rfl⟩
end

section
/-! SUPPORT. A visit in which a served slice sits out, and one of a block with records still to perform (R202, R335). -/

namespace Sys2Proof.Machine

variable {v : Visit} {s : State}

/-- A visit that is passed over: each served slice has one visit less to sit out. -/
def State.passed (s : State) (v : Visit) : State :=
  { (s.forSlices v.bid v.slices (fun _ sl => { sl with ycnt := sl.ycnt - 1 })).modSec v.core v.sec (fun x => { x with passed := true }) with
    visit := none }

theorem State.turn_passed (hs : (s.blk v.bid).stop = none) (hr : s.redoLeft (s.blk v.bid) = []) (hy : ∃ i ∈ v.slices, 0 < (s.sl v.bid i).ycnt) :
    s.turn v = .over (s.passed v) := by
  have hhalt : s.halted v.bid = false := by simp only [State.halted, hs]
  have hany : v.slices.any (fun i => decide (0 < ((s.blk v.bid).sl i).ycnt)) = true := by
    obtain ⟨i, hi, hp⟩ := hy
    exact List.any_eq_true.2 ⟨i, hi, decide_eq_true hp⟩
  simp only [State.turn, hhalt, hr, List.isEmpty_nil, Bool.not_true, Bool.or_self, Bool.false_eq_true, if_false, hany, if_true]
  rfl

theorem State.turn_redo (hr : s.redoLeft (s.blk v.bid) ≠ []) : s.turn v = .over (s.emptyTurn v (fun _ => false)) := by
  have hne : (s.redoLeft (s.blk v.bid)).isEmpty = false := by simpa using hr
  simp only [State.turn, hne, Bool.not_false, Bool.or_true, if_true]

theorem step_over {t : State} (hv : s.visit = some v) (ht : s.turn v = .over t) : step s = .next t := by
  simp only [step, hv, ht]

/-- A change of one section that keeps its time keeps the time of every section. -/
theorem State.time_modSec {c k : Nat} {f : Section → Section} (hf : ∀ x, (f x).time = x.time) (c' k' : Nat) :
    (((s.modSec c k f).core c').secs[k']?).map Section.time = ((s.core c').secs[k']?).map Section.time := by
  have hsecs : ∀ y : Core, ((updAt f k y.secs)[k']?).map Section.time = (y.secs[k']?).map Section.time := by
    intro y
    rw [updAt_get]
    split
    · cases y.secs[k']? with
      | none => rfl
      | some x => exact congrArg some (hf x)
    · rfl
  simp only [State.core, State.modSec, State.modCore, updAt_get]
  split
  · cases s.cores[c']? with
    | none => rfl
    | some y => exact hsecs y
  · rfl

theorem State.forSlices_frame (s : State) (bid : Nat) (l : List Nat) (f : Nat → Slice → Slice) :
    ∃ blocks, s.forSlices bid l f = { s with blocks := blocks } := by
  induction l generalizing s with
  | nil => exact ⟨s.blocks, rfl⟩
  | cons i l ih =>
    obtain ⟨blocks, h⟩ := ih (s.modSl bid i (f i))
    exact ⟨blocks, h⟩

theorem State.passed_frame (s : State) (v : Visit) : (s.passed v).clock = s.clock ∧
    ∀ c k : Nat, (((s.passed v).core c).secs[k]?).map Section.time = ((s.core c).secs[k]?).map Section.time := by
  obtain ⟨blocks, h⟩ := s.forSlices_frame v.bid v.slices (fun _ sl => { sl with ycnt := sl.ycnt - 1 })
  have hp : s.passed v = { ({ s with blocks := blocks } : State).modSec v.core v.sec (fun x => { x with passed := true }) with visit := none } := by
    rw [State.passed, h]
  rw [hp]
  exact ⟨rfl, fun c k => State.time_modSec (s := { s with blocks := blocks }) (f := fun x => { x with passed := true }) (fun _ => rfl) c k⟩

/-- An empty turn in which no distance count advances leaves every slice. -/
theorem State.sl_emptyTurn (s : State) (v : Visit) (bid i : Nat) : (s.emptyTurn v (fun _ => false)).sl bid i = s.sl bid i := by
  have hself : s.forSlices v.bid v.slices (fun _ sl => if false = true then sl.advance else sl) = s := State.forSlices_self (fun _ _ => rfl)
  rw [State.emptyTurn, hself]
  rfl

theorem yield_always : Always .yield 0x00E (fun x s => s.forSlices x.bid (x.inEffect s) (fun i sl => { sl with ycnt := min (x.a s i 0).toNat 255 })) :=
  .of_issueAll fun _ _ => rfl

end Sys2Proof.Machine

open Sys2Proof Sys2Proof.Machine in
/-- Settles O41: YIELD by its issue, and the visits by the branch of the turn that they take. -/
theorem yieldSitsOutVisits : Obligations.YieldSitsOutVisits := by
  unfold Obligations.YieldSitsOutVisits
  refine ⟨fun f s v hi => yield_always f s v hi, fun s v hv hs hr hy hst => ?_, fun s v hv hs hr => ?_⟩
  · obtain ⟨hclock, htime⟩ := s.passed_frame v
    exact ⟨s.passed v, step_over hv (State.turn_passed hs hr hy), rfl, hclock, fun i hi => hst.sl_forSlices hi _, htime⟩
  · exact ⟨s.emptyTurn v (fun _ => false), step_over hv (State.turn_redo hr), rfl, fun i => congrArg Slice.ycnt (s.sl_emptyTurn v v.bid i)⟩
end

section
/-! SUPPORT. The work queues of a core: a queue replaced, and what a push and a REFILL of one block make of it (R203, R204). -/

namespace Sys2Proof.Machine

/-! ## A queue replaced -/

theorem updAt_updAt {α : Type} (f g : α → α) (i : Nat) (l : List α) : updAt g i (updAt f i l) = updAt (fun a => g (f a)) i l := by
  induction l generalizing i with
  | nil => cases i <;> rfl
  | cons a l ih => cases i <;> simp [updAt, ih]

theorem updAt_congr {α : Type} {f g : α → α} {i : Nat} {l : List α} (h : ∀ a, l[i]? = some a → f a = g a) : updAt f i l = updAt g i l := by
  induction l generalizing i with
  | nil => cases i <;> rfl
  | cons a l ih =>
    cases i with
    | zero => simp only [updAt, h a (by simp)]
    | succ i => simp only [updAt, ih (fun b hb => h b (by simpa using hb))]

/-- The state with queue q of a core replaced. -/
def State.putQueue (s : State) (c q : Nat) (l : List WqEntry) : State := s.modCore c (fun k => k.setQueue q l)

section
variable {s : State} {c q : Nat}

theorem State.modCore_setQueue (g : List WqEntry → List WqEntry) :
    s.modCore c (fun k => k.setQueue q (g (k.queue q))) = s.putQueue c q (g ((s.core c).queue q)) := by
  have h : updAt (fun k : Core => k.setQueue q (g (k.queue q))) c s.cores = updAt (fun k => k.setQueue q (g ((s.core c).queue q))) c s.cores :=
    updAt_congr (fun k hk => by simp [State.core, hk])
  simp only [State.putQueue, State.modCore, h]

theorem State.putQueue_putQueue (l l' : List WqEntry) : (s.putQueue c q l).putQueue c q l' = s.putQueue c q l' := by
  simp only [State.putQueue, State.modCore, updAt_updAt, Core.setQueue]

theorem State.blk_putQueue (l : List WqEntry) (bid : Nat) : (s.putQueue c q l).blk bid = s.blk bid := rfl
theorem State.det_putQueue (l : List WqEntry) (bid : Nat) : (s.putQueue c q l).det bid = s.det bid := rfl

theorem State.core_putQueue (hc : c < s.cores.length) (l : List WqEntry) : (s.putQueue c q l).core c = (s.core c).setQueue q l := by
  simp only [State.core, State.putQueue, State.modCore, updAt_get, if_true, List.getElem?_eq_getElem hc, Option.map_some, Option.getD_some]

theorem State.reservedEntries_putQueue (hc : c < s.cores.length) (l : List WqEntry) : (s.putQueue c q l).reservedEntries c = s.reservedEntries c := by
  rw [State.reservedEntries, State.core_putQueue hc]
  rfl

theorem Core.queue_setQueue {k : Core} (hq : q < k.wq.length) (l : List WqEntry) : (k.setQueue q l).queue q = l := by
  simp only [Core.queue, Core.setQueue, updAt_get, if_true, List.getElem?_eq_getElem hq, Option.map_some, Option.getD_some]

theorem State.length_cores_putQueue (l : List WqEntry) : (s.putQueue c q l).cores.length = s.cores.length := updAt_length ..

theorem State.queue_putQueue (hc : c < s.cores.length) (hq : q < (s.core c).wq.length) (l : List WqEntry) : ((s.putQueue c q l).core c).queue q = l := by
  rw [State.core_putQueue hc, Core.queue_setQueue hq]

theorem State.length_wq_putQueue (hc : c < s.cores.length) (l : List WqEntry) : ((s.putQueue c q l).core c).wq.length = (s.core c).wq.length := by
  rw [State.core_putQueue hc, Core.setQueue, updAt_length]

theorem State.putQueue_self {l : List WqEntry} (h : (s.core c).queue q = l) : s.putQueue c q l = s := by
  have hcores : updAt (fun k : Core => k.setQueue q l) c s.cores = s.cores := by
    refine updAt_self (fun k hk => ?_)
    have hcore : s.core c = k := by simp [State.core, hk]
    have hwq : updAt (fun _ => l) q k.wq = k.wq := updAt_self (fun a ha => by rw [← h, hcore, Core.queue, ha, Option.getD_some])
    rw [Core.setQueue, hwq]
  simp only [State.putQueue, State.modCore, hcores]

end

/-! ## The items of a block of a launch that is not deterministic -/

/-- The entry that such a block pushes for an item. -/
def Block.wqEntry (b : Block) (a : W32) : WqEntry := { gid := b.gid, lcore := none, item := a }

section
variable {s : State} {bid q : Nat}

theorem State.ownEntry_wqEntry (hd : s.det bid = false) (a : W32) : s.ownEntry bid ((s.blk bid).wqEntry a) = true := by
  simp [State.ownEntry, Block.wqEntry, hd]

theorem State.pushRoom_of_free (hd : s.det bid = false) (h : ((s.core (s.blk bid).core).queue q).length + s.reservedEntries (s.blk bid).core < 1024) :
    s.pushRoom bid q = true := by
  have hle := List.length_filter_le (fun e : WqEntry => decide (e.lcore = none)) ((s.core (s.blk bid).core).queue q)
  simp only [State.pushRoom, hd, Bool.false_eq_true, if_false, decide_eq_true_eq]
  omega

/-- Items that all find room are appended in their order. -/
theorem State.pushItems_all (l : List W32) (hd : s.det bid = false) (hc : (s.blk bid).core < s.cores.length)
    (hq : q < (s.core (s.blk bid).core).wq.length)
    (hr : ((s.core (s.blk bid).core).queue q).length + l.length + s.reservedEntries (s.blk bid).core ≤ 1024) : s.pushItems bid q l =
      (l.length, s.putQueue (s.blk bid).core q ((s.core (s.blk bid).core).queue q ++ l.map (s.blk bid).wqEntry)) := by
  induction l generalizing s with
  | nil => rw [List.map_nil, List.append_nil, State.putQueue_self rfl]; rfl
  | cons a l ih =>
    rw [List.length_cons] at hr
    let b := s.blk bid
    let old := (s.core b.core).queue q
    let s1 := s.putQueue b.core q (old ++ [b.wqEntry a])
    have hroom : s.pushRoom bid q = true := State.pushRoom_of_free hd (by omega)
    have hs1 : s.modCore b.core (fun c => c.setQueue q (c.queue q ++ [{ gid := b.gid, lcore := none, item := a }])) = s1 :=
      State.modCore_setQueue (fun l => l ++ [b.wqEntry a])
    have hqueue : (s1.core b.core).queue q = old ++ [b.wqEntry a] := State.queue_putQueue hc hq _
    have hpush := ih (s := s1) hd (by rw [State.length_cores_putQueue]; exact hc) (by
      rw [State.blk_putQueue, State.length_wq_putQueue hc]; exact hq) (by
      rw [State.blk_putQueue, hqueue, State.reservedEntries_putQueue hc, List.length_append, List.length_singleton, Nat.add_assoc old.length,
        Nat.add_comm 1]
      exact hr)
    rw [State.blk_putQueue, hqueue, State.putQueue_putQueue, List.append_assoc] at hpush
    simp only [State.pushItems, hroom, if_true, hd, Bool.false_eq_true, if_false]
    rw [hs1, hpush]
    rfl

theorem dropSome_all {p : WqEntry → Bool} {l : List WqEntry} (h : ∀ e ∈ l, p e = true) : dropSome p l.length l = [] := by
  induction l with
  | nil => rfl
  | cons e l ih =>
    simp only [List.length_cons, dropSome, h e (by simp), if_true]
    exact ih (fun d hd => h d (by simp [hd]))

/-- A REFILL of no more positions than the queue has entries of its block takes them from the head. -/
theorem State.take_own {k : Nat} {l : List WqEntry} (hl : (s.core (s.blk bid).core).queue q = l) (ho : ∀ e ∈ l, s.ownEntry bid e = true)
    (hk : k ≤ l.length) : s.take bid q k =
      ((l.take k).map (fun e => e.item), s.putQueue (s.blk bid).core q (dropSome (s.ownEntry bid) k l)) := by
  have hf : l.filter (s.ownEntry bid) = l := List.filter_eq_self.2 ho
  have hlen : (l.take k).length = k := by simp [hk]
  have hs := State.modCore_setQueue (s := s) (c := (s.blk bid).core) (q := q) (dropSome (s.ownEntry bid) k)
  simp only [State.take, hl, hf, hlen, Nat.sub_self, true_or, if_true]
  rw [hs, hl]

end

end Sys2Proof.Machine

open Sys2Proof Sys2Proof.Machine in
/-- Settles O42: the pushes append their items' entries, all of the block's own, and a REFILL takes them from the head. -/
theorem workQueuesAreFirstInFirstOut : Obligations.WorkQueuesAreFirstInFirstOut := by
  unfold Obligations.WorkQueuesAreFirstInFirstOut
  intro s bid q l hd hempty hq4 hc hlen hroom r
  have hq : q < (s.core (s.blk bid).core).wq.length := by rw [hlen]; exact hq4
  let u := s.putQueue (s.blk bid).core q (l.map (s.blk bid).wqEntry)
  have hpush : r = (l.length, u) := by
    have h := State.pushItems_all (s := s) (q := q) l hd hc hq (by rw [hempty, List.length_nil]; omega)
    rwa [hempty] at h
  have hu : (u.core (u.blk bid).core).queue q = l.map (s.blk bid).wqEntry := State.queue_putQueue hc hq _
  have hown : ∀ e ∈ l.map (s.blk bid).wqEntry, u.ownEntry bid e = true := by
    intro e he
    obtain ⟨a, -, rfl⟩ := List.mem_map.1 he
    exact State.ownEntry_wqEntry (s := u) hd a
  have hitems : (l.map (s.blk bid).wqEntry).map (fun e => e.item) = l := by
    rw [List.map_map]
    exact List.map_id l
  have htake : ∀ k ≤ l.length, u.take bid q k = _ := fun k hk => State.take_own hu hown (by rwa [List.length_map])
  rw [hpush]
  refine ⟨rfl, ?_, fun k hk => ?_, ?_⟩
  · exact (congrArg _ hu).trans hitems
  · rw [htake k hk, List.map_take, hitems]
  · have hdrop : dropSome (u.ownEntry bid) l.length (l.map (s.blk bid).wqEntry) = [] := by
      rw [← List.length_map (as := l) (s.blk bid).wqEntry]
      exact dropSome_all hown
    rw [htake l.length (Nat.le_refl _), hdrop]
    exact State.queue_putQueue (s := u) (by rw [State.length_cores_putQueue]; exact hc) (by
      rw [State.blk_putQueue, State.length_wq_putQueue hc]; exact hq) []
end

section
/-! SUPPORT. The privileged special registers: what each reads, and what WRSR leaves in them (R220, R221, R359). -/

namespace Sys2Proof.Machine

/-- The privileged registers of a core after a write. -/
def Core.writeSreg (c : Core) (n : Nat) (w : W32) : Core :=
  { c with
    mxvbat := if n = 0x81 then w &&& 0xF else c.mxvbat
    mxvres := if n = 0x82 then w &&& 0x7 else c.mxvres
    mxvq := if n = 0x83 then w &&& 0xFF else c.mxvq
    steal := if n = 0x85 then w &&& 0xF else c.steal }

section
variable (s : State) (bid i t : Nat)

/-! ## What the registers read -/

theorem State.sreg_privl : s.sreg bid i t 0x80 = if (s.grid (s.blk bid).gid).priv then 1 else 0 := rfl
theorem State.sreg_mxvbat : s.sreg bid i t 0x81 = (s.core (s.blk bid).core).mxvbat.zeroExtend 64 := rfl
theorem State.sreg_mxvres : s.sreg bid i t 0x82 = (s.core (s.blk bid).core).mxvres.zeroExtend 64 := rfl
theorem State.sreg_mxvq : s.sreg bid i t 0x83 = (s.core (s.blk bid).core).mxvq.zeroExtend 64 := rfl
theorem State.sreg_wdogLim : s.sreg bid i t 0x84 = s.wdogLim.zeroExtend 64 := rfl
theorem State.sreg_steal : s.sreg bid i t 0x85 = (s.core (s.blk bid).core).steal.zeroExtend 64 := rfl

end

/-! ## What a write leaves -/

theorem Core.writeSreg_of_ne {c : Core} {n : Nat} (w : W32) (h1 : n ≠ 0x81) (h2 : n ≠ 0x82) (h3 : n ≠ 0x83) (h5 : n ≠ 0x85) : c.writeSreg n w = c := by
  simp only [Core.writeSreg, if_neg h1, if_neg h2, if_neg h3, if_neg h5]

section
variable {s : State} {core : Nat} (n : Nat) (w : W32)

theorem State.core_modCore_same (f : Core → Core) (hc : core < s.cores.length) : (s.modCore core f).core core = f (s.core core) := by
  simp only [State.core, State.modCore, updAt_get, if_true, List.getElem?_eq_getElem hc, Option.map_some, Option.getD_some]

theorem State.blocks_writeSreg : (s.writeSreg core n w).blocks = s.blocks := by
  simp only [State.writeSreg, apply_ite State.blocks, modCore_blocks, ite_self]

theorem State.grids_writeSreg : (s.writeSreg core n w).grids = s.grids := by
  simp only [State.writeSreg, apply_ite State.grids, modCore_grids, ite_self]

theorem State.wdogLim_writeSreg : (s.writeSreg core n w).wdogLim = if n = 0x84 then w else s.wdogLim := by
  by_cases h : n = 0x84
  · subst n
    rfl
  · simp only [State.writeSreg, apply_ite State.wdogLim, modCore_wdogLim, if_neg h, ite_self]

theorem State.core_writeSreg (hc : core < s.cores.length) : (s.writeSreg core n w).core core = (s.core core).writeSreg n w := by
  unfold State.writeSreg
  split
  · subst n; exact core_modCore_same _ hc
  split
  · subst n; exact core_modCore_same _ hc
  split
  · subst n; exact core_modCore_same _ hc
  split
  · subst n; rfl
  split
  · subst n; exact core_modCore_same _ hc
  next h1 h2 h3 _ h5 => rw [Core.writeSreg_of_ne w h1 h2 h3 h5]

theorem State.blk_writeSreg (bid : Nat) : (s.writeSreg core n w).blk bid = s.blk bid := by
  simp only [State.blk, State.blocks_writeSreg]

theorem State.grid_writeSreg (gid : Nat) : (s.writeSreg core n w).grid gid = s.grid gid := by
  simp only [State.grid, State.grids_writeSreg]

end

/-! ## What the registers read after a write -/

section
variable {s : State} {bid core : Nat} (hb : (s.blk bid).core = core) (hc : core < s.cores.length) (i t n : Nat) (w : W32)

theorem State.privl_writeSreg : (s.writeSreg core n w).sreg bid i t 0x80 = s.sreg bid i t 0x80 := by
  simp only [State.sreg_privl, State.blk_writeSreg, State.grid_writeSreg]

theorem State.wdogLim_sreg_writeSreg :
    (s.writeSreg core n w).sreg bid i t 0x84 = if n = 0x84 then w.zeroExtend 64 else s.sreg bid i t 0x84 := by
  rw [State.sreg_wdogLim, State.wdogLim_writeSreg, apply_ite (BitVec.zeroExtend 64)]
  rfl

include hb hc

theorem State.mxvbat_writeSreg :
    (s.writeSreg core n w).sreg bid i t 0x81 = if n = 0x81 then (w &&& 0xF).zeroExtend 64 else s.sreg bid i t 0x81 := by
  rw [State.sreg_mxvbat, State.sreg_mxvbat, State.blk_writeSreg, hb, State.core_writeSreg n w hc, ← apply_ite (BitVec.zeroExtend 64)]
  rfl

theorem State.mxvres_writeSreg :
    (s.writeSreg core n w).sreg bid i t 0x82 = if n = 0x82 then (w &&& 0x7).zeroExtend 64 else s.sreg bid i t 0x82 := by
  rw [State.sreg_mxvres, State.sreg_mxvres, State.blk_writeSreg, hb, State.core_writeSreg n w hc, ← apply_ite (BitVec.zeroExtend 64)]
  rfl

theorem State.mxvq_writeSreg :
    (s.writeSreg core n w).sreg bid i t 0x83 = if n = 0x83 then (w &&& 0xFF).zeroExtend 64 else s.sreg bid i t 0x83 := by
  rw [State.sreg_mxvq, State.sreg_mxvq, State.blk_writeSreg, hb, State.core_writeSreg n w hc, ← apply_ite (BitVec.zeroExtend 64)]
  rfl

theorem State.steal_writeSreg :
    (s.writeSreg core n w).sreg bid i t 0x85 = if n = 0x85 then (w &&& 0xF).zeroExtend 64 else s.sreg bid i t 0x85 := by
  rw [State.sreg_steal, State.sreg_steal, State.blk_writeSreg, hb, State.core_writeSreg n w hc, ← apply_ite (BitVec.zeroExtend 64)]
  rfl

/-- A write of a register leaves every other one. -/
theorem State.sreg_writeSreg_other {n m : Nat} (hn : n ∈ [0x80, 0x81, 0x82, 0x83, 0x84, 0x85]) (hne : m ≠ n) :
    (s.writeSreg core m w).sreg bid i t n = s.sreg bid i t n := by
  simp only [List.mem_cons, List.not_mem_nil, or_false] at hn
  obtain rfl | rfl | rfl | rfl | rfl | rfl := hn
  · exact State.privl_writeSreg i t m w
  · rw [State.mxvbat_writeSreg hb hc, if_neg hne]
  · rw [State.mxvres_writeSreg hb hc, if_neg hne]
  · rw [State.mxvq_writeSreg hb hc, if_neg hne]
  · rw [State.wdogLim_sreg_writeSreg, if_neg hne]
  · rw [State.steal_writeSreg hb hc, if_neg hne]

end

end Sys2Proof.Machine

open Sys2Proof Sys2Proof.Machine in
/-- Settles O43: each register is a field of the core or the watchdog limit, and a write sets the field of its own register alone. -/
theorem privilegedRegistersReadBack : Obligations.PrivilegedRegistersReadBack := by
  unfold Obligations.PrivilegedRegistersReadBack
  refine ⟨fun s bid i t core w hb hc => ⟨State.wdogLim_sreg_writeSreg i t 0x84 w, ?_, fun m _ n hn hne => State.sreg_writeSreg_other hb hc i t w hn hne⟩,
    State.sreg_privl⟩
  simp only [List.forall_mem_cons, List.not_mem_nil, false_implies, implies_true, and_true]
  exact ⟨State.mxvbat_writeSreg hb hc i t 0x81 w, State.mxvres_writeSreg hb hc i t 0x82 w, State.mxvq_writeSreg hb hc i t 0x83 w,
    State.steal_writeSreg hb hc i t 0x85 w⟩
end

section
/-! SUPPORT. Signs of a declared quorum register, one by one: the count, the phase and the wait bits of the block's slices (R208, R209). -/

namespace Sys2Proof.Machine

/-! ## What a sign does to its register and to the slices -/

def Quorum.counted (n : Nat) (x : Quorum) : Quorum := { x with signed := n }
def Quorum.flipped (x : Quorum) : Quorum := { x with phase := !x.phase }
def Quorum.unsigned (x : Quorum) : Quorum := { x with sign := none, members := [] }

/-- A block with one of its quorum registers changed. -/
def Block.onQuorum (b : Block) (q : Nat) (f : Quorum → Quorum) : Block := b.setQuorum q (f (b.quorum q))

/-- A slice armed for a phase that completes is done. -/
def Slice.phased (q : Nat) (sl : Slice) : Slice := if sl.qarm.getLsbD q then { sl with qdone := sl.qdone ||| (1#16 <<< q) } else sl

/-- The block in which the phase of q is inverted and the armed slices are done. -/
def Block.flip (q : Nat) (b : Block) : Block :=
  ({ b.onQuorum q Quorum.flipped with slices := b.slices.map (Slice.phased q) } : Block).latch

/-- The block after one sign of a register with a declared count and no Loom sign recorded. -/
def Block.signed (b : Block) (q : Nat) : Block :=
  if (b.quorum q).signed + 1 = (b.quorum q).decl then ((b.onQuorum q (Quorum.counted 0)).flip q).onQuorum q Quorum.unsigned
  else b.onQuorum q (Quorum.counted ((b.quorum q).signed + 1))

section
variable {s : State} {bid q : Nat}

theorem State.form_unsigned (h : ((s.blk bid).quorum q).sign = none) : s.form bid q = s.modBlk bid (fun b => b.onQuorum q Quorum.unsigned) := by
  simp only [State.form, h]
  rfl

theorem State.complete_eq : s.complete bid q = (s.modBlk bid (Block.flip q)).form bid q := rfl

theorem State.signOnce_eq (hd : ((s.blk bid).quorum q).decl ≠ 0) : s.signOnce bid q =
    if ((s.blk bid).quorum q).signed + 1 = ((s.blk bid).quorum q).decl then (s.modBlk bid (fun b => b.onQuorum q (Quorum.counted 0))).complete bid q
    else s.modBlk bid (fun b => b.onQuorum q (Quorum.counted (((s.blk bid).quorum q).signed + 1))) := by
  simp only [State.signOnce, Block.quorumGoal, if_neg hd]
  rfl

end

/-! ## What the block reads after it -/

section
variable {b : Block} (hw : mwf ⟨0, 0, false, none, []⟩ b.q = true) (q : Nat) (f : Quorum → Quorum)
include hw

theorem Block.onQuorum_wf : mwf ⟨0, 0, false, none, []⟩ (b.onQuorum q f).q = true := mput_wf _ _ hw

theorem Block.quorum_onQuorum : (b.onQuorum q f).quorum q = f (b.quorum q) := mget_mput_same _ _ hw

theorem Block.flip_wf : mwf ⟨0, 0, false, none, []⟩ (b.flip q).q = true := Block.onQuorum_wf hw q Quorum.flipped

theorem Block.quorum_flip : (b.flip q).quorum q = (b.quorum q).flipped := Block.quorum_onQuorum hw q Quorum.flipped

end

theorem Block.sl_onQuorum (b : Block) (q : Nat) (f : Quorum → Quorum) (j : Nat) : (b.onQuorum q f).sl j = b.sl j := rfl

theorem Block.sl_flip (b : Block) (q j : Nat) : ∃ w, (b.flip q).sl j = ((b.sl j).phased q).withWait w := by
  have hmap : ({ b.onQuorum q Quorum.flipped with slices := b.slices.map (Slice.phased q) } : Block).sl j = (b.sl j).phased q := by
    simp only [Block.sl, List.getElem?_map]
    cases b.slices[j]? with
    | none => simp [Slice.phased, Slice.blank]
    | some sl => rfl
  rw [← hmap]
  exact Block.sl_latch _ j

theorem Slice.qarm_phased (q : Nat) (sl : Slice) : (sl.phased q).qarm = sl.qarm := by
  unfold Slice.phased
  split <;> rfl

theorem Slice.qdone_phased (q : Nat) (sl : Slice) :
    (sl.phased q).qdone = if sl.qarm.getLsbD q = true then sl.qdone ||| (1#16 <<< q) else sl.qdone := by
  unfold Slice.phased
  split <;> rfl

theorem Block.wait_bits_flip (b : Block) (q j : Nat) : ((b.flip q).sl j).qarm = (b.sl j).qarm ∧
    ((b.flip q).sl j).qdone = if (b.sl j).qarm.getLsbD q = true then (b.sl j).qdone ||| (1#16 <<< q) else (b.sl j).qdone := by
  obtain ⟨w, hw⟩ := b.sl_flip q j
  rw [hw]
  exact ⟨Slice.qarm_phased q _, Slice.qdone_phased q _⟩

/-! ## Any number of signs -/

/-- The block `b'` is `b` after n signs of q. -/
structure Block.AfterSigns (q n : Nat) (b b' : Block) : Prop where
  wf : mwf ⟨0, 0, false, none, []⟩ b'.q = true
  decl : (b'.quorum q).decl = (b.quorum q).decl
  sign : (b'.quorum q).sign = none
  count : (b'.quorum q).signed = ((b.quorum q).signed + n) % (b.quorum q).decl
  phase : (b'.quorum q).phase =
    if ((b.quorum q).signed + n) / (b.quorum q).decl % 2 = 0 then (b.quorum q).phase else !(b.quorum q).phase
  arm : ∀ j, (b'.sl j).qarm = (b.sl j).qarm
  done : ∀ j, (b'.sl j).qdone = if (b.quorum q).decl ≤ (b.quorum q).signed + n ∧ (b.sl j).qarm.getLsbD q = true
    then (b.sl j).qdone ||| (1#16 <<< q) else (b.sl j).qdone

section
variable {b c d : Block} {q : Nat}

theorem Block.AfterSigns.zero (hw : mwf ⟨0, 0, false, none, []⟩ b.q = true) (hc : (b.quorum q).signed < (b.quorum q).decl)
    (hs : (b.quorum q).sign = none) : AfterSigns q 0 b b where
  wf := hw
  decl := rfl
  sign := hs
  count := (Nat.mod_eq_of_lt hc).symm
  phase := by rw [Nat.add_zero, Nat.div_eq_of_lt hc]; rfl
  arm _ := rfl
  done j := (if_neg (fun h => absurd h.1 (Nat.not_le.2 hc))).symm

/-- A sign that completes no phase, and one that does. -/
theorem Block.AfterSigns.one (hw : mwf ⟨0, 0, false, none, []⟩ b.q = true) (hc : (b.quorum q).signed < (b.quorum q).decl)
    (hs : (b.quorum q).sign = none) : AfterSigns q 1 b (b.signed q) := by
  by_cases h : (b.quorum q).signed + 1 = (b.quorum q).decl
  · have hb : b.signed q = ((b.onQuorum q (Quorum.counted 0)).flip q).onQuorum q Quorum.unsigned := if_pos h
    have hw1 := Block.onQuorum_wf hw q (Quorum.counted 0)
    have hw2 := Block.flip_wf hw1 q
    have hq : (b.signed q).quorum q = ((b.quorum q).counted 0).flipped.unsigned := by
      rw [hb, Block.quorum_onQuorum hw2, Block.quorum_flip hw1, Block.quorum_onQuorum hw]
    have hbits := Block.wait_bits_flip (b.onQuorum q (Quorum.counted 0)) q
    have hd : 0 < (b.quorum q).decl := by omega
    refine ⟨?_, ?_, ?_, ?_, ?_, fun j => ?_, fun j => ?_⟩
    · rw [hb]; exact Block.onQuorum_wf hw2 q _
    · rw [hq]; rfl
    · rw [hq]; rfl
    · rw [hq, h, Nat.mod_self]; rfl
    · rw [hq, h, Nat.div_self hd]; rfl
    · rw [hb]; exact (hbits j).1
    · rw [hb, h]; simp only [Nat.le_refl, true_and]; exact (hbits j).2
  · have hb : b.signed q = b.onQuorum q (Quorum.counted ((b.quorum q).signed + 1)) := if_neg h
    have hq : (b.signed q).quorum q = (b.quorum q).counted ((b.quorum q).signed + 1) := by rw [hb, Block.quorum_onQuorum hw]
    have hlt : (b.quorum q).signed + 1 < (b.quorum q).decl := by omega
    refine ⟨?_, ?_, ?_, ?_, ?_, fun j => ?_, fun j => ?_⟩
    · rw [hb]; exact Block.onQuorum_wf hw q _
    · rw [hq]; rfl
    · rw [hq]; exact hs
    · rw [hq, Nat.mod_eq_of_lt hlt]; rfl
    · rw [hq, Nat.div_eq_of_lt hlt]; rfl
    · rw [hb]; rfl
    · rw [hb, if_neg (fun k => absurd k.1 (Nat.not_le.2 hlt))]; rfl

/-- A bit inverted a times and then e times. -/
theorem invert_add (a e : Nat) (p : Bool) : (if e % 2 = 0 then (if a % 2 = 0 then p else !p) else !(if a % 2 = 0 then p else !p)) =
    if (a + e) % 2 = 0 then p else !p := by
  rcases Nat.mod_two_eq_zero_or_one a with ha | ha <;> rcases Nat.mod_two_eq_zero_or_one e with he | he <;> simp [Nat.add_mod, ha, he]

/-- Signs after signs. -/
theorem Block.AfterSigns.trans {m n : Nat} (hd : 0 < (b.quorum q).decl) (h : AfterSigns q m b c) (k : AfterSigns q n c d) : AfterSigns q (m + n) b d := by
  have hdiv : ((b.quorum q).signed + (m + n)) / (b.quorum q).decl =
      ((b.quorum q).signed + m) / (b.quorum q).decl + (((b.quorum q).signed + m) % (b.quorum q).decl + n) / (b.quorum q).decl := by
    have hx := Nat.mod_add_div ((b.quorum q).signed + m) (b.quorum q).decl
    rw [Nat.add_comm (((b.quorum q).signed + m) / (b.quorum q).decl), ← Nat.add_mul_div_left _ _ hd]
    congr 1
    omega
  have hle : (b.quorum q).decl ≤ (b.quorum q).signed + (m + n) ↔
      (b.quorum q).decl ≤ (b.quorum q).signed + m ∨ (b.quorum q).decl ≤ ((b.quorum q).signed + m) % (b.quorum q).decl + n := by
    by_cases hm : (b.quorum q).decl ≤ (b.quorum q).signed + m
    · omega
    · rw [Nat.mod_eq_of_lt (Nat.not_le.1 hm)]
      omega
  refine ⟨k.wf, k.decl.trans h.decl, k.sign, ?_, ?_, fun j => (k.arm j).trans (h.arm j), fun j => ?_⟩
  · rw [k.count, h.count, h.decl, Nat.mod_add_mod, Nat.add_assoc]
  · rw [k.phase, h.phase, h.count, h.decl, hdiv]
    exact invert_add _ _ _
  · rw [k.done, h.done, h.arm, h.count, h.decl]
    simp only [hle]
    by_cases ha : (b.sl j).qarm.getLsbD q = true
    · by_cases hm : (b.quorum q).decl ≤ (b.quorum q).signed + m <;> simp [ha, hm, BitVec.or_assoc]
    · simp [ha]

end

section
variable {s : State} {bid q : Nat}

theorem State.signOnce_signed (hb : (s.blocks.find? (fun b => b.bid == bid)).isSome) (hw : mwf ⟨0, 0, false, none, []⟩ (s.blk bid).q = true)
    (hd : ((s.blk bid).quorum q).decl ≠ 0) (hs : ((s.blk bid).quorum q).sign = none) :
    ((s.signOnce bid q).blocks.find? (fun b => b.bid == bid)).isSome ∧ (s.signOnce bid q).blk bid = (s.blk bid).signed q := by
  rw [State.signOnce_eq hd]
  unfold Block.signed
  split
  · let s1 := s.modBlk bid (fun b => b.onQuorum q (Quorum.counted 0))
    let s2 := s1.modBlk bid (Block.flip q)
    have hb1 : (s1.blocks.find? (fun b => b.bid == bid)).isSome :=
      (present_modBlk s (f := fun b => b.onQuorum q (Quorum.counted 0)) (fun _ => rfl)).trans hb
    have hb2 : (s2.blocks.find? (fun b => b.bid == bid)).isSome := (present_modBlk s1 (f := Block.flip q) (fun _ => rfl)).trans hb1
    have h1 : s1.blk bid = (s.blk bid).onQuorum q (Quorum.counted 0) :=
      blk_modBlk_same s (f := fun b => b.onQuorum q (Quorum.counted 0)) (fun _ => rfl) hb
    have h2 : s2.blk bid = (s1.blk bid).flip q := blk_modBlk_same s1 (f := Block.flip q) (fun _ => rfl) hb1
    have hsign : ((s2.blk bid).quorum q).sign = none := by
      rw [h2, h1, Block.quorum_flip (Block.onQuorum_wf hw q _), Block.quorum_onQuorum hw]
      exact hs
    rw [State.complete_eq, State.form_unsigned hsign, ← h1, ← h2]
    exact ⟨(present_modBlk s2 (f := fun b => b.onQuorum q Quorum.unsigned) (fun _ => rfl)).trans hb2,
      blk_modBlk_same s2 (f := fun b => b.onQuorum q Quorum.unsigned) (fun _ => rfl) hb2⟩
  · exact ⟨(present_modBlk s (f := fun b => b.onQuorum q _) (fun _ => rfl)).trans hb, blk_modBlk_same s (f := fun b => b.onQuorum q _) (fun _ => rfl) hb⟩

theorem State.signs_afterSigns (n : Nat) (hb : (s.blocks.find? (fun b => b.bid == bid)).isSome)
    (hw : mwf ⟨0, 0, false, none, []⟩ (s.blk bid).q = true) (hc : ((s.blk bid).quorum q).signed < ((s.blk bid).quorum q).decl)
    (hs : ((s.blk bid).quorum q).sign = none) : (s.blk bid).AfterSigns q n ((s.signs bid q n).blk bid) := by
  induction n generalizing s with
  | zero => exact .zero hw hc hs
  | succ n ih =>
    obtain ⟨hb1, h1⟩ := State.signOnce_signed hb hw (by omega) hs
    have hone := Block.AfterSigns.one hw hc hs
    rw [← h1] at hone
    have hd : 0 < ((s.blk bid).quorum q).decl := by omega
    have hrest := ih hb1 hone.wf (by rw [hone.count, hone.decl]; exact Nat.mod_lt _ hd) hone.sign
    have h := hone.trans hd hrest
    rw [Nat.add_comm] at h
    exact h

end

end Sys2Proof.Machine

open Sys2Proof Sys2Proof.Machine in
/-- Settles O45: by induction on the number of signs. -/
theorem quorumPhasesComplete : Obligations.QuorumPhasesComplete := by
  unfold Obligations.QuorumPhasesComplete
  intro s bid q n hb hw _ d c _ hc hs u
  have h := State.signs_afterSigns n hb hw hc hs
  exact ⟨h.decl, h.count, h.phase, h.done⟩
end

section
/-! SUPPORT. A counterexample to the statement about count barriers: an arrival records the phase that it completes at the command that stands under its
command's identity (R258), and nothing in the statement makes that one a command of the same block. -/

namespace Sys2Proof.Machine

/-- A command of slice 0 of a block, under identity 0 and arriving at count barrier 0. -/
def EngCmd.ofBlock (bid : Nat) : EngCmd :=
  { id := 0, iss := 0, eng := .dray 0, bid := bid, slice := 0, seq := 0, pc := 0, word := 0, desc := [], tag := none, cb := some 0,
    tok := { slice := 0, flag := 15, id := 0 }, stage := .active, units := 0, part := 0, fault := none, phases := [], spans := [], bar := 0, arg := 0,
    mark := false }

/-- A deferred trap of such a command. -/
def Deferred.ofCmd : Deferred := { seq := 0, flag := 15, trap := { cause := .countResidue, kind := 1 } }

/-- A block whose count barrier 0 expects one count. -/
def Block.expecting : Block := { Block.blank with slices := [Slice.blank], cbs := [(0, ⟨0, 1, true, 0⟩)] }

/-- A block with a deferred trap of a command of its slice 0. -/
def Block.deferring : Block := { Block.blank with bid := 1, slices := [{ Slice.blank with deferred := [.ofCmd] }] }

/-- Block 0 expects a count, and the command that stands under identity 0 is one of block 1. -/
def State.crossed : State := { State.reset with blocks := [.expecting, .deferring], cmds := [.ofBlock 1] }

/-- The count of a command of block 0 completes its phase, which block 1 records at its deferred trap. -/
theorem arrive_crossed : ((State.crossed.arrive (.ofBlock 0) 1).sl 1 0).deferred = [{ Deferred.ofCmd with phases := [(0, 0)] }] := by decide +kernel

end Sys2Proof.Machine

open Sys2Proof Sys2Proof.Machine in
/-- Refutes O49: of a command of block 0 under the identity of a command of block 1, an arrival that completes a phase of block 0 changes block 1 also,
whose deferred trap takes the phase. -/
theorem not_countBarriersAndExpectations : ¬ Obligations.CountBarriersAndExpectations := by
  unfold Obligations.CountBarriersAndExpectations
  rintro ⟨-, -, -, -, h, -⟩
  obtain ⟨-, -, hother, -⟩ := h State.crossed (.ofBlock 0) 1 0 rfl rfl rfl (by decide) rfl
  have hdef : ((State.crossed.arrive (.ofBlock 0) 1).sl 1 0).deferred = [Deferred.ofCmd] := by
    rw [State.sl, hother 1 (by decide)]
    rfl
  exact absurd (hdef.symm.trans arrive_crossed) (by decide)
end

section
/-! SUPPORT. What an instruction leaves alone outside its block: the shared issue, and the effects of the control, wait and pool instructions
(R187, R190, R209, R212, R216). -/

namespace Sys2Proof.Machine

/-! ## Outside a block -/

/-- A state without a block, the gang slots and their time, the trap records and the visit. -/
def State.outside (s : State) (bid : Nat) : State := { s.bare bid with blocks := s.blocks.filter (fun b => b.bid != bid) }

/-- The step from `s` to `t` changes nothing outside a block but time, the barrel and the trap records. -/
def State.SameOutside (bid : Nat) (s t : State) : Prop := t.outside bid = s.outside bid

variable {bid : Nat} {s t u : State}

/-- What is outside a block shows in the bare state. -/
theorem State.outside_eq_bare (s : State) (bid : Nat) :
    s.outside bid = { s.bare bid with blocks := (s.bare bid).blocks.filter (fun b => b.bid != bid) } := by
  have hf : (s.bare bid).blocks.filter (fun b => b.bid != bid) = s.blocks.filter (fun b => b.bid != bid) := by
    simp only [State.bare]
    induction s.blocks with
    | nil => rfl
    | cons b l ih =>
      have hb : b.bare.bid = b.bid := rfl
      by_cases h : b.bid = bid
      · simp [h, hb, ih]
      · simp [h, ih]
  rw [hf]
  rfl

namespace State.SameOutside

theorem refl (s : State) : SameOutside bid s s := rfl

theorem trans (h : SameOutside bid s t) (k : SameOutside bid t u) : SameOutside bid s u := Eq.trans k h

theorem of_bare (h : t.bare bid = s.bare bid) : SameOutside bid s t := by
  rw [SameOutside, State.outside_eq_bare, State.outside_eq_bare, h]

theorem of_quiet {g : Slice → Slice} {l : List Nat} (h : Quiet bid g l s t) : SameOutside bid s t := of_bare h.bare

/-- A change of the block alone. -/
theorem modBlk {f : Block → Block} (hf : ∀ b, (f b).bid = b.bid) : SameOutside bid s (s.modBlk bid f) := by
  have hb : (updFirst (fun b => b.bid == bid) f s.blocks).filter (fun b => b.bid != bid) = s.blocks.filter (fun b => b.bid != bid) := by
    induction s.blocks with
    | nil => rfl
    | cons b l ih =>
      by_cases h : b.bid = bid
      · simp [updFirst, h, hf]
      · simp [updFirst, h, ih]
  exact congrArg (fun l => { s.bare bid with blocks := l }) hb

theorem modSl {i : Nat} {f : Slice → Slice} : SameOutside bid s (s.modSl bid i f) := modBlk (fun _ => rfl)

theorem foldl {α : Type} {f : State → α → State} (l : List α) (h : ∀ s a, SameOutside bid s (f s a)) (s : State) : SameOutside bid s (l.foldl f s) := by
  induction l generalizing s with
  | nil => exact refl s
  | cons a l ih => exact (h s a).trans (ih (f s a))

theorem forSlices {l : List Nat} {f : Nat → Slice → Slice} : SameOutside bid s (s.forSlices bid l f) := foldl l (fun _ _ => modSl) s

/-- The issue around an effect on its block alone. -/
theorem closed {key : Nat} {f : Fields} {v : Visit} {s2 : State} (h : SameOutside v.bid (s.opened key f v) s2) :
    SameOutside v.bid s (s.closed key f v s2) :=
  let x := Ctx.make key f v s
  .trans (.trans (.trans (.trans (of_quiet (x.begin_quiet (g := id) s)) h)
    (of_quiet (x.deferPoison_quiet (g := Slice.settled) (l := []) (s.opened key f v) (.inr (fun _ _ => rfl))))) forSlices)
    (of_quiet (x.finish_quiet (l := []) _ _))

end State.SameOutside

/-! ## Effects on a block alone -/

theorem Block.serve_bid (fuel : Nat) (b : Block) : (b.serve fuel).bid = b.bid := by
  induction fuel generalizing b with
  | zero => rfl
  | succ fuel ih =>
    unfold Block.serve
    split
    · rfl
    · split
      · exact ih _
      · rfl

theorem Block.claim_bid (b : Block) (i n : Nat) : (b.claim i n).bid = b.bid := Block.serve_bid _ _

theorem Block.give_bid (b : Block) (i n : Nat) : (b.give i n).bid = b.bid := Block.serve_bid _ _

theorem Block.tagsIdle_bid (b : Block) (w : W64) : (b.tagsIdle w).bid = b.bid := by
  unfold Block.tagsIdle
  induction bitsSet 64 w.toNat generalizing b with
  | nil => rfl
  | cons n l ih =>
    rw [List.foldl_cons, ih]
    split <;> rfl

section
variable (x : Ctx) (s : State)

theorem Ctx.goTo_outside (target : Nat → W64) (link : Bool) : State.SameOutside x.bid s (x.goTo s target link) := .forSlices

theorem Ctx.hold_outside (i : Nat) (k : WaitKind) : State.SameOutside x.bid s (x.hold s i k) := .modSl

theorem Ctx.awaitQuorum_outside (q i : Nat) : State.SameOutside x.bid s (x.awaitQuorum s q i) := by
  unfold Ctx.awaitQuorum
  split
  · exact .modSl
  · exact x.hold_outside s i _

theorem Ctx.qwait_outside (q : Nat) : State.SameOutside x.bid s (x.qwait s q) :=
  .foldl _ (fun _ i => .trans .modSl (x.awaitQuorum_outside _ q i)) s

theorem Ctx.wait_outside : State.SameOutside x.bid s (x.wait s) := by
  refine .foldl _ (fun acc i => ?_) s
  split
  · exact .refl acc
  · split
    · exact .modSl
    · exact x.hold_outside acc i _

theorem Ctx.claim_outside : State.SameOutside x.bid s (x.claim s) :=
  .trans (.foldl _ (fun acc i => .trans (x.hold_outside acc i _) (.modBlk (fun b => b.claim_bid i _))) s) .forSlices

theorem Ctx.cbexp_outside {s2 : State} (h : x.cbexp s = .ok s2) : State.SameOutside x.bid s s2 := by
  refine Laws.foldl_keeps (fun r : Except Trap State => ∀ u, r = .ok u → State.SameOutside x.bid s u) _ _ (.ok s) ?_ (fun r hr i _ u hu => ?_) s2 h
  · intro u hu
    obtain rfl := Except.ok.inj hu
    exact .refl s
  · cases r with
    | error t => cases hu
    | ok s1 =>
      dsimp only at hu
      split at hu
      · cases hu
      · obtain rfl := Except.ok.inj hu
        exact (hr s1 rfl).trans (.modBlk (fun _ => rfl))

theorem Ctx.regang_outside (i : Nat) : State.SameOutside x.bid s (x.regang s i) := by
  unfold Ctx.regang
  extract_lets sl site p c r first s1
  split
  · exact .modBlk (fun _ => rfl)
  · have h1 : State.SameOutside x.bid s s1 := .modSl
    split
    · exact h1.trans (x.hold_outside s1 i _)
    · exact h1.trans (.modBlk (fun _ => rfl))

end

/-! ## Instructions that stay in their block -/

/-- A meaning of an instruction that changes nothing outside the issuing block but time, the barrel and the trap records. -/
def StaysInItsBlock (run : State → Host.Outcome State Fault Refusal) : Prop :=
  ∀ (s t : State) (v : Visit), s.visit = some v → run s = .next t → State.SameOutside v.bid s t

namespace StaysInItsBlock

variable {key : Nat} {f : Fields}

theorem issue {eff : Ctx → State → Except Trap State} (h : ∀ x s s2, eff x s = .ok s2 → State.SameOutside x.bid s s2) :
    StaysInItsBlock (Machine.issue key f eff) := by
  intro s t v hv ht
  obtain ⟨r, hr⟩ | ⟨s2, h2, hr⟩ := issue_cases (key := key) (f := f) eff hv
  · obtain rfl := Host.Outcome.next.inj (hr.symm.trans ht)
    obtain ⟨hbare, -⟩ := s.stopped_frame key f v r
    exact .of_bare hbare
  · obtain rfl := Host.Outcome.next.inj (hr.symm.trans ht)
    exact .closed (h _ _ _ h2)

theorem issueTry {bad : Ctx → State → Option Trap} {eff : Ctx → State → State} (h : ∀ x s, State.SameOutside x.bid s (eff x s)) :
    StaysInItsBlock (Machine.issueTry key f bad eff) := by
  refine issue (fun x s s2 h2 => ?_)
  split at h2
  · cases h2
  · obtain rfl := Except.ok.inj h2
    exact h x s

theorem issueAll {eff : Ctx → State → State} (h : ∀ x s, State.SameOutside x.bid s (eff x s)) : StaysInItsBlock (Machine.issueAll key f eff) := by
  refine issue (fun x s s2 h2 => ?_)
  obtain rfl := Except.ok.inj h2
  exact h x s

theorem transfer {target : Ctx → State → Nat → W64} {link : Bool} : StaysInItsBlock (Machine.transfer key f target link) :=
  issueTry (fun x s => x.goTo_outside s (target x s) link)

end StaysInItsBlock

/-! ## The instructions -/

section
variable (f : FormR) (l : FormL)

theorem execPushj_staysInItsBlock : StaysInItsBlock (execPushj l) := .issueTry (fun _ _ => .forSlices)

theorem execRegang_staysInItsBlock : StaysInItsBlock (execRegang l) :=
  .issueAll (fun x s => .trans (.trans (.foldl _ (fun acc i => x.regang_outside acc i) s) (.of_quiet (l := []) .regangCheck)) .forSlices)

/-- PART regroups the slices of its gang slot, which stands outside every block and is left out with the barrel. -/
theorem execPart_staysInItsBlock : StaysInItsBlock (execPart f) := .issueAll (fun _ _ => .of_quiet (g := id) (l := []) (.modSec ..))

theorem execYield_staysInItsBlock : StaysInItsBlock (execYield f) := .issueAll (fun _ _ => .forSlices)

theorem execQwait_staysInItsBlock : StaysInItsBlock (execQwait f) := .issueAll (fun x s => x.qwait_outside s _)

theorem execTagclr_staysInItsBlock : StaysInItsBlock (execTagclr f) :=
  .issueAll (fun _ s => .foldl _ (fun _ _ => .modBlk (fun b => b.tagsIdle_bid _)) s)

theorem execCbexp_staysInItsBlock : StaysInItsBlock (execCbexp f) := .issue (fun x s _ => x.cbexp_outside s)

theorem execClaim_staysInItsBlock : StaysInItsBlock (execClaim f) := .issueTry Ctx.claim_outside

theorem execGive_staysInItsBlock : StaysInItsBlock (execGive f) :=
  .issueTry (fun _ s => .foldl _ (fun _ i => .modBlk (fun b => b.give_bid i _)) s)

end

theorem formR_staysInItsBlock (f : FormR) : ∀ c ∈ ([.brx, .callx, .ret, .part, .yield, .qwait, .waitf, .waitt, .waitta, .tagclr, .cbexp, .cbwait,
    .claim, .give] : List (FormR → Instr)), StaysInItsBlock (exec (c f)) := by
  simp only [List.forall_mem_cons, List.not_mem_nil, false_implies, implies_true, and_true]
  refine ⟨?brx, ?callx, ?ret, ?part, ?yield, ?qwait, ?waitf, ?waitt, ?waitta, ?tagclr, ?cbexp, ?cbwait, ?claim, ?give⟩
  case brx => exact (.transfer : StaysInItsBlock (execBrx f))
  case callx => exact (.transfer : StaysInItsBlock (execCallx f))
  case ret => exact (.transfer : StaysInItsBlock (execRet f))
  case part => exact execPart_staysInItsBlock f
  case yield => exact execYield_staysInItsBlock f
  case qwait => exact execQwait_staysInItsBlock f
  case waitf => exact (.issueTry Ctx.wait_outside : StaysInItsBlock (execWaitf f))
  case waitt => exact (.issueAll Ctx.wait_outside : StaysInItsBlock (execWaitt f))
  case waitta => exact (.issueAll Ctx.wait_outside : StaysInItsBlock (execWaitta f))
  case tagclr => exact execTagclr_staysInItsBlock f
  case cbexp => exact execCbexp_staysInItsBlock f
  case cbwait => exact (.issueAll Ctx.wait_outside : StaysInItsBlock (execCbwait f))
  case claim => exact execClaim_staysInItsBlock f
  case give => exact execGive_staysInItsBlock f

theorem formL_staysInItsBlock (l : FormL) : ∀ c ∈ ([.bra, .call, .pushj, .regang] : List (FormL → Instr)), StaysInItsBlock (exec (c l)) := by
  simp only [List.forall_mem_cons, List.not_mem_nil, false_implies, implies_true, and_true]
  refine ⟨?bra, ?call, ?pushj, ?regang⟩
  case bra => exact (.transfer : StaysInItsBlock (execBra l))
  case call => exact (.transfer : StaysInItsBlock (execCall l))
  case pushj => exact execPushj_staysInItsBlock l
  case regang => exact execRegang_staysInItsBlock l

end Sys2Proof.Machine

open Sys2Proof Sys2Proof.Machine in
/-- Settles O58: each instruction is an issue whose effect changes its own block or the gang slots alone. -/
theorem controlStaysInItsBlock : Obligations.ControlStaysInItsBlock := by
  unfold Obligations.ControlStaysInItsBlock
  exact ⟨fun c hc f => formR_staysInItsBlock f c hc, fun c hc f => formL_staysInItsBlock f c hc⟩
end

section
/-! The matrix instructions: each is the shared issue with checks of its own (R67, R225). -/

open Sys2Proof Sys2Proof.Machine in
/-- Settles O15: the Loom instructions, MXV and MXVP each make their checks in the opened state before their effect. -/
theorem matrixCompletes : Obligations.MatrixCompletes := by
  unfold Obligations.MatrixCompletes
  and_intros
  iterate 12 exact .of_issueTry fun _ _ => rfl
end

section
/-! SUPPORT. The Loom's events: the branch that each takes under the conditions that choose it (R348 to R353). -/

namespace Sys2Proof.Machine

theorem firstSome_cons_some {α β : Type} {g : α → Option β} {a : α} {l : List α} {b : β} (h : g a = some b) : firstSome g (a :: l) = some b :=
  firstSome_append_cons (pre := []) (fun _ hc => nomatch hc) h

variable {s : State} {core : Nat}

/-! ## LOOM_ACCEPT (R348) -/

/-- The heads of the resident blocks' Loom orders that may be accepted, each with its block. -/
def State.loomHeads (s : State) (core : Nat) : List (Block × LoomOp) := (s.residents core).filterMap (fun b => (s.loomHead core b).map (fun o => (b, o)))

/-- The oldest head is accepted where no MXV waits. -/
theorem State.loomAccept_head {p : Block × LoomOp} (hp : s.loomPlaces core < 2) (hh : leastBy (fun p => p.2.iss) (s.loomHeads core) = some p)
    (hc : s.mxvs.filter (s.mxvWaits core) = []) : s.loomAccept core = some (s.acceptOp core p.1 p.2) := by
  simp only [State.loomHeads] at hh
  simp only [State.loomAccept, if_neg (Nat.not_le.2 hp), hh, hc, leastBy]

/-- The oldest waiting MXV is accepted where there is no head. -/
theorem State.loomAccept_segment {c : MxvCall} (hp : s.loomPlaces core < 2) (hh : s.loomHeads core = [])
    (hc : leastBy (fun c => c.iss) (s.mxvs.filter (s.mxvWaits core)) = some c) : s.loomAccept core = some (s.acceptSeg c) := by
  simp only [State.loomHeads] at hh
  simp only [State.loomAccept, if_neg (Nat.not_le.2 hp), hh, hc, leastBy]

section
variable {b : Block} {o : LoomOp}

/-! ## METADATA_GRANT and LOOM_OPERATION_COMPLETE (R349, R352) -/

section
variable {l : List (Block × LoomOp)} (hl : s.loomOps core = (b, o) :: l)
include hl

theorem State.metaGrant_granted (hs : o.stage = .accepted) (ho : wordOpc o.word = 0x186) :
    let n := metaWords (wordTy o.word)
    let rows := (List.range 128).map (fun m => metaRow o.desc m)
    rows.any (fun a => s.engineHeld b.bid o.iss a (4 * n) false) = false → rows.find? (fun a => b.benchPoisoned a (4 * n)) = none →
      s.metaGrant core = some (s.modLoom b.bid o.id (fun x => { x with
        stage := .granted,
        vals := rows.flatMap (fun a => (chunk 4 n (mrun 0 b.bench a (4 * n))).map (fun l => BitVec.ofNat 32 (natOfBytes l))) })) := by
  intro n rows hh hp
  rw [State.metaGrant, hl]
  refine firstSome_cons_some ?_
  have hc : ¬(o.stage ≠ .accepted ∨ wordOpc o.word ≠ 0x186) := by simp [hs, ho]
  simp only [if_neg hc]
  rw [hh, hp]
  rfl

section
variable (hn : o.isLopf = false) (hc : s.canComplete core b o = true)
include hn hc

theorem State.loomComplete_drains (hd : o.isDrain = true) : s.loomComplete core = some (s.drainCopy b o) := by
  rw [State.loomComplete, hl]
  exact firstSome_cons_some (by simp only [hn, hc, hd, Bool.not_true, Bool.false_eq_true, if_false, if_true])

theorem State.loomComplete_results {b1 : Block} (hd : o.isDrain = false) (hr : o.result b = .ok b1) :
    s.loomComplete core = some ((s.modBlk b.bid (fun _ => b1)).loomDone core b o) := by
  rw [State.loomComplete, hl]
  exact firstSome_cons_some (by simp only [hn, hc, hd, hr, Bool.not_true, Bool.false_eq_true, if_false])

theorem State.loomComplete_faults {f : Failure} (hd : o.isDrain = false) (hr : o.result b = .error f) :
    s.loomComplete core = some (s.loomFault core b o f (o.faultRow f)) := by
  rw [State.loomComplete, hl]
  exact firstSome_cons_some (by simp only [hn, hc, hd, hr, Bool.not_true, Bool.false_eq_true, if_false])

end

theorem State.loomComplete_lopf {t : State} (ho : o.isLopf = true) (ht : s.lopfStep core b o = some t) : s.loomComplete core = some t := by
  rw [State.loomComplete, hl]
  exact firstSome_cons_some (by simp only [ho, ht, if_true])

end

/-- A LOPF.v writes the index stage once no earlier LOPF and no earlier reader of the stage that is still queued stands before it. -/
theorem State.lopfStep_writes (hv : wordMod o.word 0 0 = 0) (hm : s.mayRedo b.bid o.id = true)
    (ha : ∀ p ∈ b.loomQ, p.iss < o.iss → p.isLopf = false ∧ (p.readsStage = true → p.stage ≠ .queued)) :
    s.lopfStep core b o =
      some ((s.modBlk b.bid (fun b => { b with idx := mputs 0xFFFFFFFF b.idx (4 * wordMod o.word 5 1) o.vals })).loomDone core b o) := by
  have hahead : (b.loomQ.filter (fun p => decide (p.iss < o.iss))).any (fun p => p.isLopf || (p.readsStage && decide (p.stage = .queued))) = false :=
    List.any_eq_false.2 fun p hp => by
      obtain ⟨hq, hi⟩ := List.mem_filter.1 hp
      obtain ⟨hf, hr⟩ := ha p hq (of_decide_eq_true hi)
      simpa [hf] using hr
  simp only [State.lopfStep, hv, hm, hahead, Nat.zero_ne_one, decide_false, Bool.not_true, Bool.false_and, Bool.or_self, Bool.false_eq_true, if_false]

/-! ## DRAIN_STORE_COMPLETE (R240, R242, R353) -/

/-- The store phase that goes on is that of the drain whose turn it is. -/
theorem State.drainStep_turn
    (hl : leastBy (fun (p : Block × LoomOp) => p.2.turn)
      ((s.loomOps core).filter (fun p => p.2.isDrain && decide (p.2.turn ≠ 0) && s.goesOn p.1.bid p.2.iss)) = some (b, o))
    (hs : o.stage = .draining) (hm : s.mayRedo b.bid o.id = true) :
    s.drainStep core = if wordOpc o.word = 0x188 then s.drainStore core b o else s.drainAdds core b o := by
  have hc : ¬(o.stage ≠ .draining ∨ s.mayRedo b.bid o.id = false) := by simp [hs, hm]
  simp only [State.drainStep, hl, if_neg hc]

/-- Where every row translates and the old bytes are read, the rows are stored. -/
theorem State.drainStore_stores :
    let mem := decide (wordMod o.word 0 0 = 1)
    let add := decide (wordMod o.word 1 1 = 1)
    let stores := cornerRuns mem false true (wordTy o.word) o.desc
    let reads := if add then cornerRuns mem true false (wordTy o.word) o.desc else []
    ∀ {s1 : State} {ps : List (List Piece)} {olds : List (List Byte)}, s.prepare core b.bid o.iss (stores ++ reads) = .ok s1 ps →
      s1.runsBytes (dieOf core) b.bid (reads.zip (ps.drop stores.length)) = .ok olds →
      s.drainStore core b o = some (((stores.zip ps).zipIdx.foldl (fun (s : State) (p : (Run × List Piece) × Nat) =>
        s.writeRun (o.source core b.bid (128 * p.2)) p.1.1 p.1.2 (o.drainRow p.2 (if add then olds[p.2]? else none)) (o.unitAt p.2))
        (s1.ownFrames b.bid ps.flatten)).loomDone core b o) := by
  intro mem add stores reads s1 ps olds hp hr
  simp only [State.drainStore]
  rw [hp]
  dsimp only
  rw [hr]

/-- An LDRX ends once every row's addends are sent and folded. -/
theorem State.drainAdds_ends (h0 : 0 < o.row) (hr : cornerRows o.desc ≤ o.row) (ha : s.addQ.any (fun d => d.src.op == o.id && d.src.bid == b.bid) = false) :
    s.drainAdds core b o = some (s.loomDone core b o) := by
  simp only [State.drainAdds, if_neg (Nat.ne_of_gt h0), if_pos hr, ha, Bool.false_eq_true, if_false]

/-! ## OPERAND_BUFFER_LINE_ENTRY (R350) -/

theorem State.lineEntry_enters {q : Pin}
    (hl : leastBy (fun (p : Block × LoomOp) => p.2.turn) ((s.loomOps core).filter (fun p => p.2.live && !p.2.unread.isEmpty)) = some (b, o))
    (hq : (s.core core).pins.find? (fun q => q.op == o.id) = some q) (hw : s.windowDown (128 * q.line) = false) :
    s.lineEntry core = some (s.takePin core q) := by
  simp only [State.lineEntry, hl, hq, State.enterLine, hw, Bool.false_eq_true, if_false]

end

end Sys2Proof.Machine
end

section
/-! SUPPORT. The progress of MXV calls on the Loom and on the Mill (R354 to R357). -/

namespace Sys2Proof.Machine

variable {s : State} {c : MxvCall} {g : MxvSeg}

/-! ## MXV_SEGMENT_COMPLETE (R354) -/

theorem exec_mxvSegmentComplete {id : Nat} {t : State} (hc : s.mxvs.find? (fun c => c.id == id) = some c) (ht : s.mxvStep c = some t) :
    exec (.mxvSegmentComplete id) s = .next t := by
  simp only [exec, execMxvSegmentComplete, hc, ht, Option.getD_some]

/-- A call with every row done, and no write of it on its way, ends. -/
theorem State.mxvStep_ends {core : Nat} (hl : (s.blk c.bid).loc = .resident core) (hs : c.seg = none) (hm : s.mayRedo c.bid c.id = true)
    (hr : mxvRows c.desc ≤ c.rows) (hw : s.l2w.any (fun w => w.src.op == c.id && w.src.bid == c.bid) = false) : s.mxvStep c = some (s.mxvDone c) := by
  simp only [State.mxvStep, hl, hs, hm, hw, if_pos hr, Bool.true_eq_false, Bool.false_eq_true, if_false]

/-- A segment on the Loom with its last block computed stores its results in its turn. -/
theorem State.mxvStep_stores {core : Nat} (hl : (s.blk c.bid).loc = .resident core) (hs : c.seg = some g) (hg : g.mill = false)
    (ho : s.goesOn c.bid c.iss = true) (ht : s.loomTurn (s.blk c.bid).core = some g.turn) (hk : 32 * c.kb ≤ g.kpos) :
    s.mxvStep c = s.storeResults c g := by
  simp only [State.mxvStep, hl, hs, hg, State.loomSegment, ho, ht, if_pos hk, ne_eq, not_true_eq_false, Bool.not_true, Bool.false_eq_true, if_false]

theorem State.storeResults_stores : let n := g.last + 1 - g.first
    let src := c.source (s.blk c.bid).core g.first
    let runs := (mxvYRuns c.word c.desc g.first n).map (fun p => Run.store c.ym p.1 p.2)
    let reads := if g.late c then c.priors g.first n else []
    ∀ {s1 : State} {ps : List (List Piece)} {ys : List (List Byte)}, s.prepare (s.blk c.bid).core c.bid c.iss (runs ++ reads) = .ok s1 ps →
      s1.runsBytes (dieOf (s.blk c.bid).core) c.bid (reads.zip (ps.drop runs.length)) = .ok ys →
      s.storeResults c g = some (((runs.zip ps).zipIdx.foldl (fun (s : State) (p : (Run × List Piece) × Nat) =>
        s.writeRun src p.1.1 p.1.2 ((List.range n).flatMap (fun k => bytesOf 4 (g.value c ys k p.2).toNat)))
        (s1.ownFrames c.bid ps.flatten)).modMxv c.id (fun y =>
          { y with rows := g.last + 1, seg := none, xwin := if y.kb ≤ 256 then y.xwin else none })) := by
  intro n src runs reads s1 ps ys hp hr
  simp only [State.storeResults]
  rw [hp]
  dsimp only
  rw [hr]

/-! ## MILL_BLOCK_FORWARD (R356, R357) -/

/-- The value of a block whose weights are read is taken to the row's owner. -/
theorem State.millBlock_computes {xs bs : List (List MatBlock)} {k : Nat} {s1 : State} {rest : List (List Byte)}
    (hr : s.readParts c millDie [c.w g.row k 1] [] = .ok s1 (bs, rest)) :
    s.millBlock c g xs k = .ok (s1.modMxv c.id (fun y => { y with seg := y.seg.map (fun y =>
      { y with fwd := y.fwd ++ [((g.row, k), c.millValue g xs k ((bs.headD []).headD (scaleOne, [])))] }) })) () := by
  simp only [State.millBlock, hr]

/-- An engine sends the first block of its own that the row's owner, another engine, lacks. -/
theorem State.millForward_sends {id k : Nat} {t : State} {xs : List (List MatBlock)} (hc : s.mxvs.find? (fun c => c.id == id) = some c)
    (hs : c.seg = some g) (hm : g.mill = true) (hrow : g.row ≤ g.last) (hlo : g.kpos / 32 ≤ k) (hhi : k < g.kpos / 32 + c.windowN g)
    (hnew : g.has k = false) (hl : (s.blk c.bid).loc ≠ .saved) (ha : c.absent = false) (hb : s.bankOf c g.row k ≠ s.bankOf c g.row 0)
    (hfirst : ∀ i < k - g.kpos / 32, g.has (g.kpos / 32 + i) = true ∨ s.bankOf c g.row (g.kpos / 32 + i) ≠ s.bankOf c g.row k)
    (hx : c.held g = some (.ok xs)) (ht : s.millBlock c g xs k = .ok t ()) : s.millForward id g.row k = some t := by
  have hearlier : (List.range (k - g.kpos / 32)).any (fun i =>
      !g.has (g.kpos / 32 + i) && s.bankOf c g.row (g.kpos / 32 + i) == s.bankOf c g.row k) = false :=
    List.any_eq_false.2 fun i hi => by
      rcases hfirst i (List.mem_range.1 hi) with h | h <;> simp [h]
  have hbank : (s.bankOf c g.row k == s.bankOf c g.row 0) = false := beq_false_of_ne hb
  simp only [State.millForward, hc, hs, hm, hnew, ha, hbank, hearlier, decide_eq_false (Nat.not_lt.2 hrow), decide_eq_false (Nat.not_lt.2 hlo),
    decide_eq_false (Nat.not_le.2 hhi), decide_eq_false hl, bne_self_eq_false, hx, ht, Bool.not_true, Bool.or_self, Bool.false_eq_true, if_false]

end Sys2Proof.Machine
end

section
/-! SUPPORT. The commands of the Dray and the Surveyor: their start, the loop over their units, and their completion (R254, R258, R363, R364, R370). -/

namespace Sys2Proof.Machine

variable {s : State} {c : EngCmd}

/-! ## The loop over a command's units -/

theorem State.arriveId_zero (s : State) (id : Nat) : s.arriveId id 0 = s := by
  simp only [State.arriveId]
  split <;> rfl

section
variable {total : State → EngCmd → Nat} {step : State → EngCmd → UnitEnd} {need : EngCmd → Nat} {fin : State → EngCmd → Option State} {room fuel : Nat}
  (hc : s.cmd c.id = some c)
include hc

/-- A command whose units are done, or that met a fault, ends. -/
theorem State.unitLoop_ends {t : State} (hd : total s c ≤ c.units ∨ c.fault ≠ none) (ht : fin s c = some t) :
    s.unitLoop total step need fin c.id true room 0 (fuel + 1) = some t := by
  rw [← Option.isSome_iff_ne_none] at hd
  simp only [State.unitLoop, hc, if_pos hd, State.arriveId_zero, ht]

section
variable (hf : c.fault = none) (hu : c.units < total s c)
include hf hu

theorem State.unitLoop_cut {s1 : State} (hs : step s c = .cut s1) : s.unitLoop total step need fin c.id true room 0 (fuel + 1) = some s1 := by
  have hd : ¬(total s c ≤ c.units ∨ c.fault.isSome = true) := by simp [hf, hu]
  simp only [State.unitLoop, hc, if_neg hd, hs, State.arriveId_zero]

/-- A unit after which no other has room is the last of its batch. -/
theorem State.unitLoop_full {s1 : State} {n k : Nat} (hs : step s c = .done s1 n k) (hr : room < n + need c) :
    s.unitLoop total step need fin c.id true room 0 (fuel + 1) =
      some ((s1.modCmd c.id (fun y => { y with units := c.units + 1, part := 0 })).arriveId c.id k) := by
  have hd : ¬(total s c ≤ c.units ∨ c.fault.isSome = true) := by simp [hf, hu]
  simp only [State.unitLoop, hc, if_neg hd, hs, if_pos hr, Nat.zero_add]

end
end

/-! ## The Dray (R363, R364) -/

theorem State.drayStart_oldest {core : Nat}
    (hn : ((s.queued (.dray core)).filter (fun c => decide (c.stage = .active))).length < 4)
    (hl : leastBy (fun (c : EngCmd) => c.iss) ((s.queued (.dray core)).filter (fun c =>
      decide (c.stage = .queued) && s.cmdRuns c && s.mayRedo c.bid c.id)) = some c) :
    s.drayStart core = some (s.modCmd c.id (fun y => { y with stage := .active })) := by
  simp only [State.drayStart, if_neg (Nat.not_le.2 hn), hl]

/-- The state `t` that a command's turn leaves, with the rotation moved on where a chunk of it was performed. -/
def State.drayTurned (t : State) (core : Nat) (c : EngCmd) : State :=
  if (match t.cmd c.id with
    | some y => y.units == c.units && y.part == c.part && y.stage == c.stage
    | none => false) then t else t.modCore core (fun k => { k with drayLast := c.iss })

/-- The first command of the rotation takes its turn where it can go on. -/
theorem State.drayChunk_first {core : Nat} {l : List EngCmd} {t : State} (hr : s.drayRotation core = c :: l) (ht : s.drayTurn c = some t) :
    s.drayChunk core c.id = some (t.drayTurned core c) := by
  have hserve : s.drayServe core = some (c.id, t.drayTurned core c) := by
    rw [State.drayServe, hr]
    exact firstSome_cons_some (by rw [ht]; rfl)
  simp only [State.drayChunk, hserve, if_true]

/-- An active command that nothing holds back performs its next chunk, or ends. -/
theorem State.drayTurn_goes (hs : c.stage = .active) (hr : s.cmdRuns c = true) (hd : s.arriveHeld c = none) (ha : s.acquirePending c = false) :
    s.drayTurn c = s.unitLoop (fun _ c => drayRows c.desc) State.unitPart (fun c => if c.opc = 0x1C4 then 4096 else drayRb c.desc)
      (fun s c => some (s.finishCmd c)) c.id true 4096 0 1025 := by
  have hc : ¬(c.stage ≠ .active ∨ (!s.cmdRuns c) = true) := by simp [hs, hr]
  simp only [State.drayTurn, if_neg hc, hd, ha, Bool.false_eq_true, if_false]

/-- One row moved whole is all there is of a unit of one move. -/
theorem State.moveOn_row {m : Move} {ws : List Nat} {fuel : Nat} {s2 : State} (h0 : 0 < drayRb c.desc) (h1 : drayRb c.desc ≤ 4096)
    (hm : s.doMove c m 0 (drayRb c.desc) = .ok s2 ()) :
    s.moveOn c { l := [m], bad := none } ws 0 0 4096 (fuel + 2) = .done (s2.modCmd c.id (fun y => { y with memo := [] })) (drayRb c.desc) (c.counts 1) := by
  have hlast : ([m] : List Move)[drayRb c.desc / drayRb c.desc]? = none := by simp [Nat.div_self h0]
  simp only [State.moveOn, Nat.zero_mod, Nat.zero_div, Nat.sub_zero, Nat.min_eq_right h1, List.getElem?_cons_zero, if_neg (Nat.not_lt.2 h1), hm,
    Nat.zero_add, hlast, List.length_singleton]

/-- The next unit of a DCPY is one row, copied whole where it has at most 4,096 bytes. -/
theorem State.unitPart_copies {s2 : State} (ho : c.opc = 0x1C0) (hp : c.part = 0) (h0 : 0 < drayRb c.desc) (h1 : drayRb c.desc ≤ 4096)
    (hm : s.doMove c { src := .row c.units, dst := c.units } 0 (drayRb c.desc) = .ok s2 ()) :
    s.unitPart c = .done (s2.modCmd c.id (fun y => { y with memo := [] })) (drayRb c.desc) (c.counts 1) := by
  have hmove := State.moveOn_row (ws := []) (fuel := 1024) h0 h1 hm
  simpa [State.unitPart, State.unitWords, EngCmd.unitMoves, ho, hp, h1] using hmove

/-! ## ENGINE_COMMAND_COMPLETE (R254, R258) -/

section
variable {id : Nat} (hc : s.cmd id = some c) (hs : c.stage = .finished)
include hc hs

/-- A finished command has nothing left to do at its unit. -/
theorem State.cmdAdvance_finished : s.cmdAdvance id = s.cmdComplete id := by
  have hcrier : s.crierCmd c = none := if_pos (.inl hs)
  simp only [State.cmdAdvance, hc, hcrier]
  split <;> rfl

theorem State.cmdComplete_arrives {t : State} (hd : s.arriveHeld c = some t) : s.cmdComplete id = some t := by
  simp only [State.cmdComplete, hc, hs, hd, ne_eq, not_true_eq_false, if_false]

theorem State.cmdComplete_leaves (hd : s.arriveHeld c = none) (ha : s.adding c = false) :
    let s1 : State := { s with cmds := s.cmds.filter (fun y => y.id != id) }
    let s2 := match c.fault with
      | some t => s1.deferCmd c t
      | none => s1
    let s3 := match c.tag with
      | some n => s2.modBlk c.bid (fun b => b.tagDone n)
      | none => s2
    s.cmdComplete id = some (s3.lower c.bid c.slice c.tok.flag) := by
  rw [State.cmdComplete, hc]
  refine (if_neg (not_not.2 hs)).trans ?_
  rw [hd]
  exact if_neg (by rw [ha]; exact Bool.false_ne_true)

end

/-! ## The Surveyor (R258, R263, R370) -/

theorem State.surveyorStart_oldest {u : Nat} (hn : ∀ y ∈ s.queued (.surveyor u), y.stage = .active → s.cmdRuns y = false)
    (hl : leastBy (fun (c : EngCmd) => c.iss) ((s.queued (.surveyor u)).filter (fun c =>
      decide (c.stage = .queued) && s.cmdRuns c && s.mayRedo c.bid c.id)) = some c) :
    s.surveyorStart u = some (s.modCmd c.id (fun y => { y with stage := .active })) := by
  have hidle : (s.queued (.surveyor u)).any (fun c => decide (c.stage = .active) && s.cmdRuns c) = false :=
    List.any_eq_false.2 fun y hy => by simpa using hn y hy
  simp only [State.surveyorStart, hidle, hl, Bool.false_eq_true, if_false]

theorem State.surveyorBatch_goes {u : Nat} (hf : (s.queued (.surveyor u)).find? (fun c => decide (c.stage = .active) && s.cmdRuns c) = some c)
    (ha : s.acquirePending c = false) (he : s.engFence c = none) :
    s.surveyorBatch u = s.unitLoop (fun _ c => c.svTotal) State.svUnit (fun _ => 1) State.svFin c.id true 256 0 257 := by
  simp only [State.surveyorBatch, hf, ha, he, Bool.false_eq_true, if_false]

/-- A command's beginning stands for one unit. -/
theorem EngCmd.svTotal_unbegun (h : c.arg = 0) : c.svTotal = 1 := if_pos h

theorem State.svUnit_begins (ha : c.arg = 0) (hb : s.svBeginFailure c = none) (ho : wordOpc c.word ≠ 0x1CD) :
    s.svUnit c = .cut (s.modCmd c.id (fun y => { y with arg := ((s.inTable c).nv + 1) * 2 ^ 32 })) := by
  simp only [State.svUnit, State.svBegin, hb, if_pos ha, if_neg ho]

/-- SVFREE and SVMAP, once begun, have no unit of their own. -/
theorem EngCmd.svTotal_unitless (ha : c.arg ≠ 0) (ho : wordOpc c.word = 0x1CC ∨ wordOpc c.word = 0x1CB) : c.svTotal = 0 := by
  rcases ho with ho | ho
  all_goals simp [EngCmd.svTotal, EngCmd.svCount, ha, ho]

theorem State.svFin_frees (hf : c.fault = none) (ho : wordOpc c.word = 0x1CC) : s.svFin c = some ((s.dropTable c []).finishCmd c) := by
  simp [State.svFin, hf, ho]

theorem State.svFin_answers (hf : c.fault = none) (ho : wordOpc c.word = 0x1CB) : s.svFin c = some ((s.svAnswer c).finishCmd c) := by
  simp [State.svFin, hf, ho]

end Sys2Proof.Machine
end

section
/-! SUPPORT. The Crier's events: acceptance, the fetch and the delivery of pages, and the merge (R274, R275, R376 to R381). -/

namespace Sys2Proof.Machine

variable {s : State} {u n : Nat} {y : Sub} {c : EngCmd}

/-! ## SUBSCRIPTION_ACCEPT (R275, R379) -/

/-- Whether an ATSTRM of the subscription's stream, issued before its ATSUB, is still to be performed. -/
def State.subOpening (s : State) (c : EngCmd) (y : Sub) : Bool :=
  s.cmds.any (fun z => decide (wordOpc z.word = 0x1CE) && decide (z.iss < c.iss) && decide (z.stage ≠ .finished) &&
    decide (bitsOf (dW z.desc 0) 5 0 = y.sid) && (s.blk z.bid).part == y.part)

/-- The subscriptions of a unit that stand before its n-th: those accepted that have not ended, and those that arrived earlier. -/
def State.subsBefore (s : State) (u n : Nat) : Nat :=
  ((s.crier u).subs.filter (fun z => !z.pages.isEmpty && !z.ended)).length +
    (((s.crier u).subs.take n).filter (fun z => z.pages.isEmpty && !z.ended && s.runs z.bid)).length

/-- A subscription that nothing holds back and that has never been accepted comes to the checks of its first acceptance. -/
theorem State.subAccept_first (hy : (s.crier u).subs[n]? = some y) (hc : s.cmd y.cmd = some c) (ha : y.accepted = false) (he : y.ended = false)
    (hr : s.runs y.bid = true) (hm : c.mark = false) (hab : c.absent = false) (hp : y.pages = []) (hq : s.acquirePending c = false)
    (hf : s.engFence c = none) (ho : s.subOpening c y = false) (hn : s.subsBefore u n < 512) : s.subAccept u n = s.acceptFirst c y := by
  simp only [State.subOpening] at ho
  simp only [State.subsBefore] at hn
  simp only [State.subAccept, hy, hc, ha, he, hr, hm, hab, hp, hq, hf, ho, decide_eq_false (Nat.not_le.2 hn), List.isEmpty_nil, ne_eq, not_true_eq_false,
    Bool.not_true, Bool.and_false, Bool.or_self, Bool.false_eq_true, if_false]

/-- Outside a pass an acceptance reserves its granules where the merge buffer has them. -/
theorem State.reserveSub_reserves {t : Stream} {need : Bool → Nat} {f : Sub → Sub} (ht : t.pass = none)
    (hn : need false ≤ (s.crier (crierOf y.sid)).free) : s.reserveSub c y t need f true =
      some ((((s.modSub y.id (fun z => { f z with accepted := true, waited := false, inPass := false, allRes := false, gran := z.gran + need false })).modCrier
        (crierOf y.sid) (fun k => { k with used := k.used + need false })).modStream y.part y.sid (fun t => { t with made := t.made + 1 })).modCmd c.id
        (fun z => { z with spans := [] })) := by
  simp only [State.reserveSub, ht, Option.isSome_none, if_neg (Nat.not_lt.2 hn), if_true]

/-- A first acceptance whose page list passes the checks of R275 comes to its reservation. -/
theorem State.acceptFirst_checked {t : Stream} {s1 : State} {l : List (List Byte)} (ht : s.stream y.part y.sid = some t) (hm : t.made ≤ t.nsb)
    (hr : y.rbase + y.nslot * t.slotBytes ≤ (s.blk y.bid).bsize) (hl : s.engRead c 0 [Run.read true y.lb.toNat (4 * y.nl)] = .ok s1 l) :
    let pages := (wordsOf (l.headD [])).map (fun w => w.toNat)
    let p := (partialBytes y.qr (dimOf t.dkm) + 255) / 256
    listOk t.np pages = true → s.acceptFirst c y = s1.reserveSub c y t (fun within => if within then (y.nl + 1) * p else p)
      (fun z => { z with pages := pages, acc := List.replicate (2 * y.qr + y.qr * dimOf t.dkm) 0 }) true := by
  intro pages p hok
  simp only [State.acceptFirst, ht, if_neg (Nat.not_lt.2 hm), if_neg (Nat.not_lt.2 hr), hl]
  rw [hok]
  rfl

/-! ## CRIER_PAGE_FETCH and PAGE_DELIVERY (R274, R376, R377, R380) -/

/-- The first stream of the rotation fetches its due page where every receiver has room. -/
theorem State.pageFetch_first {p : Nat} {t : Stream} {ts : List Stream} {l : List Sub} (hn : (s.crier u).streams.any (fun t => t.fetch.isSome) = false)
    (hr : (s.crier u).rotation = t :: ts) (hd : s.duePage (s.crier u) t = some (p, l)) (hm : (s.crier u).room l = true)
    (ha : t.pass = none → s.acceptsFirst u t = false) : s.pageFetch u = some ((s.beginPass u t).fetchPool u t p l) := by
  have hwait : (t.pass.isNone && s.acceptsFirst u t) = false := by simpa using ha
  have hturn : s.streamTurn u t = some ((s.beginPass u t).fetchPool u t p l) := by
    simp only [State.streamTurn, hd, hwait, hm, Bool.false_eq_true, if_false, if_true]
  simp only [State.pageFetch, hn, hr, Bool.false_eq_true, if_false]
  exact firstSome_cons_some hturn

/-- The state in which a page stands in a ring slot of a receiver, which is no longer one of those it is on its way to. -/
def State.slotFilled (s : State) (u p slot : Nat) (t : Stream) (data : List Byte) (y : Sub) (id : Nat) : State :=
  ((s.modBlk y.bid (fun b => b.benchWrite (y.slotAddr t slot) data)).modSub id (fun z => { z with
    deliv := z.deliv ++ [y.pos p], ring := z.ring ++ [(slot, y.pos p, false)], nextSlot := (slot + 1) % z.nslot })).modCrier u (fun k => k.unsend id)

theorem State.pageDeliver_delivers {p id slot : Nat} {t : Stream} {data : List Byte} {ids : List Nat}
    (ht : (s.crier u).streams.find? (fun t => t.fetch.isSome) = some t) (hf : t.fetch = some (p, data, ids)) (hi : ids[n]? = some id)
    (hy : s.subId id = some y) (hs : y.freeSlot = some slot) (hl : (s.blk y.bid).loc ≠ .saved)
    (hh : s.engineHeld y.bid s.iss (y.slotAddr t slot) data.length true = false) (hc : (s.slotFilled u p slot t data y id).cmd y.cmd = some c) :
    let s1 := (s.slotFilled u p slot t data y id).arrive c 1
    s.pageDeliver u n = some (if y.deliv.length + 1 = y.nl then s1.finishCmd c else s1) := by
  have hw : ¬((s.blk y.bid).loc = .saved ∨ s.engineHeld y.bid s.iss (y.slotAddr t slot) data.length true = true) := by simp [hl, hh]
  simp only [State.slotFilled] at hc ⊢
  simp only [State.pageDeliver, ht, hf, hi, hy, hs, if_neg hw, hc]

/-! ## MERGE_FOLD (R278, R381) -/

theorem State.foldNext_folds {p : List W32} (hy : (s.crier u).subs[n]? = some y) (hp : y.posted.lookup y.merged = some p) (he : y.ended = false)
    (hm : (s.crier u).mergeNext = some y.id) : let g := min y.gran1 y.gran
    s.foldNext u n = some ((s.modSub y.id (fun z => { z with
      acc := y.foldPartial p, merged := y.merged + 1, posted := z.posted.filter (fun q => q.1 != y.merged), gran := z.gran - g })).modCrier u
      (fun k => { k with used := k.used - g, merge := y.place })) := by
  simp only [State.foldNext, hy, hp, he, hm, bne_self_eq_false, Bool.or_self, Bool.false_eq_true, if_false]

end Sys2Proof.Machine
end

section
/-! The events of the engines, assembled from the branches above. -/

open Sys2Proof Sys2Proof.Machine in
/-- Settles O19: under the conditions named, the step of each event is the branch that they choose. -/
theorem engineEventsComplete : Obligations.EngineEventsComplete := by
  unfold Obligations.EngineEventsComplete
  refine ⟨?loomAccept, ?metadataGrant, ?loomComplete, ?drainStore, ?lineEntry, ?mxvSegment, ?millForward, ?drayStart, ?drayChunk, ?commandComplete,
    ?surveyorStart, ?surveyorBatch, ?subscriptionAccept, ?pageFetch, ?pageDelivery, ?mergeFold⟩
  case loomAccept =>
    exact fun core s hp => ⟨fun p hh hc => next_getD (State.loomAccept_head hp hh hc), fun c hh hc => next_getD (State.loomAccept_segment hp hh hc)⟩
  case metadataGrant =>
    exact fun core s b o l hl hs ho hh hp => next_getD (State.metaGrant_granted hl hs ho hh hp)
  case loomComplete =>
    exact fun core s b o l hl => ⟨fun hn hc hd => next_getD (State.loomComplete_drains hl hn hc hd),
      fun b1 hn hc hd hr => next_getD (State.loomComplete_results hl hn hc hd hr), fun f hn hc hd hr => next_getD (State.loomComplete_faults hl hn hc hd hr),
      fun ho hv hm ha => next_getD (State.loomComplete_lopf hl ho (State.lopfStep_writes hv hm ha))⟩
  case drainStore =>
    intro core s b o hl hs hm
    have hstep := State.drainStep_turn hl hs hm
    refine ⟨fun ho s1 ps olds hp hr => ?_, fun ho h0 hr ha => ?_⟩
    · exact next_getD ((hstep.trans (if_pos ho)).trans (State.drainStore_stores hp hr))
    · exact next_getD ((hstep.trans (if_neg ho)).trans (State.drainAdds_ends h0 hr ha))
  case lineEntry =>
    exact fun core s b o q hl hq hw => next_getD (State.lineEntry_enters hl hq hw)
  case mxvSegment =>
    intro id core s c hc hl
    refine ⟨fun hs hm hr hw => exec_mxvSegmentComplete hc (State.mxvStep_ends hl hs hm hr hw), fun g s1 ps ys hs hg ho ht hk hp hr => ?_⟩
    exact exec_mxvSegmentComplete hc ((State.mxvStep_stores hl hs hg ho ht hk).trans (State.storeResults_stores hp hr))
  case millForward =>
    rintro id r k s s1 c g xs bs rest hc hs hm rfl hrow hlo hhi hnew hl ha hb hfirst hx hr
    exact next_getD (State.millForward_sends hc hs hm hrow hlo hhi hnew hl ha hb hfirst hx (State.millBlock_computes hr))
  case drayStart =>
    exact fun core s c hn hl => next_getD (State.drayStart_oldest hn hl)
  case drayChunk =>
    rintro core id s c l hc rfl hl hs hr hd ha turned
    have hturn := State.drayTurn_goes hs hr hd ha
    refine ⟨fun s2 ho hf hu hp hroom h0 h1 hm => ?_, fun hend => ?_⟩
    · have hneed : 4096 < drayRb c.desc + (if c.opc = 0x1C4 then 4096 else drayRb c.desc) := by
        rw [if_neg (by rw [ho]; decide)]
        omega
      exact next_getD (State.drayChunk_first hl (hturn.trans (State.unitLoop_full hc hf hu (State.unitPart_copies ho hp h0 h1 hm) hneed)))
    · exact next_getD (State.drayChunk_first hl (hturn.trans (State.unitLoop_ends hc hend rfl)))
  case commandComplete =>
    intro id s c hc hs
    have hstep := State.cmdAdvance_finished hc hs
    exact ⟨fun t hd => next_getD (hstep.trans (State.cmdComplete_arrives hc hs hd)),
      fun hd ha => next_getD (hstep.trans (State.cmdComplete_leaves hc hs hd ha))⟩
  case surveyorStart =>
    exact fun u s c hn hl => next_getD (State.surveyorStart_oldest hn hl)
  case surveyorBatch =>
    intro u s c hq hc ha he
    have hstep := State.surveyorBatch_goes hq ha he
    refine ⟨fun s1 hf hu _ hs => ?_, fun hf hu h0 hb ho => ?_, fun hf h0 ho => ?_, fun hf h0 ho => ?_⟩
    · exact next_getD (hstep.trans (State.unitLoop_cut hc hf hu hs))
    · have hu : c.units < c.svTotal := by rw [EngCmd.svTotal_unbegun h0, hu]; decide
      exact next_getD (hstep.trans (State.unitLoop_cut hc hf hu (State.svUnit_begins h0 hb ho)))
    · have hu : c.svTotal ≤ c.units := by rw [EngCmd.svTotal_unitless h0 (.inl ho)]; exact Nat.zero_le _
      exact next_getD (hstep.trans (State.unitLoop_ends hc (.inl hu) (State.svFin_frees hf ho)))
    · have hu : c.svTotal ≤ c.units := by rw [EngCmd.svTotal_unitless h0 (.inr ho)]; exact Nat.zero_le _
      exact next_getD (hstep.trans (State.unitLoop_ends hc (.inl hu) (State.svFin_answers hf ho)))
  case subscriptionAccept =>
    intro u n s y c t hy hc ha he hr hm hab hp hq hf ho hn ht hmade hring hpass s1 l hl pages k p hok hfree
    exact next_getD ((State.subAccept_first hy hc ha he hr hm hab hp hq hf ho hn).trans
      ((State.acceptFirst_checked ht hmade hring hl hok).trans (State.reserveSub_reserves hpass hfree)))
  case pageFetch =>
    exact fun u p s t ts l hn hr hd hm ha => next_getD (State.pageFetch_first hn hr hd hm ha)
  case pageDelivery =>
    exact fun u n p id slot s t data ids y c ht hf hi hy hs hl hh hc => next_getD (State.pageDeliver_delivers ht hf hi hy hs hl hh hc)
  case mergeFold =>
    exact fun u n s y p hy hp he hm => next_getD (State.foldNext_folds hy hp he hm)
end

section
/-! The engine commands: each is the shared issue with the checks of its own descriptor or operands (R67, R254). -/

open Sys2Proof Sys2Proof.Machine in
/-- Settles O16: the six commands of the Dray, the eight of the Surveyor and the seven of the Crier each make their checks, in every slice in effect of
the opened state, before their effect. -/
theorem engineCommandsComplete : Obligations.EngineCommandsComplete := by
  unfold Obligations.EngineCommandsComplete
  and_intros
  -- DCPY to DFIL (R260 to R262)
  iterate 6 exact .of_issueTry fun _ _ => rfl
  -- SVPT to SVCLR (R264 to R271)
  iterate 8 exact .of_issueTry fun _ _ => rfl
  -- ATSTRM to ATUNS (R273 to R280)
  iterate 7 exact .of_issueTry fun _ _ => rfl
end

section
/-! SUPPORT. Memory's canonical form as a property of states and of what the model's operations answer (R293, R395): its rules for the shapes that the
operations are made of. -/

namespace Sys2Proof.Machine

/-! ## The property -/

/-- Memory stands in canonical form. -/
def State.Formed (s : State) : Prop := Memory.wf s.mem = true

/-- The state answered, if any, has memory in canonical form. -/
def FormedOpt : Option State → Prop
  | none => True
  | some s => s.Formed

/-- The state that an effect gives, if it gives one, has memory in canonical form. -/
def FormedExcept {ε : Type} : Except ε State → Prop
  | .error _ => True
  | .ok s => s.Formed

/-- The next state, if there is one, has memory in canonical form. -/
def FormedOut : Host.Outcome State Fault Refusal → Prop
  | .next s => s.Formed
  | .fault _ => True
  | .refused _ => True

def Got.Formed : Got → Prop
  | .block => True
  | .more s => s.Formed
  | .value s _ => s.Formed
  | .fault s _ => s.Formed

def Did.Formed {α : Type} : Did α → Prop
  | .wait => True
  | .again s => s.Formed
  | .fail s _ => s.Formed
  | .ok s _ => s.Formed

def UnitEnd.Formed : UnitEnd → Prop
  | .done s _ _ => s.Formed
  | .cut s => s.Formed
  | .stop o => FormedOpt o

def CmdEnd.Formed : CmdEnd → Prop
  | .wait o => FormedOpt o
  | .done s => s.Formed
  | .refused s _ => s.Formed

def Turn.Formed : Turn → Prop
  | .over s => s.Formed
  | .issue s _ => s.Formed

/-! ## Rules for the shapes of operations -/

section
variable {s t : State} {α β : Type}

theorem State.Formed.ite {c : Prop} [Decidable c] (hs : s.Formed) (ht : t.Formed) : State.Formed (if c then s else t) := by
  split
  · exact hs
  · exact ht

theorem State.Formed.foldl {f : State → α → State} {l : List α} (h : s.Formed) (hf : ∀ s a, s.Formed → (f s a).Formed) : (l.foldl f s).Formed :=
  Laws.foldl_keeps State.Formed f l s h (fun s hs a _ => hf s a hs)

/-- A fold that carries a state and more. -/
theorem State.Formed.foldl_fst {f : State × β → α → State × β} {l : List α} {p : State × β} (h : p.1.Formed)
    (hf : ∀ p a, p.1.Formed → (f p a).1.Formed) : (l.foldl f p).1.Formed :=
  Laws.foldl_keeps (fun p : State × β => p.1.Formed) f l p h (fun p hp a _ => hf p a hp)

/-- The state of a pair that has been taken apart. -/
theorem State.Formed.of_pair {p : State × α} {a : α} (e : p = (s, a)) (h : p.1.Formed) : s.Formed := by
  rw [e] at h
  exact h

theorem State.Formed.of_some {o : Option State} (e : o = some s) (h : FormedOpt o) : s.Formed := by
  rw [e] at h
  exact h

theorem FormedOpt.ite {c : Prop} [Decidable c] {o p : Option State} (ho : FormedOpt o) (hp : FormedOpt p) : FormedOpt (if c then o else p) := by
  split
  · exact ho
  · exact hp

theorem FormedOpt.getD {o : Option State} (ho : FormedOpt o) (h : s.Formed) : (o.getD s).Formed := by
  cases o with
  | none => exact h
  | some t => exact ho

theorem FormedOpt.map {o : Option α} {f : α → State} (h : ∀ a, (f a).Formed) : FormedOpt (o.map f) := by
  cases o with
  | none => exact trivial
  | some a => exact h a

/-- A further change of the state answered. -/
theorem FormedOpt.next {o : Option State} {f : State → State} (ho : FormedOpt o) (h : ∀ t, t.Formed → (f t).Formed) : FormedOpt (o.map f) := by
  cases o with
  | none => exact trivial
  | some t => exact h t ho

/-- The first answer is the answer of one of the candidates. -/
theorem mem_of_firstSome {g : α → Option β} {l : List α} {b : β} (h : firstSome g l = some b) : ∃ a ∈ l, g a = some b := by
  induction l with
  | nil => cases h
  | cons a l ih =>
    unfold firstSome at h
    split at h
    next c hg => exact ⟨a, by simp, hg.trans h⟩
    · obtain ⟨c, hc, hb⟩ := ih h
      exact ⟨c, by simp [hc], hb⟩

theorem FormedOpt.firstSome {g : α → Option State} {l : List α} (h : ∀ a ∈ l, FormedOpt (g a)) : FormedOpt (firstSome g l) := by
  cases hf : Machine.firstSome g l with
  | none => exact trivial
  | some t =>
    obtain ⟨a, ha, hg⟩ := mem_of_firstSome hf
    exact .of_some hg (h a ha)

/-- An event that happens where it can. -/
theorem FormedOut.getD {o : Option State} (ho : FormedOpt o) (h : s.Formed) : FormedOut (.next (o.getD s)) := FormedOpt.getD ho h

theorem Did.Formed.of_again {d : Did α} (e : d = .again s) (h : d.Formed) : s.Formed := by
  rw [e] at h
  exact h

theorem Did.Formed.of_fail {d : Did α} {f} (e : d = .fail s f) (h : d.Formed) : s.Formed := by
  rw [e] at h
  exact h

theorem Did.Formed.of_ok {d : Did α} {v} (e : d = .ok s v) (h : d.Formed) : s.Formed := by
  rw [e] at h
  exact h

theorem Got.Formed.of_eq {g k : Got} (e : g = k) (h : g.Formed) : k.Formed := e ▸ h

end

/-! ## The barrel, the issue and traps (R20, R67, R188, R332) -/

section
variable {s : State}

namespace State.Formed

theorem modSl {bid i f} (h : s.Formed) : (s.modSl bid i f).Formed := h

theorem modBlk {bid f} (h : s.Formed) : (s.modBlk bid f).Formed := h

theorem modCore {c f} (h : s.Formed) : (s.modCore c f).Formed := h

theorem modGrid {gid f} (h : s.Formed) : (s.modGrid gid f).Formed := h

theorem modSec {c k f} (h : s.Formed) : (s.modSec c k f).Formed := h

theorem charge {c k n} (h : s.Formed) : (s.charge c k n).Formed := h

theorem forSlices {bid l f} (h : s.Formed) : (s.forSlices bid l f).Formed := .foldl h (fun _ _ h => h)

theorem lower {bid i f} (h : s.Formed) : (s.lower bid i f).Formed := .ite h h

theorem takeTrap {bid t} (h : s.Formed) : (s.takeTrap bid t).Formed := by
  simp only [State.takeTrap]
  split
  · exact h
  · exact .ite h h
  · exact h

theorem gather {bid l} (h : s.Formed) : (s.gather bid l).Formed := .ite h h

theorem close {bid i addr site pass bound any} (h : s.Formed) : (s.close bid i addr site pass bound any).Formed := .gather (.forSlices h)

theorem closeAll {bid n} (h : s.Formed) : (s.closeAll bid n).Formed := by
  induction n generalizing s with
  | zero => exact h
  | succ n ih =>
    unfold State.closeAll
    split
    · exact ih (.close h)
    · exact h

theorem regangCheck {bid} (h : s.Formed) : (s.regangCheck bid).Formed := .closeAll h

theorem consume {bid t} (h : s.Formed) : (s.consume bid t).Formed := .ite h h

theorem visitTrap {v t} (h : s.Formed) : (s.visitTrap v t).Formed := .charge (.takeTrap h)

theorem emptyTurn {v adv} (h : s.Formed) : (s.emptyTurn v adv).Formed := forSlices h

end State.Formed

theorem Ctx.begin_formed {x : Ctx} (h : s.Formed) : (x.begin s).Formed := .forSlices (.forSlices h)

theorem Ctx.finish_formed {x : Ctx} {cost} (h : s.Formed) : (x.finish cost s).Formed :=
  State.Formed.regangCheck (.modBlk (.modSec (.forSlices h)))

theorem Ctx.deferPoison_formed {x : Ctx} {s1 : State} (h : s.Formed) : (x.deferPoison s1 s).Formed :=
  .ite h (.foldl h (fun _ _ h => .foldl h (fun _ _ h => h)))

theorem Ctx.put_formed {x : Ctx} {val more} (h : s.Formed) : (x.put s val more).Formed := .forSlices h

theorem issue_formed {key f} {eff : Ctx → State → Except Trap State} (he : ∀ x s, s.Formed → FormedExcept (eff x s)) (h : s.Formed) :
    FormedOut (issue key f eff s) := by
  unfold issue
  split
  · exact trivial
  next v _ =>
    dsimp only
    split
    · exact State.Formed.visitTrap h
    · have hs := he (Ctx.make key f v s) _ (Ctx.begin_formed (x := Ctx.make key f v s) h)
      split
      · exact State.Formed.visitTrap h
      next heq =>
        rw [heq] at hs
        exact Ctx.finish_formed (Ctx.deferPoison_formed hs)

theorem issueTry_formed {key f bad} {eff : Ctx → State → State} (he : ∀ x s, s.Formed → (eff x s).Formed) (h : s.Formed) :
    FormedOut (issueTry key f bad eff s) := by
  refine issue_formed (fun x s hs => ?_) h
  split
  · exact trivial
  · exact he x s hs

theorem issueAll_formed {key f} {eff : Ctx → State → State} (he : ∀ x s, s.Formed → (eff x s).Formed) (h : s.Formed) :
    FormedOut (issueAll key f eff s) := issue_formed he h

/-- An instruction that writes registers alone. -/
theorem WritesOnly.formed {i : Instr} {key f} (hw : WritesOnly i key f) (h : s.Formed) : FormedOut (exec i s) := by
  obtain ⟨eff, he, hr⟩ := hw
  rw [he]
  refine issue_formed (fun x s hs => ?_) h
  cases hx : eff x s with
  | error t => exact trivial
  | ok s2 =>
    obtain rfl | ⟨val, more, rfl⟩ := hr x s s2 hx
    · exact hs
    · exact Ctx.put_formed hs

end

end Sys2Proof.Machine
end

section
/-! SUPPORT. Memory's canonical form under the caches, the pages, the directory, the reduction units and the memory operations (spec/10_memory_model.md,
spec/12_translation_and_traps.md, spec/14_dray_surveyor_crier.md). -/

namespace Sys2Proof.Machine

section
variable {s : State}

namespace State.Formed

/-! ## The caches and the home of a line -/

theorem setMemLine {line kid d p} (h : s.Formed) : (s.setMemLine line kid d p).Formed := Laws.setMemLine_wf line kid d p h

theorem garbleUnit {unit} (h : s.Formed) : (s.garbleUnit unit).Formed := by
  simp only [State.Formed, Memory.wf, State.garbleUnit] at h ⊢
  exact mputs_wf _ _ h

theorem forgetWo {line kid} (h : s.Formed) : (s.forgetWo line kid).Formed := .ite h h

theorem dropWo (h : s.Formed) : s.dropWo.Formed := .ite h h

theorem sweepWo {line kid} (h : s.Formed) : (s.sweepWo line kid).Formed := .ite h (.dropWo h)

theorem evictL3 {line kid} (h : s.Formed) : (s.evictL3 line kid).Formed := by
  unfold State.evictL3
  split
  · exact h
  next x _ =>
    have hw : State.Formed (if x.dirty then s.setMemLine line kid x.data x.poison else s) := .ite (.setMemLine h) h
    exact .forgetWo hw

theorem l3Room {line} (h : s.Formed) : (s.l3Room line).Formed := by
  unfold State.l3Room
  refine .ite h ?_
  dsimp only
  split
  · exact .ite h (.evictL3 h)
  · exact h

theorem setL3 {x} (h : s.Formed) : (s.setL3 x).Formed := .ite h (l3Room (s := { s with free := s.free + 1 }) h)

theorem modL2 {sl line kid f} (h : s.Formed) : (s.modL2 sl line kid f).Formed := h

theorem dropL2 {sl line kid} (h : s.Formed) : (s.dropL2 sl line kid).Formed := h

theorem writeBackL2 {x} (h : s.Formed) : (s.writeBackL2 x).Formed := .modL2 (.ite h (.setL3 h))

theorem collect {line kid} (h : s.Formed) : (s.collect line kid).Formed := .foldl h (fun _ _ h => .dropL2 (.writeBackL2 h))

theorem takePins {line kid} (h : s.Formed) : (s.takePins line kid).Formed := .foldl h (fun _ _ h => .foldl h (fun _ _ h => h))

theorem homeWriteLine {line kid mask d p} (h : s.Formed) : (s.homeWriteLine line kid mask d p).Formed :=
  .ite h (.sweepWo (.setL3 (.collect (.takePins h))))

theorem dropWalk {line} (h : s.Formed) : (s.dropWalk line).Formed := h

theorem homeWrite {kid pa l} (h : s.Formed) : (s.homeWrite kid pa l).Formed := .foldl h (fun _ _ h => .dropWalk (.homeWriteLine h))

theorem dirtyExtent {bid va} (h : s.Formed) : (s.dirtyExtent bid va).Formed := by
  unfold State.dirtyExtent
  split
  · exact h
  · exact h

theorem request {sl line kid write} (h : s.Formed) : (s.request sl line kid write).Formed := .ite h h

theorem send {w} (h : s.Formed) : (s.send w).Formed := h

theorem writeBackL1 {core x mask} (h : s.Formed) : (s.writeBackL1 core x mask).Formed :=
  .ite h (.modCore (.foldl h (fun _ _ h => .ite h h)))

theorem flushL1 {core line} (h : s.Formed) : (s.flushL1 core line).Formed := by
  unfold State.flushL1
  split
  · exact .modCore (.writeBackL1 h)
  · exact h

theorem putL1 {core x} (h : s.Formed) : (s.putL1 core x).Formed := .modCore (.ite (.flushL1 h) h)

theorem l1Release {core} (h : s.Formed) : (s.l1Release core).Formed := .foldl h (fun _ _ h => .ite h (.writeBackL1 h))

theorem l1FlushAll {core} (h : s.Formed) : (s.l1FlushAll core).Formed := .foldl h (fun _ _ h => .writeBackL1 h)

theorem l1OwnFlush {core bid i} (h : s.Formed) : (s.l1OwnFlush core bid i).Formed := .foldl h (fun _ _ h => .writeBackL1 h)

theorem l1Acquire {core} (h : s.Formed) : (s.l1Acquire core).Formed := h

/-! ## Slot lines -/

theorem deferAt {src cause thr ea info info2} (h : s.Formed) : (s.deferAt src cause thr ea info info2).Formed := h

theorem saturate {te src} (h : s.Formed) : (s.saturate te src).Formed := .ite h h

theorem foldEl {line kid e} (h : s.Formed) : (s.foldEl line kid e).Formed := by
  unfold State.foldEl
  split
  · exact h
  · exact .ite (.saturate (.homeWrite h)) (.homeWrite h)

theorem foldLine {p} (h : s.Formed) : (s.foldLine p).Formed :=
  have hf : (p.els.foldl (fun s e => s.foldEl p.line p.kid e) s).Formed := .foldl h (fun _ _ h => .foldEl h)
  .ite (.homeWriteLine hf) hf

theorem recallLine {line kid} (h : s.Formed) : (s.recallLine line kid).Formed := .ite h (.foldl h (fun _ _ h => .foldLine h))

theorem recallSpan {pa n} (h : s.Formed) : (s.recallSpan pa n).Formed := .foldl h (fun _ _ h => .recallLine h)

/-! ## Page tables and extents -/

theorem recallWalk {va level table} (h : s.Formed) : (s.recallWalk va level table).Formed := by
  induction level generalizing s table with
  | zero => exact .ite h (.ite (.recallSpan h) (.recallSpan (.recallSpan h)))
  | succ k ih => exact .ite h (.ite (ih (.recallSpan h)) (.recallSpan (.recallSpan h)))

theorem orEntry {addr bit} (h : s.Formed) : (s.orEntry addr bit).Formed := .ite (.recallSpan h) (.homeWrite (.recallSpan h))

theorem flushExtent {part e} (h : s.Formed) : (s.flushExtent part e).1.Formed := by
  unfold State.flushExtent
  split
  · exact h
  · refine .foldl_fst h (fun p k hp => ?_)
    dsimp only
    split
    · split
      · exact .orEntry (.recallWalk hp)
      · exact .recallWalk hp
    · exact .recallWalk hp

/-- Extents flushed one after the other, with the dirty states that they lose counted. -/
theorem flushAll {part} {l : List Extent} (h : s.Formed) :
    State.Formed (l.foldl (fun s x => let r := s.flushExtent part x
      { r.1 with dlost := r.1.dlost + r.2 }) s) :=
  .foldl h (fun _ _ h => flushExtent h)

theorem putExtent {bid e} (h : s.Formed) : (s.putExtent bid e).Formed := .modBlk (flushAll h)

theorem touchLeaf {l} (h : s.Formed) : (s.touchLeaf l).Formed := .ite h (.orEntry h)

theorem keepWalk {va level table} (h : s.Formed) : (s.keepWalk va level table).Formed := by
  induction level generalizing s table with
  | zero => exact h
  | succ k ih => exact .ite (ih (.ite h h)) h

theorem fill {b page rix r} (h : s.Formed) : (s.fill b page rix r).1.Formed := by
  have hw : (s.recallWalk (65536 * page) 3 (s.root b.part)).Formed := .recallWalk h
  unfold State.fill
  dsimp only
  split
  · split
    · exact hw
    · split
      · exact .ite hw (.putExtent hw)
      · exact hw
  · split
    · exact hw
    · exact .putExtent (.touchLeaf (.keepWalk hw))

theorem translate {bid page rix r} (h : s.Formed) : (s.translate bid page rix r).1.Formed := by
  unfold State.translate
  dsimp only
  split
  · split
    · exact h
    · split
      · exact .fill h
      · exact h
  · exact .fill h

theorem translateSegs {bid ranges needR needW skip segs} (h : s.Formed) : (s.translateSegs bid ranges needR needW skip segs).1.Formed := by
  induction segs generalizing s with
  | nil => exact h
  | cons g gs ih =>
    unfold State.translateSegs
    dsimp only
    split
    · exact h
    next r _ =>
      have ht : (s.translate bid (g.va / 65536) (g.rix.getD 0) r).1.Formed := .translate h
      split
      next s1 f heq =>
        have h1 : s1.Formed := by
          split at heq
          next hp =>
            cases heq
            exact .of_pair hp ht
          next hp =>
            split at heq
            · cases heq
              exact .of_pair hp ht
            · cases heq
        split
        · exact ih h1
        · split
          · exact h1
          · split
            next hp => exact .of_pair hp (ih h1)
            next hp => exact .of_pair hp (ih h1)
      next s1 e heq =>
        have h1 : s1.Formed := by
          split at heq
          · cases heq
          next hp =>
            split at heq
            · cases heq
            · cases heq
              exact .of_pair hp ht
        split
        next hp => exact .of_pair hp (ih h1)
        next hp => exact .of_pair hp (ih h1)

theorem checkSpan {bid ea n needR needW u det} (h : s.Formed) : (s.checkSpan bid ea n needR needW u det).1.Formed := by
  unfold State.checkSpan
  split
  · exact h
  · dsimp only
    split
    · exact h
    · split
      next heq => exact .of_pair heq (.translateSegs h)
      next heq =>
        have h1 := of_pair heq (.translateSegs h)
        split
        · exact h1
        · split
          · exact h1
          · split
            · exact h1
            · exact h1

theorem checkAccess {bid ea n align needR needW u det} (h : s.Formed) : (s.checkAccess bid ea n align needR needW u det).1.Formed := by
  unfold State.checkAccess
  split
  · exact h
  · split
    next heq => exact .of_pair heq (.checkSpan h)
    · exact .checkSpan h

theorem ownFrames {bid ps} (h : s.Formed) : (s.ownFrames bid ps).Formed := .foldl h (fun _ _ h => .ite h h)

theorem recallVirt {part ea n} (h : s.Formed) : (s.recallVirt part ea n).Formed := by
  have hw : ((segsOf [] ea n).foldl (fun s g => s.recallWalk g.va 3 (s.root part)) s).Formed := .foldl h (fun _ _ h => .recallWalk h)
  unfold State.recallVirt
  dsimp only
  split
  · exact hw
  · exact .foldl hw (fun _ _ h => .recallSpan h)

end State.Formed

theorem State.writeVirt_formed {part ea l} (h : s.Formed) : FormedExcept (s.writeVirt part ea l) := by
  unfold State.writeVirt
  split
  · exact trivial
  · split
    · exact trivial
    · exact State.Formed.foldl_fst h (fun _ _ h => .homeWrite (.recallSpan h))

/-- A virtual write that succeeds. -/
theorem State.Formed.writeVirt {part ea l} {t : State} (e : s.writeVirt part ea l = .ok t) (h : s.Formed) : t.Formed := by
  have hw := State.writeVirt_formed (part := part) (ea := ea) (l := l) h
  rw [e] at hw
  exact hw

end

end Sys2Proof.Machine
end

section
/-! SUPPORT. Memory's canonical form under the L2 units, the directory, the reduction units and the operations of the memory instructions
(spec/06_memory_instructions.md, spec/10_memory_model.md, spec/14_dray_surveyor_crier.md, spec/15_fabric_and_coherence.md). -/

namespace Sys2Proof.Machine

section
variable {s : State}

namespace State.Formed

/-! ## The L2 units and the directory -/

theorem performWrite {w} (h : s.Formed) : (s.performWrite w).Formed := by
  have hwo : ∀ (c : Prop) [Decidable c] l, State.Formed (if c then { s with wo := l } else s) := fun c _ l => .ite h h
  exact .ite (.dirtyExtent (.sweepWo (.modL2 (hwo ..)))) (.deferAt (.dirtyExtent (.sweepWo (.modL2 (hwo ..)))))

theorem applyL2 {sl line kid} (h : s.Formed) : (s.applyL2 sl line kid).Formed :=
  .foldl (l := (s.recallLine line kid).l2w.filter _) (State.Formed.recallLine h) (fun _ _ h => .performWrite h)

theorem acceptL2 {w} (h : s.Formed) : (s.acceptL2 w).Formed := by
  have hw : State.Formed { s with l2w := s.l2w ++ [w] } := h
  unfold State.acceptL2
  dsimp only
  split
  · exact .ite (.applyL2 hw) (.request hw)
  · exact .request hw

theorem l2Room {sl} (h : s.Formed) : (s.l2Room sl).Formed := by
  unfold State.l2Room
  refine .ite h ?_
  split
  · exact .forgetWo (.dropL2 (.writeBackL2 h))
  · exact h

theorem grant {r} (h : s.Formed) : (s.grant r).Formed := by
  unfold State.grant
  extract_lets s1 l s2 s3 s4
  have h1 : s1.Formed := h
  have h2 : s2.Formed := .ite h1 (.setL3 h1)
  have h3 : s3.Formed := .l2Room h2
  have h4 : s4.Formed := .ite h2 h3
  exact .ite (.applyL2 (.modL2 h4)) (.ite (.request h4) h4)

theorem modDir {rb sz kid f} (h : s.Formed) : (s.modDir rb sz kid f).Formed := h

theorem rebuild {l} (h : s.Formed) : (s.rebuild l).Formed := by
  have hl : State.Formed { s with lost := s.lost.filter (fun y => y.id != l.id) } := h
  exact State.Formed.ite hl hl

/-! ## The reduction units -/

theorem discardSlots {pa n kid} (h : s.Formed) : (s.discardSlots pa n kid).Formed :=
  State.Formed.foldl (s := { s with partQ := _, partials := _ }) h (fun _ _ h => .recallLine h)

theorem partRoom {sl} (h : s.Formed) : (s.partRoom sl).Formed := by
  unfold State.partRoom
  dsimp only
  refine .ite ?_ h
  split
  · exact h
  · exact h

theorem foldAddend {d r} (h : s.Formed) : (s.foldAddend d r).Formed := by
  unfold State.foldAddend
  extract_lets line n s1 s2
  have h1 : s1.Formed := .partRoom h
  have h2 : s2.Formed := .ite h h1
  split
  · exact h2
  · exact .ite h2 h2

theorem drainUnits {tsm} (h : s.Formed) : (s.drainUnits tsm).Formed :=
  State.Formed.foldl (s := { s with partQ := _, partials := _ }) h (fun _ _ h => .foldLine h)

/-! ## Stores, atomics and addends -/

theorem modMop {bid i id f} (h : s.Formed) : (s.modMop bid i id f).Formed := h

theorem badAccess {bid i m k a c} (h : s.Formed) : (s.badAccess bid i m k a c).Formed := h

theorem endOp {bid i m vals} (h : s.Formed) : (s.endOp bid i m vals).Formed := .lower h

theorem storeAccess {core bid i m a k} (h : s.Formed) : (s.storeAccess core bid i m a k).Formed := by
  unfold State.storeAccess
  extract_lets line s1 s2
  have h1 : s1.Formed := .dirtyExtent h
  have h2 : s2.Formed := .recallLine h1
  refine .ite h (.ite h1 (.ite (.homeWriteLine (.flushL1 h2)) ?_))
  split
  · exact .putL1 h2
  · exact .putL1 h2
  · split
    · exact .modCore (.writeBackL1 h2)
    · exact h2
  · exact .flushL1 h2

theorem sendStores {core bid i m} (h : s.Formed) : (s.sendStores core bid i m).Formed := .foldl h (fun _ _ h => .send h)

theorem performStores {core bid i m} (h : s.Formed) : (s.performStores core bid i m).Formed := .sendStores (.foldl h (fun _ _ h => .storeAccess h))

theorem doAtomic {r m a d} {write : State → LineMask → LineData → State} (h : s.Formed) (hw : ∀ s k d, s.Formed → (write s k d).Formed) :
    (s.doAtomic r m a d write).Formed :=
  .ite h (.modMop (.dirtyExtent (hw _ _ _ h)))

theorem sendAddend {core pa kid val src} (h : s.Formed) : (s.sendAddend core pa kid val src).Formed := h

theorem redAdd {core bid i m k a} (h : s.Formed) : (s.redAdd core bid i m k a).Formed :=
  have hd : (s.dirtyExtent bid a.ea).Formed := .dirtyExtent h
  .ite h (.ite hd (.sendAddend (.flushL1 hd)))

theorem rangeLine {core kind lo n x} (h : s.Formed) : (s.rangeLine core kind lo n x).Formed :=
  .ite (.writeBackL1 h) (.ite (.flushL1 (.modCore h)) (.flushL1 h))

theorem rangeL1 {core kind a} (h : s.Formed) : (s.rangeL1 core kind a).Formed := .foldl h (fun _ _ h => .rangeLine h)

theorem rangeL2 {die a} (h : s.Formed) : (s.rangeL2 die a).Formed := .foldl h (fun _ _ h => .writeBackL2 h)

theorem rangeSlots {a} (h : s.Formed) : (s.rangeSlots a).Formed := .foldl h (fun _ _ h => .recallLine h)

theorem flushBlock {b} (h : s.Formed) : (s.flushBlock b).Formed :=
  have hr : (b.extents.foldl (fun (r : State × Nat) e => let q := r.1.flushExtent b.part e; (q.1, r.2 + q.2)) (s, 0)).1.Formed :=
    .foldl_fst h (fun _ _ h => .flushExtent h)
  hr

theorem harvest {parts} (h : s.Formed) : (s.harvest parts).Formed := .foldl h (fun _ _ h => .flushBlock h)

theorem benchAccess {bid i m k a} (h : s.Formed) : (s.benchAccess bid i m k a).Formed := .ite h (.ite h (.ite h h))

theorem promote (h : s.Formed) : s.promote.Formed := .foldl h (fun _ _ h => .foldl h (fun _ _ h => .ite h (.writeBackL1 h)))

theorem finishOp {core bid i m} (h : s.Formed) : (s.finishOp core bid i m).Formed := by
  unfold State.finishOp
  extract_lets s1 s2 s3
  have h1 : s1.Formed := .ite h h
  have h2 : s2.Formed := .ite h1 h1
  have h3 : s3.Formed := .ite h2 h2
  exact .endOp h3

end State.Formed

namespace State

/-! ## Steps of the memory system -/

theorem l2Receive_formed {n} (h : s.Formed) : FormedOpt (s.l2Receive n) := by
  unfold State.l2Receive
  split
  · exact trivial
  next w _ =>
    have hq : State.Formed { s with netw := s.netw.eraseIdx n } := h
    exact .ite trivial (.ite (.ite trivial (Formed.dirtyExtent (.homeWriteLine hq))) (Formed.acceptL2 hq))

theorem evictWay_formed {r rb sz keep} (h : s.Formed) : FormedOpt (s.evictWay r rb sz keep) := by
  unfold State.evictWay
  dsimp only
  split
  · exact trivial
  · exact .ite h h

theorem dirRequest_formed {n} (h : s.Formed) : FormedOpt (s.dirRequest n) := by
  unfold State.dirRequest
  split
  · exact trivial
  · refine .ite trivial ?_
    split
    · exact .ite (evictWay_formed h) (Formed.grant h)
    · exact .ite (Formed.grant h) (.ite h (.ite (.next (evictWay_formed h) (fun _ h => h)) h))

theorem dirRecall_formed {n} (h : s.Formed) : FormedOpt (s.dirRecall n) := by
  unfold State.dirRecall
  split
  · exact trivial
  next m _ =>
    refine .ite trivial ?_
    exact Formed.foldl h (fun _ _ h => .ite (.forgetWo (.dropL2 (.writeBackL2 h))) (.modL2 (.writeBackL2 h)))

theorem dirAck_formed {n} (h : s.Formed) : FormedOpt (s.dirAck n) := by
  unfold State.dirAck
  split
  · exact trivial
  next m _ =>
    extract_lets s1 y s2
    have h1 : s1.Formed := h
    have h2 : s2.Formed := .modDir h1
    split
    next l _ =>
      extract_lets l1 s3
      have h3 : s3.Formed := h1
      exact Formed.ite (.rebuild h3) h3
    · split
      · exact h2
      · exact .ite h2 (.ite h2 (.ite h2 (Formed.grant h2)))

theorem foldNth_formed {n} (h : s.Formed) : FormedOpt (s.foldNth n) := by
  unfold State.foldNth
  split
  · exact trivial
  next d _ =>
    have hq : State.Formed { s with addQ := s.addQ.eraseIdx n } := h
    refine .ite (Formed.flushL1 h) (.ite trivial (.ite (Formed.deferAt hq) ?_))
    split
    · exact Formed.deferAt hq
    · exact Formed.foldAddend hq

theorem idlePartials_formed {n} (h : s.Formed) : FormedOpt (s.idlePartials n) := .map (fun _ => h)

theorem foldPart_formed {n} (h : s.Formed) : FormedOpt (s.foldPart n) := by
  unfold State.foldPart
  split
  · exact trivial
  · exact Formed.foldLine (s := { s with partQ := _ }) h

theorem remoteRead_formed {kid pa n} (h : s.Formed) : (s.remoteRead kid pa n).Formed := by
  unfold State.remoteRead
  split
  · exact h
  · exact h

theorem storeFirst_formed {core m} (h : s.Formed) : FormedOpt (s.storeFirst core m) := .map (fun _ => .flushL1 h)

theorem sendAtomic_formed {core bid i m k a} (h : s.Formed) : FormedOpt (s.sendAtomic core bid i m k a) := by
  unfold State.sendAtomic
  dsimp only
  refine .ite ?_ (.ite trivial (.ite trivial (.ite (Formed.flushL1 h) (.ite trivial (Formed.recallLine h)))))
  split
  next heq => exact Formed.dirtyExtent (Got.Formed.of_eq heq (remoteRead_formed h))
  next heq => exact Formed.badAccess (Got.Formed.of_eq heq (remoteRead_formed h))
  · exact trivial

theorem atomNth_formed {n} (h : s.Formed) : FormedOpt (s.atomNth n) := by
  unfold State.atomNth
  split
  · exact trivial
  next r _ =>
    split
    · exact h
    · split
      · exact h
      next a _ =>
        extract_lets s1 core
        have h1 : s1.Formed := .recallLine h
        refine .ite trivial (.ite (Formed.flushL1 h1) (.ite trivial (.ite trivial (.ite ?_ ?_))))
        · exact Formed.doAtomic h1 (fun _ _ _ h => .homeWriteLine h)
        · split
          · exact .ite (Formed.doAtomic h1 (fun _ _ _ h => .modL2 h)) (.ite trivial (Formed.request h1))
          · exact .ite trivial (Formed.request h1)

/-! ## The accesses of an operation -/

/-- What a use of a home read must keep for the read to keep memory's form. -/
def KeepsForm (use : State → LineData × Pois → Got) : Prop := ∀ s d, s.Formed → (use s d).Formed

theorem respond_formed {d use} (hu : KeepsForm use) (h : s.Formed) : (s.respond d use).Formed := by
  unfold State.respond
  split
  · exact hu _ _ h
  · exact hu _ _ h

theorem homeLine_formed {core line kid use} (hu : KeepsForm use) (h : s.Formed) : (s.homeLine core line kid use).Formed := by
  unfold State.homeLine
  extract_lets s1 sl
  have h1 : s1.Formed := .recallLine h
  split
  · exact trivial
  · split
    · exact respond_formed hu h1
    · split
      · exact trivial
      · exact Formed.request h1

theorem l1Load_formed {core a acqHome} (h : s.Formed) : (s.l1Load core a acqHome).Formed := by
  unfold State.l1Load
  dsimp only
  split
  · exact Formed.writeBackL1 h
  · split
    · split
      · exact h
      · exact Formed.putL1 h
    · refine homeLine_formed (fun s d h => ?_) h
      split
      · exact h
      · exact Formed.putL1 h

/-- The use that a load makes of its line. -/
theorem load_keepsForm {o n : Nat} : KeepsForm (fun s d => if runPoisoned d.2 o n then .fault s .eccUncorrectable else .value s (lineNat d.1 o n)) := by
  intro s d h
  dsimp only
  split
  · exact h
  · exact h

theorem ncLoad_formed {core a} (h : s.Formed) : (s.ncLoad core a).Formed := by
  unfold State.ncLoad
  dsimp only
  split
  · exact Formed.flushL1 h
  · exact homeLine_formed load_keepsForm h

theorem scLoad_formed {core a} (h : s.Formed) : (s.scLoad core a).Formed := by
  unfold State.scLoad
  dsimp only
  split
  · exact Formed.flushL1 h
  · split
    · exact trivial
    · exact respond_formed load_keepsForm (Formed.recallLine h)

theorem loadAccess_formed {core m a} (h : s.Formed) : (s.loadAccess core m a).Formed := by
  unfold State.loadAccess
  split
  · exact remoteRead_formed h
  · split
    · exact scLoad_formed h
    · split
      · exact ncLoad_formed h
      · exact l1Load_formed h

theorem atSlots_formed {core bid i pa n write} {go : State → Got} (hg : (go s).Formed) (h : s.Formed) :
    (s.atSlots core bid i pa n write go).Formed := by
  unfold State.atSlots
  split
  · exact Formed.ite (.flushL1 h) (.writeBackL1 h)
  · split
    · exact trivial
    · exact hg

theorem redRead_formed {core bid i m a} (h : s.Formed) : (s.redRead core bid i m a).Formed := by
  unfold State.redRead
  split
  · exact remoteRead_formed h
  · refine atSlots_formed ?_ h
    extract_lets s1
    have h1 : s1.Formed := .recallLine h
    split
    · exact h1
    · split
      · exact h1
      · exact Formed.ite (.dirtyExtent (.homeWrite h1)) h1

theorem declare_formed {core bid i a} (h : s.Formed) : (s.declare core bid i a).Formed := by
  unfold State.declare
  split
  · split
    · exact h
    · exact Formed.dirtyExtent h
  · refine atSlots_formed ?_ h
    exact Formed.dirtyExtent (.homeWrite (.discardSlots h))

theorem prefetch_formed {core m a} (h : s.Formed) : (s.prefetch core m a).Formed := by
  unfold State.prefetch
  dsimp only
  split
  · exact h
  · split
    · exact Formed.ite h (.setL3 h)
    · refine homeLine_formed (fun s d h => ?_) h
      split
      · exact h
      · exact Formed.putL1 h

/-! ## The steps of an operation -/

theorem benchStep_formed {bid i m} (h : s.Formed) : FormedOpt (s.benchStep bid i m) :=
  .ite trivial (Formed.endOp (.foldl h (fun _ _ h => .benchAccess h)))

theorem nextAccess_formed {bid i m} {go : State → Access → Got} (hg : ∀ a, (go s a).Formed) : FormedOpt (s.nextAccess bid i m go) := by
  unfold State.nextAccess
  split
  · exact trivial
  · split
    · exact trivial
    next a _ =>
      have ha := hg a
      generalize go s a = r at ha ⊢
      cases r with
      | block => exact trivial
      | more s => exact ha
      | value s v => exact Formed.modMop ha
      | fault s c => exact Formed.badAccess ha

theorem performOp_formed {core bid i m} (h : s.Formed) : FormedOpt (s.performOp core bid i m) := by
  have hf : ∀ {t : State}, t.Formed → FormedOpt (some (t.finishOp core bid i m)) := fun h => Formed.finishOp h
  unfold State.performOp
  extract_lets done set5
  have h5 : ∀ {t : State}, t.Formed → FormedOpt (some (set5 t)) := fun h => Formed.modMop h
  split
  · exact .ite (hf h) (nextAccess_formed (fun _ => loadAccess_formed h))
  · exact .ite (hf h) (nextAccess_formed (fun _ => redRead_formed h))
  · exact .ite (hf h) (nextAccess_formed (fun _ => declare_formed h))
  · exact .ite (hf h) (nextAccess_formed (fun _ => prefetch_formed h))
  iterate 3
    refine .ite (hf h) ?_
    split
    · exact trivial
    · split
      · exact trivial
      · exact sendAtomic_formed h
  · refine .ite (.ite trivial (hf h)) (.ite trivial ?_)
    split
    next heq => exact Formed.of_some heq (storeFirst_formed h)
    · exact .ite trivial (h5 (.performStores h))
  · exact .ite (.ite trivial (hf h)) (h5 (.foldl h (fun _ _ h => .redAdd h)))
  iterate 3
    exact .ite (.ite trivial (hf (.ite (.foldl h (fun _ _ h => .rangeL2 h)) h)))
      (.ite trivial (h5 (.foldl h (fun _ _ h => .rangeL1 (.rangeSlots h)))))
  · exact hf (.harvest h)
  iterate 4 exact hf h
  iterate 4 exact trivial

theorem mopStep_formed {bid i m} (h : s.Formed) : FormedOpt (s.mopStep bid i m) := by
  unfold State.mopStep
  dsimp only
  refine .ite trivial (.ite (benchStep_formed h) (.ite (Formed.modMop (.promote h)) (.ite (.ite trivial h) (.ite ?_ (.ite ?_ ?_)))))
  · have hr : State.Formed (if 2 ≤ m.oc then s.l1Release (s.blk bid).core else s.l1Mark (s.blk bid).core) := .ite (.l1Release h) h
    exact Formed.modMop (.ite (.l1OwnFlush hr) hr)
  · refine .ite ?_ trivial
    have hd : State.Formed (if 3 ≤ m.oc then s.drainUnits (s.sl bid i).tsm else s) := .ite (.drainUnits h) h
    have h3 := Formed.modMop (bid := bid) (i := i) (id := m.id) (f := fun y => { y with stage := 4 })
      (Formed.ite (c := 2 ≤ m.oc) (Formed.modSl (bid := bid) (i := i) (f := fun sl => { sl with tsm := 0 }) hd) hd)
    split
    · exact Formed.takeTrap h3
    · exact h3
  · exact .ite trivial (performOp_formed h)

theorem opStep_formed {bid i op} (h : s.Formed) : FormedOpt (s.opStep bid i op) := by
  unfold State.opStep
  split
  · exact mopStep_formed h
  · exact trivial

end State

end

end Sys2Proof.Machine
end

section
/-! SUPPORT. Memory's canonical form under the issue of every instruction, its checks that walk page tables among them (R67;
spec/05_lane_instructions.md to spec/09_engine_instructions.md). -/

namespace Sys2Proof.Machine

section
variable {s : State} {x : Ctx}

/-! ## Accesses that are checked at the issue -/

theorem Ctx.probe_formed {p ws} (h : s.Formed) : (x.probe p s ws).1.Formed := by
  induction ws generalizing s with
  | nil => exact h
  | cons w ws ih =>
    unfold Ctx.probe
    split
    next heq => exact .of_pair heq (.checkAccess h)
    next heq =>
      have h1 := State.Formed.of_pair heq (.checkAccess h)
      split
      next hp => exact .of_pair hp (ih h1)
      next hp => exact .of_pair hp (ih h1)

theorem Ctx.probeDecl_formed {s1 us} (h : s.Formed) : (x.probeDecl s1 s us).1.Formed := by
  induction us generalizing s with
  | nil => exact h
  | cons u us ih =>
    unfold Ctx.probeDecl
    split
    · exact h
    · dsimp only
      split
      next heq => exact .of_pair heq (Ctx.probe_formed h)
      next heq =>
        have h2 := State.Formed.of_pair heq (Ctx.probe_formed h)
        split
        next hp => exact .of_pair hp (ih h2)
        next hp => exact .of_pair hp (ih h2)

theorem Ctx.prefetches_formed {ws} (h : s.Formed) : (x.prefetches s ws).1.Formed := by
  induction ws generalizing s with
  | nil => exact h
  | cons w ws ih =>
    unfold Ctx.prefetches
    split
    next heq => exact ih (.of_pair heq (.checkAccess h))
    next heq => exact ih (.of_pair heq (.checkAccess h))

theorem issueVia_formed {α key f} {chk : Ctx → State → State → State × Except (Option Trap) α} {eff : Ctx → State → α → State}
    (hc : ∀ x s1 s, s.Formed → (chk x s1 s).1.Formed) (he : ∀ x s a, s.Formed → (eff x s a).Formed) (h : s.Formed) :
    FormedOut (issueVia key f chk eff s) := by
  unfold issueVia
  split
  · exact trivial
  next v _ =>
    dsimp only
    split
    · exact State.Formed.visitTrap h
    · split
      next heq =>
        exact Ctx.finish_formed (Ctx.deferPoison_formed (he _ _ _ (.of_pair heq (hc _ _ _ (Ctx.begin_formed h)))))
      · exact State.Formed.visitTrap (hc _ _ _ h)
      · exact State.Formed.emptyTurn h

/-! ## Operations that begin -/

theorem Ctx.startOp_formed {i m ws} (h : s.Formed) : (x.startOp s i m ws).Formed := h

theorem Ctx.startOps_formed {accs n mk} (h : s.Formed) : (x.startOps s accs n mk).Formed := .foldl h (fun _ _ h => Ctx.startOp_formed h)

theorem Ctx.own_formed {l} (h : s.Formed) : (x.own s l).Formed := .foldl h (fun _ _ h => .ownFrames h)

theorem Ctx.plainBegin_formed {on m} (h : s.Formed) : (x.plainBegin s on m).Formed := .foldl h (fun _ _ h => Ctx.startOp_formed h)

theorem Ctx.divide_formed {val} (h : s.Formed) : (x.divide s val).Formed := .foldl h (fun _ _ h => Ctx.startOp_formed h)

theorem Ctx.tlaunch_formed {l} (h : s.Formed) : (x.tlaunch s l).Formed := State.Formed.foldl (Ctx.own_formed h) (fun _ _ h => h)

theorem Ctx.startCmds_formed {eng spans desc arg} (h : s.Formed) : (x.startCmds s eng spans desc arg).Formed := .foldl h (fun _ _ h => h)

theorem Ctx.askCmd_formed {s0 i eng d n arg} (h : s.Formed) : (x.askCmd s0 s i eng d n arg).Formed := h

theorem Ctx.subscribe_formed {s0 i} (h : s.Formed) : (x.subscribe s0 s i).Formed := h

theorem Ctx.post_formed {s0 i} (h : s.Formed) : (x.post s0 s i).Formed := h

theorem Ctx.mxvCall_formed {i d} (h : s.Formed) : (x.mxvCall s i d).Formed := h

/-! ## Quorums and the Loom's queue -/

namespace State.Formed

theorem settleTokens {bid l} (h : s.Formed) : (s.settleTokens bid l).Formed := .foldl h (fun _ _ h => .ite h (.lower h))

theorem deferLoom {bid o cause ea unit info info2} (h : s.Formed) : (s.deferLoom bid o cause ea unit info info2).Formed := h

theorem form {bid q} (h : s.Formed) : (s.form bid q).Formed := by
  unfold State.form
  dsimp only
  split
  · exact h
  · exact .ite h (.settleTokens h)

theorem complete {bid q} (h : s.Formed) : (s.complete bid q).Formed := form (.modBlk h)

theorem signOnce {bid q} (h : s.Formed) : (s.signOnce bid q).Formed := .ite (.complete h) h

theorem signs {bid q n} (h : s.Formed) : (s.signs bid q n).Formed := by
  induction n generalizing s with
  | zero => exact h
  | succ n ih => exact ih (.signOnce h)

theorem declareLoop {bid q n} (h : s.Formed) : (s.declareLoop bid q n).Formed := by
  induction n generalizing s with
  | zero => exact h
  | succ n ih => exact .ite h (ih (.complete h))

theorem declareQ {bid q n} (h : s.Formed) : (s.declareQ bid q n).Formed := declareLoop (.modBlk h)

theorem recount {bid} (h : s.Formed) : (s.recount bid).Formed := .ite (.complete h) h

theorem jointSigns {bid q t g n} (h : s.Formed) : (s.jointSigns bid q t g n).Formed := by
  induction n generalizing s with
  | zero => exact h
  | succ n ih => exact ih (.signOnce h)

/-! ## Subscriptions, and slices that end -/

theorem modSub {id f} (h : s.Formed) : (s.modSub id f).Formed := h

theorem modCrier {u f} (h : s.Formed) : (s.modCrier u f).Formed := h

theorem endSub {id} (h : s.Formed) : (s.endSub id).Formed := by
  unfold State.endSub
  split
  · exact h
  · exact .ite h h

theorem freeSub {id} (h : s.Formed) : (s.freeSub id).Formed := h

theorem reapSub {id merging} (h : s.Formed) : (s.reapSub id merging).Formed := .ite h h

theorem endSubs {bid} (h : s.Formed) : (s.endSubs bid).Formed := .foldl h (fun _ _ h => .endSub h)

theorem freeSubs {bid} (h : s.Formed) : (s.freeSubs bid).Formed := .foldl h (fun _ _ h => .freeSub (.endSub h))

theorem saveSubs {bid} (h : s.Formed) : (s.saveSubs bid).Formed := .foldl h (fun _ _ h => .ite h h)

theorem endSlice {bid i} (h : s.Formed) : (s.endSlice bid i).Formed := .ite (.endSubs h) h

theorem unwind {bid i} (h : s.Formed) : (s.unwind bid i).Formed := by
  unfold State.unwind
  dsimp only
  split
  · exact h
  · exact .endSlice h

/-! ## Work queues and special registers -/

theorem take {bid q k} (h : s.Formed) : (s.take bid q k).2.Formed := by
  unfold State.take
  dsimp only
  split
  · exact h
  · split
    · exact h
    · exact h

theorem pushItems {bid q l} (h : s.Formed) : (s.pushItems bid q l).2.Formed := by
  induction l generalizing s with
  | nil => exact h
  | cons a l ih =>
    unfold State.pushItems
    split
    · exact ih (.modCore h)
    · exact h

theorem writeSreg {core n w} (h : s.Formed) : (s.writeSreg core n w).Formed := .ite h (.ite h (.ite h (.ite h (.ite h h))))

/-- A change of the block, the barrel and the trap records alone. -/
theorem of_outside {bid : Nat} {t : State} (h : s.Formed) (hs : State.SameOutside bid s t) : t.Formed := by
  have he : t.outside bid = s.outside bid := hs
  have hm : (t.outside bid).mem = (s.outside bid).mem := congrArg State.mem he
  have ht : (t.outside bid).Formed := by
    unfold State.Formed
    rw [hm]
    exact h
  exact ht

end State.Formed

/-! ## The effects -/

theorem Ctx.signOp_formed {i} (h : s.Formed) : (x.signOp s i).Formed := h

theorem Ctx.sign_formed {q} (h : s.Formed) : (x.sign s q).Formed := .foldl h (fun _ _ h => Ctx.signOp_formed (.signs (.modSl h)))

theorem Ctx.bar_formed (h : s.Formed) : (x.bar s).Formed := .foldl (Ctx.sign_formed h) (fun s i h => h.of_outside (x.awaitQuorum_outside s 15 i))

theorem Ctx.exit_formed (h : s.Formed) : (x.exit s).Formed := .foldl h (fun _ _ h => .recount (.ite (.unwind (.modSl h)) (.modSl h)))

theorem Ctx.refillOne_formed {i} (h : s.Formed) : (x.refillOne s i).Formed := .modSl (.take h)

theorem Ctx.pushOne_formed {s0 i} (h : s.Formed) : (x.pushOne s0 s i).Formed := .modSl (.pushItems h)

theorem Ctx.joint_formed {q i d} (h : s.Formed) : (x.joint s q i d).Formed := Ctx.signOp_formed (State.Formed.jointSigns h)

theorem Ctx.loomEnter_formed {desc vals} (h : s.Formed) : (x.loomEnter s desc vals).Formed := by
  refine .foldl h (fun s i h => ?_)
  split
  · exact h
  · exact Ctx.joint_formed h

theorem Ctx.unsubscribe_formed {s0 i} (h : s.Formed) : (x.unsubscribe s0 s i).Formed := .reapSub (.endSub h)

/-! ## The instructions -/

/-- An instruction that changes nothing outside its block but the barrel and the trap records. -/
theorem StaysInItsBlock.formed {i : Instr} {key f} (hs : StaysInItsBlock (exec i)) (hi : i.fields = some (key, f)) (h : s.Formed) :
    FormedOut (exec i s) := by
  cases hv : s.visit with
  | none =>
    obtain ⟨eff, he⟩ | ⟨α, chk, eff, he⟩ := exec_issues hi
    · rw [he, issue_noVisit hv]
      exact trivial
    · rw [he, issueVia, hv]
      exact trivial
  | some v =>
    cases ht : exec i s with
    | next t => exact h.of_outside (hs s t v hv ht)
    | fault _ => exact trivial
    | refused _ => exact trivial

theorem loomIssue_formed {key f chk desc vals} (h : s.Formed) : FormedOut (loomIssue key f chk desc vals s) :=
  issueTry_formed (fun _ _ h => Ctx.loomEnter_formed h) h

theorem engIssue_formed {key f chk eng spans desc arg} (h : s.Formed) : FormedOut (engIssue key f chk eng spans desc arg s) :=
  issueTry_formed (fun _ _ h => Ctx.startCmds_formed h) h

theorem benchOp_formed {key f kind n det wants} (h : s.Formed) : FormedOut (benchOp key f kind n det wants s) :=
  issueTry_formed (fun _ _ h => Ctx.startOps_formed h) h

/-- Every instruction of the opcode map keeps memory's canonical form. -/
theorem exec_instr_formed {i : Instr} {key f} (hi : i.fields = some (key, f)) (h : s.Formed) : FormedOut (exec i s) := by
  by_cases hk : key ∈ registerKeys
  · exact (exec_writesOnly hi hk).formed h
  cases i
  case bra g | call g | pushj g | regang g => exact (formL_staysInItsBlock g _ (by simp)).formed hi h
  case brx g | callx g | ret g | part g | yield g | qwait g | waitf g | waitt g | waitta g | tagclr g | cbexp g | cbwait g | claim g | give g =>
    exact (formR_staysInItsBlock g _ (by simp)).formed hi h
  case exit g => exact (issueAll_formed (fun _ _ h => Ctx.exit_formed h) h : FormedOut (execExit g s))
  case join g => exact (issueTry_formed (fun _ _ h => .foldl h (fun _ _ h => .recount (.unwind h))) h : FormedOut (execJoin g s))
  case refill g => exact (issueTry_formed (fun _ _ h => .foldl h (fun _ _ h => Ctx.refillOne_formed h)) h : FormedOut (execRefill g s))
  case refillPush g => exact (issueAll_formed (fun _ _ h => .foldl h (fun _ _ h => Ctx.pushOne_formed h)) h : FormedOut (execRefillPush g s))
  case trap | brk =>
    simp only [exec, execTrap, execBrk]
    exact issueTry_formed (fun _ _ h => h) h
  case wrsr g =>
    exact (issueAll_formed (fun _ _ h => .foldl h (fun _ _ h => .foldl h (fun _ _ h => .writeSreg h))) h : FormedOut (execWrsr g s))
  case ifence | fence | tfence =>
    simp only [exec, execIfence, execFence, execTfence]
    exact issueAll_formed (fun _ _ h => Ctx.plainBegin_formed h) h
  case idiv | irem =>
    simp only [exec, execIdiv, execIrem]
    exact issueAll_formed (fun _ _ h => Ctx.divide_formed h) h
  case tlaunch g => exact (issueVia_formed (fun _ _ _ h => Ctx.probe_formed h) (fun _ _ _ h => Ctx.tlaunch_formed h) h : FormedOut (execTlaunch g s))
  case ld | st | ldv | stv | atom | acas | red | rwb | rinv | rwbi =>
    simp only [exec, execLd, execSt, execLdv, execStv, execAtom, execAcas, execRed, execRwb, execRinv, execRwbi]
    exact issueVia_formed (fun _ _ _ h => Ctx.probe_formed h) (fun _ _ _ h => Ctx.startOps_formed (Ctx.own_formed h)) h
  case redf | redrd =>
    simp only [exec, execRedf, execRedrd]
    exact issueVia_formed (fun _ _ _ h => Ctx.probe_formed h) (fun _ _ _ h => Ctx.startOps_formed h) h
  case reddcl g =>
    exact (issueVia_formed (fun _ _ _ h => Ctx.probeDecl_formed h) (fun _ _ _ h => Ctx.startOps_formed (Ctx.own_formed h)) h :
      FormedOut (execReddcl g s))
  case pref g =>
    exact (issueVia_formed (fun _ _ _ h => Ctx.prefetches_formed h) (fun _ _ _ h => Ctx.startOps_formed h) h : FormedOut (execPref g s))
  case ldb | stb | ldbv | stbv | atomb =>
    simp only [exec, execLdb, execStb, execLdbv, execStbv, execAtomb]
    exact benchOp_formed h
  case harvest g => exact (issueTry_formed (fun _ _ h => .foldl h (fun _ _ h => Ctx.startOp_formed h)) h : FormedOut (execHarvest g s))
  case qdecl g => exact (issueTry_formed (fun _ _ h => .foldl h (fun _ _ h => .declareQ h)) h : FormedOut (execQdecl g s))
  case qsign g => exact (issueTry_formed (fun _ _ h => Ctx.sign_formed h) h : FormedOut (execQsign g s))
  case bar g => exact (issueAll_formed (fun _ _ h => Ctx.bar_formed h) h : FormedOut (execBar g s))
  case lalloc | lfree | lzero | lldc | lopf | lmma | lmms | lmmg | ldrn | ldrx =>
    simp only [exec, execLalloc, execLfree, execLzero, execLldc, execLopf, execLmma, execLmms, execLmmg, execLdrn, execLdrx, tileIssue]
    exact loomIssue_formed h
  case mxv g => exact (issueTry_formed (fun _ _ h => .foldl h (fun _ _ h => Ctx.mxvCall_formed h)) h : FormedOut (execMxv g s))
  case dcpy | dgth | dsct | dsca | dcsr | dfil | svpt | svvox | svqry | svnbr | svdwn | svfree | svclr | atstrm | atdone | atmrg =>
    simp only [exec, execDcpy, execDgth, execDsct, execDsca, execDcsr, execDfil, drayIssue, execSvpt, execSvvox, execSvqry, execSvnbr, execSvdwn,
      execSvfree, execSvclr, surveyorIssue, execAtstrm, execAtdone, execAtmrg]
    exact engIssue_formed h
  case svmap g => exact (issueTry_formed (fun _ _ h => .foldl h (fun _ _ h => Ctx.askCmd_formed h)) h : FormedOut (execSvmap g s))
  case atsub g => exact (issueTry_formed (fun _ _ h => .foldl h (fun _ _ h => Ctx.subscribe_formed h)) h : FormedOut (execAtsub g s))
  case atnext g => exact (issueTry_formed (fun _ _ h => .foldl h (fun _ _ h => Ctx.askCmd_formed h)) h : FormedOut (execAtnext g s))
  case atpost g => exact (issueTry_formed (fun _ _ h => .foldl h (fun _ _ h => Ctx.post_formed h)) h : FormedOut (execAtpost g s))
  case atuns g => exact (issueTry_formed (fun _ _ h => .foldl h (fun _ _ h => Ctx.unsubscribe_formed h)) h : FormedOut (execAtuns g s))
  all_goals cases hi
  all_goals exact absurd (by decide) hk

end

end Sys2Proof.Machine
end

section
/-! SUPPORT. Memory's canonical form under the barrel's visits and the fetch, and under the shared steps of the engines and the Dray (R20 to R23;
spec/07_control_instructions.md, spec/14_dray_surveyor_crier.md). -/

namespace Sys2Proof.Machine

section
variable {s : State}

/-! ## The fetch and the turn -/

namespace State.Formed

theorem fetchPage {core part page} (h : s.Formed) : (s.fetchPage core part page).1.Formed := by
  unfold State.fetchPage
  split
  · exact h
  · split
    · exact h
    · extract_lets s1
      have h1 : s1.Formed := .recallWalk h
      split
      · exact h1
      · split
        · exact h1
        · exact .modCore (.touchLeaf (.keepWalk h1))

theorem fetchLine {core line kid} (h : s.Formed) : (s.fetchLine core line kid).1.Formed := by
  unfold State.fetchLine
  split
  · exact h
  · extract_lets s1 d
    have h1 : s1.Formed := .recallLine h
    split
    · exact h1
    · split
      · exact h1
      · exact h1

theorem fetchDword {core part pc} (h : s.Formed) : (s.fetchDword core part pc).1.Formed := by
  unfold State.fetchDword
  split
  next heq => exact .of_pair heq (.fetchPage h)
  next heq =>
    have h1 := of_pair heq (.fetchPage h)
    dsimp only
    split
    next hl => exact .of_pair hl (.fetchLine h1)
    next hl =>
      have h2 := of_pair hl (.fetchLine h1)
      split
      · exact h2
      · exact h2

theorem fetch {core part pc} (h : s.Formed) : (s.fetch core part pc).1.Formed := by
  unfold State.fetch
  split
  next heq => exact .of_pair heq (.fetchDword h)
  next heq =>
    have h1 := of_pair heq (.fetchDword h)
    split
    next hd => exact .of_pair hd (.fetchDword h1)
    next hd =>
      have h2 := of_pair hd (.fetchDword h1)
      split
      next hw => exact .of_pair hw (.fetchDword h2)
      next hw => exact .of_pair hw (.fetchDword h2)

theorem wordTrap {v cause pc word ea info} (h : s.Formed) : (s.wordTrap v cause pc word ea info).Formed := .visitTrap h

theorem packAny {core sec} (h : s.Formed) : (s.packAny core sec).Formed :=
  .foldl h (fun _ _ h => .forSlices (.foldl h (fun _ _ h => .gather h)))

end State.Formed

namespace State

theorem tryIssue_formed {v held} (h : s.Formed) : (s.tryIssue v held).Formed := by
  unfold State.tryIssue
  extract_lets pc
  split
  next heq =>
    have h1 := Formed.of_pair heq (.fetch h)
    split
    · exact Formed.emptyTurn h1
    · exact Formed.wordTrap h1
  next heq =>
    have h1 := Formed.of_pair heq (.fetch h)
    extract_lets hints x waits advances
    split
    · exact Formed.emptyTurn h1
    · split
      · exact h1
      · exact Formed.wordTrap h1

theorem turn_formed {v} (h : s.Formed) : (s.turn v).Formed := by
  unfold State.turn
  dsimp only
  split
  · exact Formed.emptyTurn h
  · split
    · exact Formed.forSlices h
    · split
      · exact Formed.visitTrap h
      · split
        · exact Formed.emptyTurn (.forSlices h)
        · exact tryIssue_formed (.forSlices h)

theorem visitSlot_formed {core sec} (h : s.Formed) : FormedOpt (s.visitSlot core sec) := by
  unfold State.visitSlot
  split
  · refine .ite trivial ?_
    split
    · exact trivial
    · split
      · exact trivial
      · split
        · exact trivial
        · exact h
  · exact trivial

theorem endRotation_formed {core sec} (h : s.Formed) : FormedOpt (s.endRotation core sec) := by
  unfold State.endRotation
  split
  · refine .ite trivial ?_
    have hp : ((s.packAny core sec).modSec core sec Section.heddle).Formed := Formed.packAny h
    exact Formed.modSec (.ite (.charge hp) hp)
  · exact trivial

theorem barrelStep_formed (h : s.Formed) : FormedOpt s.barrelStep := by
  unfold State.barrelStep
  split
  · split
    next heq => exact Formed.of_some heq (visitSlot_formed h)
    · exact endRotation_formed h
  · exact trivial

end State

/-! ## Runs of bytes and slots of the engines -/

namespace State.Formed

theorem reach {bid rs} (h : s.Formed) : (s.reach bid rs).1.Formed := by
  induction rs generalizing s with
  | nil => exact h
  | cons r rs ih =>
    unfold State.reach
    dsimp only
    have hr : (if r.mem then s.checkSpan bid r.ea r.n (!r.writes) r.writes r.use (fun _ => false)
        else if 0 < r.n ∧ (s.blk bid).bsize < r.ea + r.n then (s, .error { cause := .indexBounds, ea := r.ea, info := r.ea, info2 := (s.blk bid).bsize })
        else (s, .ok [])).1.Formed := by
      split
      · exact .checkSpan h
      · split
        · exact h
        · exact h
    split
    next heq => exact .of_pair heq hr
    next heq =>
      have h1 := of_pair heq hr
      split
      next hp => exact .of_pair hp (ih h1)
      next hp => exact .of_pair hp (ih h1)

theorem reachFor {bid iss rs} (h : s.Formed) : (s.reachFor bid iss rs).1.Formed := by
  unfold State.reachFor
  split
  · exact reach (s := { s with shooting := none, retiring := none }) h
  · exact .reach h

theorem storeHome {line kid wo mask d} (h : s.Formed) : (s.storeHome line kid wo mask d).1.Formed :=
  .dropWalk (.homeWriteLine (.ite h h))

theorem engineLine {src unit p l} (h : s.Formed) : (s.engineLine src unit p l).Formed := by
  unfold State.engineLine
  dsimp only
  split
  · exact .ite (.storeHome (.modSl h)) (.deferAt (.storeHome (.modSl h)))
  · exact .dropWalk (State.Formed.acceptL2 (s := { s.modSl _ _ _ with nextId := _ }) h)

theorem writePiece {src unit p l} (h : s.Formed) : (s.writePiece src unit p l).Formed :=
  have hd : (s.dirtyExtent src.bid p.va).Formed := .dirtyExtent h
  .ite h (.ite hd (.foldl hd (fun _ _ h => .engineLine h)))

theorem writeRun {src r ps l unit} (h : s.Formed) : (s.writeRun src r ps l unit).Formed :=
  .ite (.foldl_fst h (fun _ _ h => .writePiece h)) h

theorem addRun {src ps vals} (h : s.Formed) : (s.addRun src ps vals).Formed :=
  .foldl_fst h (fun _ _ h => .foldl h (fun s _ h =>
    have hd : ∀ {ea}, (s.dirtyExtent src.bid ea).Formed := .dirtyExtent h
    .ite (.deferAt h) (.ite hd (.sendAddend hd))))

theorem suspend {bid slice unit pc word f} (h : s.Formed) : (s.suspend bid slice unit pc word f).Formed := .takeTrap h

end State.Formed

namespace State

/-- What an access of a line needs first keeps memory's form. -/
theorem lineFirst_formed {core use wo l o} (h : s.Formed) (e : s.lineFirst core use wo l = some o) : FormedOpt o := by
  unfold State.lineFirst at e
  split at e
  · cases e
    exact Formed.ite (.flushL1 h) (.writeBackL1 h)
  · split_ifs at e
    · cases e
      exact trivial
    · cases e
      exact Formed.recallLine h
    · cases e
      exact trivial

theorem prepare_formed {core bid iss rs} (h : s.Formed) : (s.prepare core bid iss rs).Formed := by
  unfold State.prepare
  split
  · exact trivial
  · split
    next heq =>
      split
      · exact trivial
      · exact Formed.of_pair heq (.reachFor h)
    next s0 ps heq =>
      have h0 := Formed.of_pair heq (.reachFor h)
      extract_lets s1
      have h1 : s1.Formed := h0
      split
      · exact trivial
      next hf =>
        obtain ⟨p, -, hp⟩ := mem_of_firstSome hf
        obtain ⟨q, -, hq⟩ := mem_of_firstSome hp
        obtain ⟨l, -, hl⟩ := mem_of_firstSome hq
        exact lineFirst_formed h1 hl
      · split
        · exact h1
        · exact h1

/-! ## The steps of commands -/

namespace Formed

theorem modCmd {id f} (h : s.Formed) : (s.modCmd id f).Formed := h

theorem finishCmd {c} (h : s.Formed) : (s.finishCmd c).Formed := h

theorem deferCmd {c t} (h : s.Formed) : (s.deferCmd c t).Formed := h

theorem arrive {c n} (h : s.Formed) : (s.arrive c n).Formed := by
  unfold State.arrive
  split
  · exact h
  · extract_lets old new s1 s2
    have h1 : s1.Formed := .ite (.deferCmd h) h
    have h2 : s2.Formed := h1
    exact .ite h2 h2

theorem suspendCmd {c f unit} (h : s.Formed) : (s.suspendCmd c f unit).Formed := suspend (.modCmd h)

theorem cmdFail {c f unit} (h : s.Formed) : (s.cmdFail c f unit).Formed := .ite (.suspendCmd h) h

theorem arriveId {id counts} (h : s.Formed) : (s.arriveId id counts).Formed := by
  unfold State.arriveId
  split
  · exact .ite h (.ite h (.arrive h))
  · exact h

end Formed

theorem arriveHeld_formed {c} (h : s.Formed) : FormedOpt (s.arriveHeld c) := by
  unfold State.arriveHeld
  split
  · exact trivial
  · exact .ite trivial (Formed.arrive (.modCmd h))

theorem unitLoop_formed {total need id first room counts fuel} {step : State → EngCmd → UnitEnd} {fin : State → EngCmd → Option State}
    (hs : ∀ s c, s.Formed → (step s c).Formed) (hf : ∀ s c, s.Formed → FormedOpt (fin s c)) (h : s.Formed) :
    FormedOpt (State.unitLoop total step need fin s id first room counts fuel) := by
  induction fuel generalizing s first room counts with
  | zero => exact .ite trivial (Formed.arriveId h)
  | succ fuel ih =>
    unfold State.unitLoop
    split
    · exact trivial
    next c _ =>
      refine .ite ?_ ?_
      · split
        next heq => exact Formed.of_some heq (hf _ _ (.arriveId h))
        · exact .ite trivial (Formed.arriveId h)
      · have hu := hs s c h
        generalize step s c = u at hu ⊢
        match u with
        | .stop none => exact .ite trivial (Formed.arriveId h)
        | .stop (some s1) => exact Formed.arriveId hu
        | .cut s1 => exact Formed.arriveId hu
        | .done s1 n k => exact .ite (Formed.arriveId (.modCmd hu)) (ih (.modCmd hu))

theorem engRead_formed {c die runs} (h : s.Formed) : (s.engRead c die runs).Formed := by
  unfold State.engRead
  split
  · exact trivial
  next heq => exact Did.Formed.of_again heq (prepare_formed h)
  next heq => exact Did.Formed.of_fail heq (prepare_formed h)
  next heq =>
    have h1 := Did.Formed.of_ok heq (prepare_formed h)
    split
    · exact h1
    · exact Formed.ownFrames h1

theorem engWrite_formed {c unit runs} (h : s.Formed) : (s.engWrite c unit runs).Formed := by
  unfold State.engWrite
  dsimp only
  split
  · exact trivial
  next heq => exact Did.Formed.of_again heq (prepare_formed h)
  next heq => exact Did.Formed.of_fail heq (prepare_formed h)
  next heq =>
    have h1 := Did.Formed.of_ok heq (prepare_formed h)
    split
    · exact h1
    · exact Formed.foldl (.ownFrames h1) (fun _ _ h => .writeRun h)

/-- The order of a command behind its slice's earlier accesses. -/
theorem engFence_formed {c o} (h : s.Formed) (e : s.engFence c = some o) : FormedOpt o := by
  unfold State.engFence at e
  dsimp only at e
  split_ifs at e
  · cases e
    exact trivial
  · cases e
    exact Formed.modCmd (.l1Release h)
  · cases e
    exact trivial
  · cases e
    exact Formed.drainUnits h

theorem cmdComplete_formed {id} (h : s.Formed) : FormedOpt (s.cmdComplete id) := by
  unfold State.cmdComplete
  split
  · exact trivial
  next c _ =>
    refine .ite trivial ?_
    split
    next heq => exact Formed.of_some heq (arriveHeld_formed h)
    · refine .ite trivial ?_
      extract_lets s1 s2 s3
      have h1 : s1.Formed := h
      have h2 : s2.Formed := by
        unfold s2
        split
        · exact h1
        · exact h1
      have h3 : s3.Formed := by
        unfold s3
        split
        · exact h2
        · exact h2
      exact Formed.lower h3

/-! ## The Dray -/

theorem indexWords_formed {c l} (h : s.Formed) : (s.indexWords c l).Formed := by
  unfold State.indexWords
  dsimp only
  split
  · exact trivial
  next heq => exact Did.Formed.of_again heq (prepare_formed h)
  next heq => exact Did.Formed.of_fail heq (prepare_formed h)
  next heq =>
    have h1 := Did.Formed.of_ok heq (prepare_formed h)
    split
    · exact h1
    · exact Formed.ownFrames h1

theorem entriesFrom_formed {c off n} (h : s.Formed) : (s.entriesFrom c off n).Formed := by
  induction n generalizing s off with
  | zero => exact h
  | succ n ih =>
    unfold State.entriesFrom
    split
    · exact trivial
    next heq => exact Did.Formed.of_again heq (indexWords_formed h)
    next heq => exact Did.Formed.of_fail heq (indexWords_formed h)
    next heq =>
      have h1 := Did.Formed.of_ok heq (indexWords_formed h)
      split
      · exact trivial
      next hr => exact Did.Formed.of_again hr (ih h1)
      next hr => exact Did.Formed.of_fail hr (ih h1)
      next hr => exact Did.Formed.of_ok hr (ih h1)

theorem unitWords_formed {c k} (h : s.Formed) : (s.unitWords c k).Formed := by
  unfold State.unitWords
  split
  · exact h
  · split
    · split
      · exact trivial
      next heq => exact Did.Formed.of_again heq (indexWords_formed h)
      next heq => exact Did.Formed.of_fail heq (indexWords_formed h)
      next heq =>
        have h1 := Did.Formed.of_ok heq (indexWords_formed h)
        dsimp only
        split
        · exact trivial
        next hi => exact Did.Formed.of_again hi (indexWords_formed h1)
        · split
          · exact trivial
          next he => exact Did.Formed.of_again he (entriesFrom_formed h1)
          next he => exact Did.Formed.of_fail he (entriesFrom_formed h1)
          next he => exact Did.Formed.of_ok he (entriesFrom_formed h1)
        next hi => exact Did.Formed.of_ok hi (indexWords_formed h1)
    · split
      · exact trivial
      next heq => exact Did.Formed.of_again heq (indexWords_formed h)
      next heq => exact Did.Formed.of_fail heq (indexWords_formed h)
      next heq => exact Did.Formed.of_ok heq (indexWords_formed h)

theorem doMove_formed {c m o n} (h : s.Formed) : (s.doMove c m o n).Formed := by
  unfold State.doMove
  dsimp only
  split
  · exact trivial
  next heq => exact Did.Formed.of_again heq (prepare_formed h)
  next heq => exact Did.Formed.of_fail heq (prepare_formed h)
  next heq =>
    have h1 := Did.Formed.of_ok heq (prepare_formed h)
    split
    · exact h1
    · split
      · exact h1
      · split
        · exact Formed.addRun (.ownFrames h1)
        · exact Formed.writeRun (.ownFrames h1)

theorem unitReady_formed {c ms} (h : s.Formed) : (s.unitReady c ms).Formed := by
  unfold State.unitReady
  dsimp only
  split
  · exact trivial
  next heq => exact Did.Formed.of_again heq (prepare_formed h)
  next heq => exact Did.Formed.of_fail heq (prepare_formed h)
  next heq =>
    have h1 := Did.Formed.of_ok heq (prepare_formed h)
    split
    · exact h1
    · split
      · exact h1
      · split
        · exact h1
        · exact h1

theorem moveOn_formed {c ms ws from_ part room fuel} (h : s.Formed) : (s.moveOn c ms ws from_ part room fuel).Formed := by
  induction fuel generalizing s part room with
  | zero => exact trivial
  | succ fuel ih =>
    unfold State.moveOn
    dsimp only
    split
    · exact h
    · split
      · exact h
      · split
        · split
          · exact trivial
          · exact h
        next heq => exact Formed.modCmd (Did.Formed.of_again heq (doMove_formed h))
        next heq => exact Formed.cmdFail (Did.Formed.of_fail heq (doMove_formed h))
        next heq => exact ih (Did.Formed.of_ok heq (doMove_formed h))

theorem unitPart_formed {c} (h : s.Formed) : (s.unitPart c).Formed := by
  have hw : Did.Formed (if c.part = 0 then s.unitWords c c.units else .ok s (c.memo, none)) := by
    split
    · exact unitWords_formed h
    · exact h
  unfold State.unitPart
  split
  · exact trivial
  next heq => exact Did.Formed.of_again heq hw
  next heq => exact Formed.cmdFail (Did.Formed.of_fail heq hw)
  next s1 ws late heq =>
    have h1 := Did.Formed.of_ok heq hw
    extract_lets m0 ms short
    have hr : Did.Formed (if c.part = 0 && !short then s1.unitReady c ms else .ok s1 ()) := by
      split
      · exact unitReady_formed h1
      · exact h1
    split
    · exact trivial
    next hm => exact Did.Formed.of_again hm hr
    next hm => exact Formed.cmdFail (Did.Formed.of_fail hm hr)
    next hm => exact moveOn_formed (Did.Formed.of_ok hm hr)

theorem drayStart_formed {core} (h : s.Formed) : FormedOpt (s.drayStart core) := by
  unfold State.drayStart
  dsimp only
  refine .ite trivial ?_
  split
  · exact h
  · exact trivial

theorem drayTurn_formed {c} (h : s.Formed) : FormedOpt (s.drayTurn c) := by
  unfold State.drayTurn
  refine .ite trivial ?_
  split
  next heq => exact Formed.of_some heq (arriveHeld_formed h)
  · exact .ite trivial (unitLoop_formed (fun _ _ h => unitPart_formed h) (fun _ _ h => Formed.finishCmd h) h)

theorem drayServe_formed {core n} {t : State} (h : s.Formed) (e : s.drayServe core = some (n, t)) : t.Formed := by
  obtain ⟨c, -, hc⟩ := mem_of_firstSome e
  obtain ⟨u, hu, hp⟩ := Option.map_eq_some_iff.1 hc
  have h1 := Formed.of_some hu (drayTurn_formed h)
  dsimp only at hp
  cases hp
  exact .ite h1 h1

theorem drayChunk_formed {core id} (h : s.Formed) : FormedOpt (s.drayChunk core id) := by
  unfold State.drayChunk
  split
  next heq => exact .ite (drayServe_formed h heq) trivial
  · exact trivial

theorem drayStep_formed {core} (h : s.Formed) : FormedOpt (s.drayStep core) := by
  unfold State.drayStep
  split
  next heq => exact Formed.of_some heq (drayStart_formed h)
  · cases hd : s.drayServe core with
    | none => exact trivial
    | some p => exact drayServe_formed (n := p.1) h hd

end State

end

end Sys2Proof.Machine
end

section
/-! SUPPORT. Memory's canonical form under the Crier's commands, passes, deliveries and merges (spec/14_dray_surveyor_crier.md). -/

namespace Sys2Proof.Machine

section
variable {s : State}

namespace State.Formed

theorem modStream {part sid f} (h : s.Formed) : (s.modStream part sid f).Formed := h

theorem openStream {c} (h : s.Formed) : (s.openStream c).Formed := by
  unfold State.openStream
  exact .ite h h

theorem refuseSub {c y f} (h : s.Formed) : (s.refuseSub c y f).Formed := .endSub h

theorem missPage {t p f l} (h : s.Formed) : (s.missPage t p f l).Formed := by
  refine .foldl h (fun s y h => .ite (.takeTrap h) ?_)
  split
  · exact .endSub h
  · exact .endSub h

theorem reachPv {t p ps l} (h : s.Formed) : (s.reachPv t p ps l).1.Formed := by
  induction l generalizing s with
  | nil => exact h
  | cons y l ih =>
    unfold State.reachPv
    split
    · exact ih (.missPage h)
    · exact ih (.ownFrames h)

theorem fetchPool {u t p l} (h : s.Formed) : (s.fetchPool u t p l).Formed := by
  unfold State.fetchPool
  extract_lets s1 s2 s3
  have h3 : s3.Formed := .modCrier (.modStream (.recallVirt h))
  split
  · exact .missPage h3
  next ps data _ =>
    extract_lets s4 r s5
    have h4 : s4.Formed := .foldl (s := { s3 with free := s3.free + 1 }) h3 (fun _ _ h => .touchLeaf h)
    have h5 : s5.Formed := .foldl (reachPv h4) (fun _ _ h => .ite h (.modCrier (.modSub h)))
    exact .ite h5 (.modStream h5)

theorem endPass {u t} (h : s.Formed) : (s.endPass u t).Formed := .foldl h (fun _ _ h => h)

theorem beginPass {u t} (h : s.Formed) : (s.beginPass u t).Formed := .ite h (.foldl h (fun _ _ h => h))

end State.Formed

namespace State

/-! ## The Crier's commands -/

theorem nextStep_formed {c} (h : s.Formed) : FormedOpt (s.nextStep c) := by
  unfold State.nextStep
  refine .ite trivial ?_
  split
  · exact h
  next y _ =>
    refine .ite h ?_
    split
    · exact h
    · exact .ite h trivial

theorem postStep_formed {c} (h : s.Formed) : FormedOpt (s.postStep c) := by
  unfold State.postStep
  split
  · exact h
  next y _ =>
    have hr := engRead_formed (c := c) (die := 0) (runs := [postRun y c.desc]) h
    split
    · exact trivial
    next heq => exact Did.Formed.of_again heq hr
    next heq => exact Formed.cmdFail (Did.Formed.of_fail heq hr)
    next heq =>
      have hs := Did.Formed.of_ok heq hr
      exact Formed.finishCmd (.ite hs (.modSub hs))

theorem doneStep_formed {c} (h : s.Formed) : FormedOpt (s.doneStep c) := by
  unfold State.doneStep
  split
  · exact h
  next y _ => exact .ite h (.ite trivial h)

theorem mergeStep_formed {c} (h : s.Formed) : FormedOpt (s.mergeStep c) := by
  unfold State.mergeStep
  extract_lets lost
  split
  · exact h
  next y _ =>
    split
    · refine .ite trivial ?_
      split
      next o heq =>
        obtain ⟨-, hf⟩ := Option.ite_none_right_eq_some.1 heq
        exact engFence_formed h hf
      · have hw := engWrite_formed (c := c) (unit := 0) (runs := (mergeRuns c.word y c.desc y.dim).zip (mergeBytes (wordMod c.word 0 0 == 1) y)) h
        split
        · exact trivial
        next heq => exact Did.Formed.of_again heq hw
        next heq => exact Formed.cmdFail (Did.Formed.of_fail heq hw)
        next heq => exact Formed.finishCmd (Did.Formed.of_ok heq hw)
    · exact .ite h trivial

theorem mergeTurn_formed {c} (h : s.Formed) : FormedOpt (s.mergeTurn c) := by
  refine .next (mergeStep_formed h) (fun t h => ?_)
  split
  · exact .ite (.freeSub h) h
  · exact h

theorem crierCmd_formed {c} (h : s.Formed) : FormedOpt (s.crierCmd c) := by
  unfold State.crierCmd
  refine .ite trivial (.ite (.ite trivial ?_) (.ite (.ite (nextStep_formed h) trivial)
    (.ite (postStep_formed h) (.ite (doneStep_formed h) (.ite (mergeTurn_formed h) trivial)))))
  split
  next heq => exact engFence_formed h heq
  · exact Formed.openStream h

theorem cmdAdvance_formed {id} (h : s.Formed) : FormedOpt (s.cmdAdvance id) := by
  unfold State.cmdAdvance
  split
  next c _ =>
    split
    · split
      next heq => exact Formed.of_some heq (crierCmd_formed h)
      · exact cmdComplete_formed h
    · exact cmdComplete_formed h
  · exact trivial

/-! ## Subscriptions, passes and merges -/

theorem reserveSub_formed {c y t need f first} (h : s.Formed) : FormedOpt (s.reserveSub c y t need f first) := by
  unfold State.reserveSub
  extract_lets within n s1 s2
  have h2 : s2.Formed := h
  exact .ite (.ite h trivial) (Formed.ite (.modCmd (.modStream h2)) h2)

theorem acceptFirst_formed {c y} (h : s.Formed) : FormedOpt (s.acceptFirst c y) := by
  unfold State.acceptFirst
  extract_lets merge
  split
  · exact Formed.refuseSub h
  next t _ =>
    extract_lets share ringEnd
    refine .ite (Formed.refuseSub h) (.ite (Formed.refuseSub h) ?_)
    have hr := engRead_formed (c := c) (die := 0) (runs := [Run.read true y.lb.toNat (4 * y.nl)]) h
    split
    · exact trivial
    next heq => exact Did.Formed.of_again heq hr
    next heq =>
      have hs := Did.Formed.of_fail heq hr
      exact .ite (Formed.suspendCmd hs) (Formed.refuseSub hs)
    next heq =>
      have hs := Did.Formed.of_ok heq hr
      exact .ite (Formed.refuseSub hs) (reserveSub_formed hs)

theorem subAccept_formed {u n} (h : s.Formed) : FormedOpt (s.subAccept u n) := by
  unfold State.subAccept
  extract_lets k
  split
  · exact trivial
  next y _ =>
    split
    · exact trivial
    next c _ =>
      extract_lets
      refine .ite trivial (.ite ?_ (.ite trivial ?_))
      · split
        · exact reserveSub_formed h
        · exact trivial
      · split
        next heq => exact engFence_formed h heq
        · exact acceptFirst_formed h

theorem streamTurn_formed {u t} (h : s.Formed) : FormedOpt (s.streamTurn u t) := by
  unfold State.streamTurn
  split
  · exact .ite (Formed.endPass h) trivial
  · exact .ite trivial (.ite (Formed.fetchPool (.beginPass h)) trivial)

theorem pageFetch_formed {u} (h : s.Formed) : FormedOpt (s.pageFetch u) := by
  unfold State.pageFetch
  extract_lets k
  generalize k.rotation = l
  exact .ite trivial (.firstSome (fun _ _ => streamTurn_formed h))

theorem pageDeliver_formed {u n} (h : s.Formed) : FormedOpt (s.pageDeliver u n) := by
  unfold State.pageDeliver
  split
  · exact trivial
  · split
    · exact trivial
    · split
      · exact trivial
      next id _ =>
        split
        · exact trivial
        next y _ =>
          split
          · exact trivial
          next slot _ =>
            extract_lets a pos s1 s2 s3
            refine .ite trivial ?_
            have h3 : s3.Formed := h
            split
            · exact h3
            next c _ =>
              extract_lets s4
              have h4 : s4.Formed := .arrive h3
              exact Formed.ite (.finishCmd h4) h4

theorem foldNext_formed {u n} (h : s.Formed) : FormedOpt (s.foldNext u n) := by
  unfold State.foldNext
  split
  · exact trivial
  · split
    · exact trivial
    · exact .ite trivial h

theorem crierStep_formed {u} (h : s.Formed) : FormedOpt (s.crierStep u) :=
  .firstSome (by
    simp only [List.forall_mem_cons, List.not_mem_nil, false_implies, implies_true, and_true]
    exact ⟨.firstSome (fun _ _ => foldNext_formed h), .firstSome (fun _ _ => pageDeliver_formed h), .firstSome (fun _ _ => subAccept_formed h),
      pageFetch_formed h⟩)

end State

end

end Sys2Proof.Machine
end

section
/-! SUPPORT. Memory's canonical form under the Loom and the matrix-vector unit (spec/13_loom_and_mill.md). -/

namespace Sys2Proof.Machine

section
variable {s : State}

/-! ## The Loom -/

namespace State.Formed

theorem modLoom {bid id f} (h : s.Formed) : (s.modLoom bid id f).Formed := h

theorem unpin {core id} (h : s.Formed) : (s.unpin core id).Formed := h

theorem loomDone {core b o} (h : s.Formed) : (s.loomDone core b o).Formed := .settleTokens (.modBlk (.unpin h))

theorem loomFault {core b o f unit} (h : s.Formed) : (s.loomFault core b o f unit).Formed := .loomDone (.deferLoom h)

theorem loomSuspend {core b o f unit} (h : s.Formed) : (s.loomSuspend core b o f unit).Formed := .suspend (.modLoom (.unpin h))

theorem loomFail {core b o f unit} (h : s.Formed) : (s.loomFail core b o f unit).Formed := .ite (.loomSuspend h) (.loomFault h)

theorem acceptOp {core b o} (h : s.Formed) : (s.acceptOp core b o).Formed := by
  unfold State.acceptOp
  extract_lets vals o1 s1
  have h1 : s1.Formed := h
  refine .ite ?_ h1
  split
  · exact .loomFault h1
  · exact h1

theorem modMxv {id f} (h : s.Formed) : (s.modMxv id f).Formed := h

theorem acceptSeg {c} (h : s.Formed) : (s.acceptSeg c).Formed := h

theorem takePin {core q} (h : s.Formed) : (s.takePin core q).Formed := h

theorem enterLine {core b o q} (h : s.Formed) : (s.enterLine core b o q).Formed := .ite (.loomFault h) (.takePin h)

theorem drainCopy {b o} (h : s.Formed) : (s.drainCopy b o).Formed := .ite (.modBlk (.modLoom h)) (.modLoom h)

end State.Formed

namespace State

theorem loomAccept_formed {core} (h : s.Formed) : FormedOpt (s.loomAccept core) := by
  unfold State.loomAccept
  refine .ite trivial ?_
  extract_lets ops calls
  split
  · exact trivial
  · exact Formed.acceptOp h
  · exact Formed.acceptSeg h
  · exact .ite (Formed.acceptOp h) (Formed.acceptSeg h)

theorem pinLines_formed {core b o} (h : s.Formed) : FormedOpt (s.pinLines core b o) := by
  unfold State.pinLines
  extract_lets room runs
  refine .ite trivial ?_
  have hp := prepare_formed (core := core) (bid := b.bid) (iss := o.iss) (rs := runs) h
  split
  · exact trivial
  next heq => exact Did.Formed.of_again heq hp
  next heq => exact Formed.loomFail (Did.Formed.of_fail heq hp)
  next heq => exact Formed.modCore (.modLoom (.ownFrames (Did.Formed.of_ok heq hp)))

theorem lineEntry_formed {core} (h : s.Formed) : FormedOpt (s.lineEntry core) := by
  unfold State.lineEntry
  split
  · exact trivial
  · split
    · exact Formed.enterLine h
    · exact pinLines_formed h

theorem metaGrant_formed {core} (h : s.Formed) : FormedOpt (s.metaGrant core) := by
  unfold State.metaGrant
  refine .firstSome (fun p _ => ?_)
  extract_lets b o n rows
  refine .ite trivial (.ite trivial ?_)
  split
  · exact Formed.loomFault h
  · exact Formed.modLoom h

theorem lopfStep_formed {core b o} (h : s.Formed) : FormedOpt (s.lopfStep core b o) := by
  unfold State.lopfStep
  extract_lets ahead ka n bench vals
  exact .ite trivial (.ite (Formed.loomFault h) (Formed.loomDone (.modBlk h)))

theorem loomComplete_formed {core} (h : s.Formed) : FormedOpt (s.loomComplete core) := by
  unfold State.loomComplete
  refine .firstSome (fun p _ => ?_)
  extract_lets b o
  refine .ite (lopfStep_formed h) (.ite trivial (.ite (Formed.drainCopy h) ?_))
  split
  · exact Formed.loomFault h
  · exact Formed.loomDone (.modBlk h)

theorem drainStore_formed {core b o} (h : s.Formed) : FormedOpt (s.drainStore core b o) := by
  unfold State.drainStore
  extract_lets mem add ty stores reads
  have hp := prepare_formed (core := core) (bid := b.bid) (iss := o.iss) (rs := stores ++ reads) h
  split
  · exact trivial
  next heq => exact Did.Formed.of_again heq hp
  next heq => exact Formed.loomFail (Did.Formed.of_fail heq hp)
  next heq =>
    have h1 := Did.Formed.of_ok heq hp
    split
    · exact Formed.loomFault h1
    · exact Formed.loomDone (.foldl (.ownFrames h1) (fun _ _ h => .writeRun h))

theorem drainAdds_formed {core b o} (h : s.Formed) : FormedOpt (s.drainAdds core b o) := by
  unfold State.drainAdds
  split
  · exact Formed.loomFault h
  · refine .ite (.ite trivial (Formed.loomDone h)) ?_
    extract_lets next
    split
    · exact Formed.modLoom h
    next r _ =>
      have hp := prepare_formed (core := core) (bid := b.bid) (iss := o.iss) (rs := [r]) h
      split
      · exact trivial
      next heq => exact Did.Formed.of_again heq hp
      next heq => exact Formed.loomFail (Did.Formed.of_fail heq hp)
      next heq => exact Formed.modLoom (.addRun (.ownFrames (Did.Formed.of_ok heq hp)))

theorem drainStep_formed {core} (h : s.Formed) : FormedOpt (s.drainStep core) := by
  unfold State.drainStep
  split
  · exact trivial
  · exact .ite trivial (.ite (drainStore_formed h) (drainAdds_formed h))

theorem loomStep_formed {core} (h : s.Formed) : FormedOpt (s.loomStep core) :=
  .firstSome (by
    simp only [List.forall_mem_cons, List.not_mem_nil, false_implies, implies_true, and_true]
    exact ⟨drainStep_formed h, loomComplete_formed h, lineEntry_formed h, metaGrant_formed h, loomAccept_formed h⟩)

end State

/-! ## The matrix-vector unit -/

namespace State.Formed

theorem mxvDone {c} (h : s.Formed) : (s.mxvDone c).Formed := .lower h

theorem mxvFail {c f} (h : s.Formed) : (s.mxvFail c f).Formed := .ite (.suspend (.modMxv h)) (.mxvDone (.deferAt h))

theorem place {c mill forced} (h : s.Formed) : (s.place c mill forced).Formed := h

theorem makeWindow {id n} (h : s.Formed) : (s.makeWindow id n).Formed := .ite h h

end State.Formed

namespace State

theorem dispatch_formed {c} (h : s.Formed) : FormedOpt (s.dispatch c) := by
  unfold State.dispatch
  extract_lets p n runs samples s1
  refine .ite (Formed.place h) (.ite (Formed.place h) (.ite (Formed.place h) (.ite trivial ?_)))
  split
  · exact Formed.mxvFail h
  · exact Formed.place (.foldl h (fun _ _ h => .reachFor h))

theorem storeResults_formed {c g} (h : s.Formed) : FormedOpt (s.storeResults c g) := by
  unfold State.storeResults
  extract_lets n core runs reads
  have hp := prepare_formed (core := core) (bid := c.bid) (iss := c.iss) (rs := runs ++ reads) h
  split
  · exact trivial
  next heq => exact Did.Formed.of_again heq hp
  next heq => exact Formed.mxvFail (Did.Formed.of_fail heq hp)
  next heq =>
    have h1 := Did.Formed.of_ok heq hp
    split
    · exact Formed.mxvFail h1
    · exact Formed.modMxv (.foldl (.ownFrames h1) (fun _ _ h => .writeRun h))

theorem readParts_formed {c die l more} (h : s.Formed) : (s.readParts c die l more).Formed := by
  unfold State.readParts
  extract_lets rs
  have hp := prepare_formed (core := (s.blk c.bid).core) (bid := c.bid) (iss := c.iss) (rs := rs ++ more) h
  split
  · exact trivial
  next heq => exact Did.Formed.of_again heq hp
  next heq => exact Did.Formed.of_fail heq hp
  next heq =>
    have h1 := Did.Formed.of_ok heq hp
    split
    · exact h1
    · split
      · exact h1
      · exact Formed.ownFrames h1

theorem loomPiece_formed {c g} (h : s.Formed) : FormedOpt (s.loomPiece c g) := by
  unfold State.loomPiece
  extract_lets n g0 m parts
  have hp := readParts_formed (c := c) (die := dieOf (s.blk c.bid).core) (l := parts) (more := []) h
  split
  · exact trivial
  next heq => exact Did.Formed.of_again heq hp
  next heq => exact Formed.mxvFail (Did.Formed.of_fail heq hp)
  next heq => exact Formed.modMxv (Did.Formed.of_ok heq hp)

theorem primeSeg_formed {c g} (h : s.Formed) : FormedOpt (s.primeSeg c g) := by
  have hp := readParts_formed (c := c) (die := dieOf (s.blk c.bid).core) (l := []) (more := c.priors g.first (g.last + 1 - g.first)) h
  unfold State.primeSeg
  split
  · exact trivial
  next heq => exact Did.Formed.of_again heq hp
  next heq => exact Formed.mxvFail (Did.Formed.of_fail heq hp)
  next heq => exact Formed.modMxv (Did.Formed.of_ok heq hp)

theorem loomSegment_formed {c g} (h : s.Formed) : FormedOpt (s.loomSegment c g) := by
  unfold State.loomSegment
  exact .ite (.ite trivial (.ite (storeResults_formed h) (.ite (primeSeg_formed h) trivial)))
    (.ite trivial (.ite (storeResults_formed h) (loomPiece_formed h)))

theorem millWindow_formed {c g} (h : s.Formed) : FormedOpt (s.millWindow c g) := by
  unfold State.millWindow
  extract_lets rs n
  have hp := prepare_formed (core := (s.blk c.bid).core) (bid := c.bid) (iss := c.iss) (rs := rs) h
  refine .ite trivial ?_
  split
  · exact trivial
  next heq => exact Did.Formed.of_again heq hp
  next heq => exact Formed.mxvFail (Did.Formed.of_fail heq hp)
  next heq =>
    have h1 := Did.Formed.of_ok heq hp
    split
    · exact Formed.mxvFail h1
    · exact Formed.modMxv (.makeWindow (.ownFrames h1))

theorem millBlock_formed {c g xs k} (h : s.Formed) : (s.millBlock c g xs k).Formed := by
  have hp := readParts_formed (c := c) (die := millDie) (l := [c.w g.row k 1]) (more := []) h
  unfold State.millBlock
  split
  · exact trivial
  next heq => exact Did.Formed.of_again heq hp
  next heq => exact Did.Formed.of_fail heq hp
  next heq => exact Formed.modMxv (Did.Formed.of_ok heq hp)

theorem millForward_formed {id r k} (h : s.Formed) : FormedOpt (s.millForward id r k) := by
  unfold State.millForward
  split
  · exact trivial
  · split
    · exact trivial
    · refine .ite trivial ?_
      split
      · exact trivial
      · exact Formed.mxvFail h
      · split
        · exact trivial
        next heq => exact Did.Formed.of_again heq (millBlock_formed h)
        next heq => exact Formed.mxvFail (Did.Formed.of_fail heq (millBlock_formed h))
        next heq => exact Did.Formed.of_ok heq (millBlock_formed h)

theorem millRow_formed {c g xs first k n} (h : s.Formed) : FormedOpt (s.millRow c g xs first k n) := by
  induction n generalizing s first k with
  | zero => exact h
  | succ n ih =>
    unfold State.millRow
    refine .ite (ih h) ?_
    split
    · exact .ite trivial h
    next heq => exact Did.Formed.of_again heq (millBlock_formed h)
    next heq => exact Formed.mxvFail (Did.Formed.of_fail heq (millBlock_formed h))
    next heq => exact ih (Did.Formed.of_ok heq (millBlock_formed h))

theorem millSegment_formed {c g} (h : s.Formed) : FormedOpt (s.millSegment c g) := by
  unfold State.millSegment
  refine .ite trivial (.ite (storeResults_formed h) ?_)
  split
  · exact millWindow_formed h
  · exact Formed.mxvFail h
  · exact .ite (Formed.modMxv h) (millRow_formed h)

theorem mxvStep_formed {c} (h : s.Formed) : FormedOpt (s.mxvStep c) := by
  unfold State.mxvStep
  extract_lets b
  split
  · exact trivial
  next core _ =>
    split
    · exact .ite (millSegment_formed h) (loomSegment_formed h)
    · exact .ite trivial (.ite (.ite trivial (Formed.mxvDone h)) (.ite trivial
        (.ite (.ite (Formed.modMxv (.l1Release h)) trivial) (.ite (.ite trivial (Formed.modMxv (.drainUnits h)))
        (.ite (dispatch_formed h) (.ite (Formed.modMxv h) trivial))))))

end State

end

end Sys2Proof.Machine
end

section
/-! SUPPORT. Memory's canonical form under the Surveyor's commands (spec/14_dray_surveyor_crier.md). -/

namespace Sys2Proof.Machine

section
variable {s : State}

theorem UnitEnd.Formed.ite {p : Prop} [Decidable p] {u w : UnitEnd} (hu : u.Formed) (hw : w.Formed) : UnitEnd.Formed (if p then u else w) := by
  split
  · exact hu
  · exact hw

namespace State.Formed

theorem modTable {part tw f} (h : s.Formed) : (s.modTable part tw f).Formed := h

theorem svDropped {c n} (h : s.Formed) : (s.svDropped c n).Formed := h

theorem dropTable {c new} (h : s.Formed) : (s.dropTable c new).Formed := h

theorem svCache {c} (h : s.Formed) : (s.svCache c).Formed := h

theorem svAnswer {c} (h : s.Formed) : (s.svAnswer c).Formed := by
  unfold State.svAnswer
  extract_lets d hit mb s1
  have h1 : s1.Formed := by
    unfold s1
    clear_value hit
    split
    · exact h
    · exact h
  exact h1

end State.Formed

theorem svTry_formed {α : Type} {c unit} {d : Did α} {k : State → α → UnitEnd} (hd : d.Formed) (hk : ∀ s v, s.Formed → (k s v).Formed) :
    (svTry c unit d k).Formed := by
  unfold svTry
  split
  · exact trivial
  · exact hd
  · exact UnitEnd.Formed.ite (State.Formed.suspendCmd hd) (State.Formed.modCmd hd)
  · exact hk _ _ hd

namespace State

theorem svFail_formed {c f unit} (h : s.Formed) : (s.svFail c f unit).Formed := .ite (Formed.suspendCmd h) (Formed.modCmd h)

theorem svInsert_formed {c unit k extra} (h : s.Formed) : (s.svInsert c unit k extra).Formed := by
  unfold State.svInsert
  extract_lets t
  split
  next v _ =>
    have hw := engWrite_formed (c := c) (unit := unit) (runs := extra v) h
    split
    · exact trivial
    next heq => exact Did.Formed.of_again heq hw
    next heq => exact Did.Formed.of_fail heq hw
    next heq => exact Did.Formed.of_ok heq hw
  · split
    · exact h
    · have hw := engWrite_formed (c := c) (unit := unit) (runs := (Run.store true (t.vab.toNat + 8 * t.nv) 8, bytesOf 8 k.toNat) :: extra t.nv) h
      split
      · exact trivial
      next heq => exact Did.Formed.of_again heq hw
      next heq => exact Did.Formed.of_fail heq hw
      next heq => exact Formed.modCmd (.modTable (Did.Formed.of_ok heq hw))

theorem svptUnit_formed {c} (h : s.Formed) : (s.svptUnit c).Formed :=
  svTry_formed (engRead_formed h) (fun _ _ h => .ite (svFail_formed h) (svTry_formed (engWrite_formed h) (fun _ _ h => h)))

theorem svvoxUnit_formed {c} (h : s.Formed) : (s.svvoxUnit c).Formed := by
  refine svTry_formed (engRead_formed h) (fun s l h => ?_)
  dsimp only
  split
  · exact svTry_formed (engWrite_formed h) (fun _ _ h => Formed.svDropped h)
  · exact svTry_formed (svInsert_formed h) (fun _ _ h => h)

theorem svqryUnit_formed {c} (h : s.Formed) : (s.svqryUnit c).Formed :=
  svTry_formed (engRead_formed h) (fun _ _ h => svTry_formed (engWrite_formed h) (fun _ _ h => h))

theorem svdwnUnit_formed {c} (h : s.Formed) : (s.svdwnUnit c).Formed := svTry_formed (svInsert_formed h) (fun _ _ h => h)

theorem nbrInput_formed {c k first drop l} (h : s.Formed) : (s.nbrInput c k first drop l).Formed := by
  induction l generalizing s first drop with
  | nil => exact Formed.modCmd (.svDropped h)
  | cons o os ih =>
    unfold State.nbrInput
    split
    · exact ih h
    · exact ih h
    next y _ =>
      have hw := svInsert_formed (c := c) (unit := c.formed) (k := y) (extra := fun _ => []) h
      split
      · exact .ite trivial h
      next heq => exact Did.Formed.of_again heq hw
      next heq =>
        have h1 := Did.Formed.of_fail heq hw
        exact .ite (svFail_formed h1) (svFail_formed (Formed.svDropped h1))
      next heq => exact ih (Did.Formed.of_ok heq hw)

theorem nbrCsr_formed {c lists} (h : s.Formed) : (s.nbrCsr c lists).Formed := by
  unfold State.nbrCsr
  extract_lets d total rp cnt tooMany
  clear_value tooMany
  split
  · exact svTry_formed (engWrite_formed h) (fun _ _ h => svFail_formed h)
  · exact svTry_formed (engWrite_formed h) (fun _ _ h => h)

theorem nbrPairs_formed {c lists} (h : s.Formed) : (s.nbrPairs c lists).Formed := by
  unfold State.nbrPairs
  extract_lets d j cnt
  split
  · exact svTry_formed (engWrite_formed h) (fun _ _ h => svFail_formed h)
  · exact svTry_formed (engWrite_formed h) (fun _ _ h => h)

theorem svnbrUnit_formed {c} (h : s.Formed) : (s.svnbrUnit c).Formed := by
  unfold State.svnbrUnit
  extract_lets d at_
  refine svTry_formed (engRead_formed h) (fun s l h => ?_)
  refine .ite (nbrInput_formed h) ?_
  have h1 : State.Formed (if c.units = 0 then s.modCmd c.id (fun y => { y with memo := [s.nbrLen c ((nbrOffsets (l.headD [])).map (s.nbrList c))] }) else s) :=
    .ite (.modCmd h) h
  exact .ite (nbrCsr_formed h1) (nbrPairs_formed h1)

theorem svclrUnit_formed {c} (h : s.Formed) : (s.svclrUnit c).Formed := .ite (svFail_formed h) (Formed.modCmd (.dropTable h))

theorem svBegin_formed {c} (h : s.Formed) : (s.svBegin c).Formed := by
  unfold State.svBegin
  split
  · exact svFail_formed h
  · exact .ite (svclrUnit_formed h) (Formed.modCmd h)

theorem svUnit_formed {c} (h : s.Formed) : (s.svUnit c).Formed := by
  unfold State.svUnit
  exact .ite (svBegin_formed h) (.ite (svptUnit_formed h) (.ite (svvoxUnit_formed h) (.ite (svqryUnit_formed h)
    (.ite (svnbrUnit_formed h) (svdwnUnit_formed h)))))

theorem svStatus_formed {c} (h : s.Formed) : FormedOpt (s.svStatus c) := by
  unfold State.svStatus
  extract_lets t t1 change
  have hw := engWrite_formed (c := c) (unit := c.svCount) (runs := [(Run.store true t.srb.toNat 16, t1.status)]) h
  split
  · exact trivial
  next heq => exact Did.Formed.of_again heq hw
  next s1 f heq =>
    have h1 := Did.Formed.of_fail heq hw
    refine .ite (Formed.suspendCmd h1) ?_
    extract_lets s2 s3
    have h3 : s3.Formed := by
      unfold s3
      split
      · exact .deferCmd (.modTable h1)
      · exact .modTable h1
    exact Formed.finishCmd (.modCmd h3)
  next heq => exact Formed.finishCmd (.modTable (Did.Formed.of_ok heq hw))

theorem svFin_formed {c} (h : s.Formed) : FormedOpt (s.svFin c) := by
  unfold State.svFin
  extract_lets opc ok s1
  have h1 : s1.Formed := .ite (.svCache h) h
  exact .ite (Formed.finishCmd (.ite (.svAnswer h) (.modSl h))) (.ite (Formed.finishCmd (.ite (.dropTable h) h))
    (.ite (svStatus_formed h1) (Formed.finishCmd h1)))

theorem surveyorStart_formed {u} (h : s.Formed) : FormedOpt (s.surveyorStart u) := by
  unfold State.surveyorStart
  extract_lets mine
  refine .ite trivial ?_
  split
  · exact Formed.modCmd h
  · exact trivial

theorem surveyorBatch_formed {u} (h : s.Formed) : FormedOpt (s.surveyorBatch u) := by
  unfold State.surveyorBatch
  split
  · exact trivial
  · refine .ite trivial ?_
    split
    next heq => exact engFence_formed h heq
    · exact unitLoop_formed (fun _ _ h => svUnit_formed h) (fun _ _ h => svFin_formed h) h

theorem surveyorStep_formed {u} (h : s.Formed) : FormedOpt (s.surveyorStep u) := by
  unfold State.surveyorStep
  split
  next heq => exact Formed.of_some heq (surveyorStart_formed h)
  · exact surveyorBatch_formed h

end State

end

end Sys2Proof.Machine
end

section
/-! SUPPORT. Memory's canonical form under the Foreman: queues, launches and grids, the placement, the stop and the end of blocks, and the trap records
(spec/11_foreman.md, spec/12_translation_and_traps.md). -/

namespace Sys2Proof.Machine

section
variable {s : State}

/-! ## Queues, launches and grids -/

namespace State.Formed

theorem raiseMsi {fn vec} (h : s.Formed) : (s.raiseMsi fn vec).Formed := .ite h h

theorem modPage {p f} (h : s.Formed) : (s.modPage p f).Formed := h

theorem modQueue {q f} (h : s.Formed) : (s.modQueue q f).Formed := h

theorem recallLaunch {part lra} (h : s.Formed) : (s.recallLaunch part lra).Formed := by
  unfold State.recallLaunch
  extract_lets s1
  have h1 : s1.Formed := .recallVirt h
  split
  · exact h1
  · exact .foldl h1 (fun _ _ h => .recallVirt h)

theorem enterReady {g} (h : s.Formed) : (s.enterReady g).Formed := h

theorem taskAccept {g} (h : s.Formed) : (s.taskAccept g).Formed := by
  unfold State.taskAccept
  extract_lets part dca s1
  have h1 : s1.Formed := .recallVirt h
  split
  · exact .enterReady h1
  · refine .ite (.enterReady h1) ?_
    split
    · exact .enterReady h1
    next heq =>
      have h2 := State.Formed.writeVirt heq h1
      exact h2

theorem taskDecrement {part t} (h : s.Formed) : (s.taskDecrement part t).Formed := by
  unfold State.taskDecrement
  extract_lets s1
  have h1 : s1.Formed := .recallVirt h
  split
  · exact h1
  · extract_lets cnt
    refine .ite h1 (.ite ?_ ?_)
    · split
      · exact h1
      next heq =>
        have h2 := State.Formed.writeVirt heq h1
        split
        · exact .enterReady h2
        · exact h2
    · split
      · exact h1
      next heq => exact .writeVirt heq h1

theorem writeEntry {part qea l} (h : s.Formed) : (s.writeEntry part qea l).Formed := by
  unfold State.writeEntry
  split
  next heq => exact .writeVirt heq h
  · exact h

theorem entryIrq {queue irq} (h : s.Formed) : (s.entryIrq queue irq).Formed := .ite (.raiseMsi h) h

theorem endChain {g st rsn} (h : s.Formed) : (s.endChain g st rsn).Formed := by
  unfold State.endChain
  extract_lets part s1 s2 w
  have h1 : s1.Formed := h
  have h2 : s2.Formed := .ite (.foldl h1 (fun _ _ h => .foldl (.recallVirt h) (fun _ _ h => .taskDecrement h))) h1
  exact .entryIrq (.writeEntry h2)

theorem wqDrop {gid} (h : s.Formed) : (s.wqDrop gid).Formed := h

theorem freeCores (h : s.Formed) : s.freeCores.Formed := h

end State.Formed

namespace State

theorem queueAccept_formed {q} (h : s.Formed) : FormedOpt (s.queueAccept q) := by
  unfold State.queueAccept
  extract_lets r part qea s1 priv host s2 s3
  refine .ite trivial ?_
  have h1 : s1.Formed := .recallVirt h
  split
  · exact Formed.modQueue h1
  · extract_lets lra irq s4 s5
    have h4 : s4.Formed := .recallLaunch (.modQueue (s := s2) h1)
    split
    · exact Formed.entryIrq (.writeEntry h4)
    · have h5 : s5.Formed := .writeEntry h4
      exact Formed.taskAccept (s := { s5 with nextId := s5.nextId + 1 }) h5

theorem gridRetire_formed {gid} (h : s.Formed) : FormedOpt (s.gridRetire gid) := by
  unfold State.gridRetire
  split
  · exact trivial
  · refine .ite trivial ?_
    extract_lets g s1 s2 link s3
    have h2 : s2.Formed := .freeCores (.modGrid (.wqDrop h))
    have h3 : s3.Formed := .ite h2 (.recallLaunch h2)
    refine .ite (Formed.endChain h3) (.ite (Formed.endChain h3) ?_)
    split
    · exact Formed.endChain h3
    · exact h3

end State

/-! ## Frames and the placement of blocks -/

namespace State.Formed

theorem writeFrame {b st} (h : s.Formed) : (s.writeFrame b st).Formed := .foldl h (fun _ _ h => .homeWrite h)

theorem loadRec {bid k r} (h : s.Formed) : (s.loadRec bid k r).Formed := by
  unfold State.loadRec
  split
  · exact h
  · exact h
  · exact .ite h h
  · split
    · exact h
    · extract_lets b opc oldL oldM oldC s1
      have h1 : s1.Formed := h
      exact .ite (.modBlk h1) (.ite h1 (.ite h1 (.settleTokens h1)))

theorem loadFrame {bid} (h : s.Formed) : (s.loadFrame bid).Formed := .foldl (.modBlk h) (fun _ _ h => .loadRec h)

theorem fillPages {bid rix r page n} (h : s.Formed) : (s.fillPages bid rix r page n).Formed := by
  induction n generalizing s page with
  | zero => exact h
  | succ n ih =>
    unfold State.fillPages
    extract_lets b
    refine .ite h (.ite (ih h) ?_)
    split
    · exact ih (.ite (.modBlk h) h)
    · exact ih (.ite h (.modBlk (.touchLeaf (.keepWalk h))))

theorem fillExtents {bid} (h : s.Formed) : (s.fillExtents bid).Formed := .foldl h (fun _ _ h => .fillPages h)

theorem placeIn {core k bid subs} (h : s.Formed) : (s.placeIn core k bid subs).Formed := .forSlices (.modSec h)

theorem placeGangs {core bid l} (h : s.Formed) : (s.placeGangs core bid l).Formed := by
  unfold State.placeGangs
  split
  · exact h
  · exact .foldl h (fun _ _ h => .placeIn h)

theorem placeGang {core bid subs} (h : s.Formed) : (s.placeGang core bid subs).Formed := .placeGangs h

theorem hold {core part} (h : s.Formed) : (s.hold core part).Formed := h

theorem admitNew {g bnum core cfa} (h : s.Formed) : (s.admitNew g bnum core cfa).Formed := by
  unfold State.admitNew
  extract_lets b len fr s1 s2 s3
  have h3 : s3.Formed := .l1Acquire (.modGrid (.hold (.homeWrite (s := s1) h)))
  exact .fillExtents (.foldl h3 (fun _ _ h => .placeGang h))

theorem moveEntries {gid l host} (h : s.Formed) : (s.moveEntries gid l host).Formed := .foldl h (fun _ _ h => h)

theorem reserve {g l core} (h : s.Formed) : (s.reserve g l core).Formed := .ite h (.moveEntries (.modCore h))

theorem reachAgain {bid i m} (h : s.Formed) : (s.reachAgain bid i m).Formed := by
  unfold State.reachAgain
  refine .foldl (.modMop h) (fun s p h => ?_)
  split
  · exact .modMop h
  · exact .suspend (.modMop h)

theorem reachMops {bid} (h : s.Formed) : (s.reachMops bid).Formed := .foldl h (fun _ _ h => .foldl h (fun _ _ h => .reachAgain h))

theorem restoreOn {bid core} (h : s.Formed) : (s.restoreOn bid core).Formed := h

theorem preempt {bid} (h : s.Formed) : (s.preempt bid).Formed := h

theorem removeBlock {bid} (h : s.Formed) : (s.removeBlock bid).Formed := by
  unfold State.removeBlock
  extract_lets b ops s1 s2
  have h1 : s1.Formed := .freeSubs h
  exact .freeCores (s := s2) h1

theorem endGrid {gid} (h : s.Formed) : (s.endGrid gid).Formed := .foldl (.modGrid h) (fun _ _ h => .ite (.removeBlock h) (.preempt h))

end State.Formed

theorem State.takeBack_formed {bid} (h : s.Formed) : FormedOpt (s.takeBack bid) := by
  unfold State.takeBack
  exact .ite h (.ite trivial (State.Formed.loadFrame h))

namespace State.Formed

theorem restoreBlock {g bid core} (h : s.Formed) : (s.restoreBlock g bid core).Formed := by
  unfold State.restoreBlock
  split
  · exact .endGrid h
  next heq =>
    have h1 := State.Formed.of_some heq (State.takeBack_formed h)
    extract_lets gangs s2
    have h2 : s2.Formed := .modGrid (.restoreOn h1)
    exact .reachMops (.fillExtents (.foldl h2 (fun _ _ h => .placeGangs h)))

theorem placeCand {g c core} (h : s.Formed) : (s.placeCand g c core).Formed := by
  unfold State.placeCand
  extract_lets s1
  have h1 : s1.Formed := .ite (.reserve h) h
  split
  · split
    · exact .admitNew h1
    · exact h1
  · exact .restoreBlock h1

theorem bindGrid {g} (h : s.Formed) : (s.bindGrid g).Formed := .foldl (.modGrid h) (fun _ _ h => .reserve h)

theorem rebind {part core} (h : s.Formed) : (s.rebind part core).Formed :=
  .foldl h (fun _ _ h => .ite (.modGrid h) (.foldl h (fun _ _ h => .reserve (.modGrid h))))

theorem giveCore {p core w} (h : s.Formed) : (s.giveCore p core w).Formed := by
  unfold State.giveCore
  extract_lets s1
  have h1 : s1.Formed := .hold h
  split
  · exact .placeCand h1
  · exact .bindGrid h1

theorem grantTaken {core p} (h : s.Formed) : (s.grantTaken core p).Formed := by
  unfold State.grantTaken
  extract_lets s1
  have h1 : s1.Formed := h
  split
  · exact .giveCore h1
  · exact h1

theorem takeCore {frm dest core} (h : s.Formed) : (s.takeCore frm dest core).Formed :=
  .freeCores (.foldl (.rebind (.modCore h)) (fun _ _ h => .preempt h))

end State.Formed

namespace State

theorem blockAdmit_formed {part} (h : s.Formed) : FormedOpt (s.blockAdmit part) := by
  unfold State.blockAdmit
  split
  · exact Formed.placeCand h
  · exact trivial

theorem blockRestore_formed {bid core} (h : s.Formed) : FormedOpt (s.blockRestore bid core) := by
  unfold State.blockRestore
  split
  · exact .ite (Formed.placeCand h) trivial
  · exact trivial

theorem detStart_formed {rq} (h : s.Formed) : FormedOpt (s.detStart rq) := by
  unfold State.detStart
  split
  · exact .ite (Formed.bindGrid h) trivial
  · exact trivial

theorem grantNext_formed (h : s.Formed) : FormedOpt s.grantNext := by
  unfold State.grantNext
  extract_lets held guar want u pri
  split
  · split
    · exact .map (fun _ => Formed.giveCore h)
    · split
      · exact trivial
      · split
        · exact trivial
        · exact Formed.takeCore h
  · split
    · exact trivial
    · split
      · exact .map (fun _ => Formed.giveCore h)
      · exact trivial

theorem coreGrant_formed (h : s.Formed) : FormedOpt s.coreGrant := by
  unfold State.coreGrant
  split
  · exact .ite trivial (Formed.grantTaken h)
  · exact grantNext_formed h

/-! ## The stop, the save and the end of a block -/

namespace Formed

theorem dropExtents {bid} (h : s.Formed) : (s.dropExtents bid).Formed := .modBlk (.foldl h (fun _ _ h => .flushExtent h))

theorem dropPv {bid core} (h : s.Formed) : (s.dropPv bid core).Formed := h

theorem addRecord {b t} (h : s.Formed) : (s.addRecord b t).Formed := h

theorem residueTrap {b} (h : s.Formed) : (s.residueTrap b).Formed := by
  unfold State.residueTrap
  split
  · exact h
  · exact .modGrid (.addRecord h)

theorem blockTrap {bid t} (h : s.Formed) : (s.blockTrap bid t).Formed := .takeTrap h

end Formed

theorem regDeadlock_formed {bid} (h : s.Formed) : FormedOpt (s.regDeadlock bid) := by
  unfold State.regDeadlock
  exact .ite trivial (Formed.blockTrap h)

theorem blockStopStep_formed {bid} (h : s.Formed) : FormedOpt (s.blockStopStep bid) := by
  unfold State.blockStopStep
  extract_lets b
  split
  · exact trivial
  · refine .ite trivial (Formed.modBlk (.l1FlushAll ?_))
    split
    · exact Formed.consume h
    · exact h

theorem blockSave_formed {bid} (h : s.Formed) : FormedOpt (s.blockSave bid) := by
  unfold State.blockSave
  extract_lets b
  split
  next core st _ _ =>
    have hd : ((s.dropExtents bid).dropPv bid core).Formed := .dropPv (.dropExtents h)
    refine .ite trivial (.ite (Formed.removeBlock hd) ?_)
    extract_lets gangs s1 s2 s3
    have h1 : s1.Formed := .saveSubs hd
    have h3 : s3.Formed := .modBlk (s := s2) h1
    exact Formed.freeCores (.writeFrame h3)
  · exact trivial

theorem blockRetire_formed {bid} (h : s.Formed) : FormedOpt (s.blockRetire bid) := by
  unfold State.blockRetire
  extract_lets b
  split
  · exact trivial
  · exact .ite trivial (.ite (Formed.modBlk (.drainUnits (.l1FlushAll h))) (.ite trivial
      (Formed.removeBlock (.modGrid (.dropPv (.dropExtents (.residueTrap h)))))))

theorem watchdog_formed {bid} (h : s.Formed) : FormedOpt (s.watchdog bid) := by
  unfold State.watchdog
  extract_lets b
  split
  · exact .ite trivial (Formed.blockTrap h)
  · exact trivial

/-! ## The trap records -/

namespace Formed

theorem recs_set {l} (h : s.Formed) : State.Formed { s with recs := l } := h

theorem mramWrite {a l} (h : s.Formed) : (s.mramWrite a l).Formed := h

theorem commitFirst {r n} (h : s.Formed) : (s.commitFirst r n).Formed := .foldl h (fun _ _ h => .mramWrite h)

theorem modRecRing {r f} (h : s.Formed) : (s.modRecRing r f).Formed := .ite h (.modPage h)

end Formed

theorem recWrite_formed {n} (h : s.Formed) : FormedOpt (s.recWrite n) := by
  unfold State.recWrite
  split
  · exact trivial
  next r _ =>
    refine .ite trivial (.ite (.ite trivial (Formed.recs_set (.commitFirst h))) ?_)
    extract_lets k a
    refine .ite trivial ?_
    have hw : FormedExcept (if r.device then .ok (s.homeWrite 0 a (recordBytes r)) else s.writeVirt r.part a (recordBytes r)) := by
      split
      · exact Formed.homeWrite h
      · exact writeVirt_formed h
    split
    · exact trivial
    next s1 heq =>
      rw [heq] at hw
      have h1 : s1.Formed := hw
      exact Formed.raiseMsi (.recs_set (.modRecRing h1))

end State

end

end Sys2Proof.Machine
end

section
/-! SUPPORT. Memory's canonical form under the host's commands, its register and memory accesses, the peers and the platform (spec/16_host_and_platform.md). -/

namespace Sys2Proof.Machine

section
variable {s : State}

/-! ## Rings, registers and commands -/

namespace State.Formed

theorem modHost {f} (h : s.Formed) : (s.modHost f).Formed := h

theorem queueDoorbell {queue tail} (h : s.Formed) : (s.queueDoorbell queue tail).Formed := .ite (.modQueue h) (.modHost (.modQueue h))

theorem registerWrite {fn off value} (h : s.Formed) : (s.registerWrite fn off value).Formed :=
  .ite (.ite h (.ite h (.ite h (.ite h (.ite (.modPage h) h))))) (.ite (.modPage h) (.ite h h))

theorem cmdWrite {o l} (h : s.Formed) : (s.cmdWrite o l).Formed := .homeWrite (.recallSpan h)

theorem cmdEnd {st rsn} (h : s.Formed) : (s.cmdEnd st rsn).Formed := by
  unfold State.cmdEnd
  extract_lets s1 s2 s3
  have h1 : s1.Formed := .cmdWrite h
  exact .raiseMsi (s := s3) h1

theorem cmdRefused {op rsn} (h : s.Formed) : (s.cmdRefused op rsn).Formed := .cmdEnd (.ite (.cmdWrite h) h)

theorem l1Back {core drop x} (h : s.Formed) : (s.l1Back core drop x).Formed := .ite (.flushL1 h) (.writeBackL1 h)

theorem l1BackAll {drop hit} (h : s.Formed) : (s.l1BackAll drop hit).Formed := .foldl h (fun _ _ h => .foldl h (fun _ _ h => .l1Back h))

theorem discardExtents {hit} (h : s.Formed) : (s.discardExtents hit).Formed :=
  .foldl h (fun _ _ h => .modBlk (.foldl h (fun _ _ h => .flushExtent h)))

theorem discardFetch {hit} (h : s.Formed) : (s.discardFetch hit).Formed := h

theorem rangeCaches {c fr all} (h : s.Formed) : (s.rangeCaches c fr all).Formed := by
  unfold State.rangeCaches
  extract_lets hit s1 s2
  have h1 : s1.Formed := .ite h h
  exact .ite (.foldl (.foldl h1 (fun _ _ h => .recallLine h)) (fun _ _ h => .writeBackL2 h)) h1

theorem discardWindows {p} (h : s.Formed) : (s.discardWindows p).Formed := .discardFetch (.discardExtents h)

theorem resetPartition {p} (h : s.Formed) : (s.resetPartition p).Formed := by
  unfold State.resetPartition
  extract_lets grids s1 parked s2 s3 s4 subs s5
  have h1 : s1.Formed := .foldl h (fun _ _ h => .wqDrop (.endGrid h))
  have h2 : s2.Formed := .foldl (s := { s1 with parked := _ }) h1 (fun _ _ h => .endChain h)
  have h5 : s5.Formed := .foldl (.modHost (.modPage h2)) (fun _ _ h => .endSub h)
  exact h5

theorem clearLog (h : s.Formed) : s.clearLog.Formed := by
  unfold State.clearLog
  generalize List.range 2048 = l
  exact .foldl h (fun _ _ h => .mramWrite h)

end State.Formed

theorem CmdEnd.Formed.ite {p : Prop} [Decidable p] {e d : CmdEnd} (he : e.Formed) (hd : d.Formed) : CmdEnd.Formed (if p then e else d) := by
  split
  · exact he
  · exact hd

namespace State

theorem command_formed {ops} {f : State → List Byte → CmdEnd} (hf : ∀ l, (f s l).Formed) (h : s.Formed) : FormedOpt (s.command ops f) := by
  unfold State.command
  extract_lets l op
  refine .ite trivial (.ite trivial (.ite (Formed.cmdRefused h) ?_))
  have hl := hf l
  generalize f s l = e at hl
  match e with
  | .wait r => exact hl
  | .done s1 => exact Formed.cmdEnd hl
  | .refused s1 rsn => exact Formed.cmdRefused hl

theorem shootdown_formed {l} (h : s.Formed) : (s.shootdown l).Formed := by
  unfold State.shootdown
  extract_lets vb len c sel lo n fr mine s1 s2 s3
  have h3 : s3.Formed := .discardFetch (.discardExtents (.rangeCaches h))
  exact .ite h (.ite h (.ite (Formed.l1BackAll h) (.ite trivial (Formed.cmdWrite (s := { s3 with walkCache := [], dlost := 0 }) h3))))

theorem resume_formed {l} (h : s.Formed) : (s.resume l).Formed := by
  unfold State.resume
  split
  · exact h
  · extract_lets disp
    exact .ite h (.ite (Formed.endGrid h) (Formed.modBlk (.loadFrame h)))

theorem setPart_formed {l} (h : s.Formed) : (s.setPart l).Formed := by
  unfold State.setPart
  extract_lets
  exact .ite h (.ite h h)

theorem setAttrTable_formed {l} (h : s.Formed) : (s.setAttrTable l).Formed := .ite h (.ite h (Formed.dropWo (s := { s with fatb := _, fn := _ }) h))

theorem loadKey_formed {l} (h : s.Formed) : (s.loadKey l).Formed := .ite h h

theorem retireKey_formed {l} (h : s.Formed) : (s.retireKey l).Formed := by
  unfold State.retireKey
  extract_lets k s0 s1 s2 s3 s4
  have h4 : s4.Formed :=
    .foldl (.foldl (.foldl (.discardExtents h) (fun _ _ h => .recallLine h)) (fun _ _ h => .dropL2 (.writeBackL2 h))) (fun _ _ h => .evictL3 h)
  have h0 : s0.Formed := .discardFetch h
  exact .ite h (.ite h0 (.ite trivial h4))

theorem openWindow_formed {l} (h : s.Formed) : (s.openWindow l).Formed := .ite h (.ite h h)

theorem closeWindow_formed {l} (h : s.Formed) : (s.closeWindow l).Formed := by
  unfold State.closeWindow
  extract_lets w s1
  have h1 : s1.Formed := .discardWindows h
  exact .ite h (.ite trivial h1)

theorem resetCmd_formed {p} (h : s.Formed) : (s.resetCmd p).Formed := by
  unfold State.resetCmd
  extract_lets s1
  have h1 : s1.Formed := .resetPartition h
  exact .ite trivial (Formed.foldl h1 (fun _ _ h => (gridRetire_formed h).getD h))

theorem preemptCore_formed {l} (h : s.Formed) : (s.preemptCore l).Formed := by
  unfold State.preemptCore
  split
  · exact Formed.modHost (.foldl h (fun _ _ h => .preempt h))
  · exact .ite trivial (Formed.modHost h)

theorem cmdResetPartition_formed (h : s.Formed) : FormedOpt s.cmdResetPartition := by
  refine command_formed (fun l => ?_) h
  dsimp only
  split
  · exact FormedOpt.ite (Formed.resetPartition h) trivial
  · exact resetCmd_formed h

theorem cmdShootdown_formed (h : s.Formed) : FormedOpt s.cmdShootdown := command_formed (fun _ => shootdown_formed h) h

theorem cmdResume_formed (h : s.Formed) : FormedOpt s.cmdResume := command_formed (fun _ => resume_formed h) h

theorem cmdPartition_formed (h : s.Formed) : FormedOpt s.cmdPartition := command_formed (fun _ => setPart_formed h) h

theorem cmdAttributeTable_formed (h : s.Formed) : FormedOpt s.cmdAttributeTable := command_formed (fun _ => setAttrTable_formed h) h

theorem cmdLoadKey_formed (h : s.Formed) : FormedOpt s.cmdLoadKey := command_formed (fun _ => loadKey_formed h) h

theorem cmdRetireKey_formed (h : s.Formed) : FormedOpt s.cmdRetireKey := command_formed (fun _ => retireKey_formed h) h

theorem cmdOpenWindow_formed (h : s.Formed) : FormedOpt s.cmdOpenWindow := command_formed (fun _ => openWindow_formed h) h

theorem cmdCloseWindow_formed (h : s.Formed) : FormedOpt s.cmdCloseWindow := command_formed (fun _ => closeWindow_formed h) h

theorem cmdPreempt_formed (h : s.Formed) : FormedOpt s.cmdPreempt := command_formed (fun _ => preemptCore_formed h) h

theorem cmdClearTrapLog_formed (h : s.Formed) : FormedOpt s.cmdClearTrapLog := command_formed (fun _ => Formed.clearLog h) h

theorem cmdReserved_formed (h : s.Formed) : FormedOpt s.cmdReserved := command_formed (fun _ => h) h

theorem commandStep_formed (h : s.Formed) : FormedOpt s.commandStep :=
  .ite trivial (.firstSome (by
    simp only [List.forall_mem_cons, List.not_mem_nil, false_implies, implies_true, and_true]
    exact ⟨cmdShootdown_formed h, cmdResume_formed h, cmdPartition_formed h, cmdAttributeTable_formed h, cmdLoadKey_formed h, cmdRetireKey_formed h,
      cmdOpenWindow_formed h, cmdCloseWindow_formed h, cmdResetPartition_formed h, cmdPreempt_formed h, cmdClearTrapLog_formed h,
      cmdReserved_formed h⟩))

/-! ## The host's and the peers' accesses -/

namespace Formed

theorem free_set {n} (h : s.Formed) : State.Formed { s with free := n } := h

theorem physWrite {kid pa l} (h : s.Formed) : (s.physWrite kid pa l).Formed := .free_set (.ite h (.homeWrite (.recallSpan h)))

theorem answered {l} (h : s.Formed) : (s.answered l).Formed := h

theorem pfAccess {off len write data} (h : s.Formed) : (s.pfAccess off len write data).Formed :=
  .ite (.ite (.modHost h) (.answered h)) (.ite (.physWrite h) (.free_set (.answered (.recallSpan h))))

theorem apFailed {p} (h : s.Formed) : (s.apFailed p).Formed := h

theorem vfAccess {p off len write data} (h : s.Formed) : (s.vfAccess p off len write data).Formed := by
  unfold State.vfAccess
  extract_lets va failed
  have hf : failed.Formed := .ite (.apFailed h) (.answered (.apFailed h))
  split
  · exact hf
  · extract_lets s1
    have h1 : s1.Formed := .foldl h (fun _ _ h => .recallSpan h)
    refine .ite hf (.ite ?_ (.free_set (.answered h1)))
    cases hw : s1.writeVirt p va (bytesOf len data) with
    | error e => exact h1
    | ok t => exact .writeVirt hw h1

theorem physAtomic {kid pa n f} (h : s.Formed) : (s.physAtomic kid pa n f).Formed := .answered (.physWrite (.recallSpan h))

theorem physAdd {kid pa x} (h : s.Formed) : (s.physAdd kid pa x).Formed := by
  unfold State.physAdd
  extract_lets a s1
  have h1 : s1.Formed := .recallSpan h
  split
  · exact h1
  · exact .physWrite h1

theorem peerRequest {pa kid len req data} (h : s.Formed) : (s.peerRequest pa kid len req data).Formed := by
  unfold State.peerRequest
  refine .ite h ?_
  split
  · exact .free_set (.answered (.recallSpan h))
  · exact .physWrite h
  · exact .physAtomic h
  · exact .physAtomic h
  · exact .physAdd h

theorem linkDown {link} (h : s.Formed) : (s.linkDown link).Formed := by
  unfold State.linkDown
  extract_lets s1 s2
  have h2 : s2.Formed := .discardWindows (s := s1) h
  exact .ite h (.raiseMsi (.modHost h2))

/-! ## The platform -/

theorem poisonPacket {n f} (h : s.Formed) : (s.poisonPacket n f).Formed := by
  unfold State.poisonPacket
  extract_lets
  split
  · exact h
  · exact .ite h (.ite h (.ite h (.ite h (.ite h (.ite h h)))))

theorem stepTo {n since} (h : s.Formed) : (s.stepTo n since).Formed := .raiseMsi (.modHost h)

theorem poisonL2 {n} (h : s.Formed) : (s.poisonL2 n).Formed := h

theorem poisonL3 {n} (h : s.Formed) : (s.poisonL3 n).Formed := h

theorem poisonBench {bid word} (h : s.Formed) : (s.poisonBench bid word).Formed := h

theorem poisonReg {bid i k} (h : s.Formed) : (s.poisonReg bid i k).Formed := h

end Formed

theorem peerStep_formed (h : s.Formed) : FormedOpt s.peerStep := .map (fun _ => Formed.peerRequest (.modHost h))

theorem imageStep_formed (h : s.Formed) : FormedOpt s.imageStep := by
  unfold State.imageStep
  refine .ite trivial ?_
  split
  · exact Formed.raiseMsi (.modHost h)
  · exact Formed.raiseMsi (.modHost h)

theorem throttleDown_formed (h : s.Formed) : FormedOpt s.throttleDown := .ite (Formed.modHost (.stepTo h)) trivial

theorem throttleUp_formed (h : s.Formed) : FormedOpt s.throttleUp := .ite (Formed.stepTo h) trivial

theorem thermalCritical_formed (h : s.Formed) : FormedOpt s.thermalCritical := .ite (Formed.raiseMsi (.modHost h)) trivial

theorem platformStep_formed (h : s.Formed) : FormedOpt s.platformStep :=
  .ite (.firstSome (by
    simp only [List.forall_mem_cons, List.not_mem_nil, false_implies, implies_true, and_true]
    exact ⟨imageStep_formed h, peerStep_formed h, throttleDown_formed h, thermalCritical_formed h, throttleUp_formed h⟩)) trivial

theorem whilePowered_formed {f : State → State} (hf : (f s).Formed) (h : s.Formed) : FormedOut (s.whilePowered f) := Formed.ite hf h

end State

/-! ## The events of the host and the platform -/

theorem execHostBar2Access_formed {fn off len write data} (h : s.Formed) : FormedOut (execHostBar2Access fn off len write data s) :=
  State.whilePowered_formed (.ite (.ite (.pfAccess h) h) (.ite (.vfAccess h) h)) h

theorem execPeerIncomingRequest_formed {pa kid len req data} (h : s.Formed) : FormedOut (execPeerIncomingRequest pa kid len req data s) :=
  State.whilePowered_formed (.ite (.modHost h) (.peerRequest h)) h

theorem execPeerLinkRetrain_formed {link} (h : s.Formed) : FormedOut (execPeerLinkRetrain link s) :=
  State.whilePowered_formed (.ite h (.raiseMsi (.modHost h))) h

theorem execFlitRetry_formed {n fails} (h : s.Formed) : FormedOut (execFlitRetry n fails s) := by
  refine State.whilePowered_formed ?_ h
  extract_lets s1
  have h1 : s1.Formed := .modHost h
  exact .ite h1 (.ite (.linkDown h1) (.poisonPacket h1))

theorem State.Formed.seqNo_set {n} (h : s.Formed) : State.Formed { s with seqNo := n } := h

theorem execPowerOn_formed (h : s.Formed) : FormedOut (execPowerOn s) := by
  unfold execPowerOn
  generalize s.lastSlot = q
  exact State.Formed.ite h (.seqNo_set (.modHost h))

theorem execFirmwareGo_formed (h : s.Formed) : FormedOut (execFirmwareGo s) :=
  State.whilePowered_formed (.ite (.raiseMsi (.modHost h)) ((State.imageStep_formed h).getD h)) h

theorem execMemoryTraining_formed {found} (h : s.Formed) : FormedOut (execMemoryTraining found s) := by
  refine State.whilePowered_formed (.ite h ?_) h
  split
  · exact .raiseMsi (.modHost h)
  · have h1 := State.Formed.raiseMsi (fn := 0) (vec := 0) (State.Formed.modHost (f := fun y => { y with fwst := 4 }) h)
    exact h1

theorem execAttestationGo_formed {part} (h : s.Formed) : FormedOut (execAttestationGo part s) := by
  refine State.whilePowered_formed ?_ h
  extract_lets p
  split
  next heq => exact .modPage (.writeVirt heq h)
  · exact .modPage h

theorem execPowerLoss_formed {words} (h : s.Formed) : FormedOut (execPowerLoss words s) := by
  refine State.whilePowered_formed ?_ h
  exact (rfl : Memory.wf [] = true)

theorem execSoftError_formed {store index bits} (h : s.Formed) : FormedOut (execSoftError store index bits s) :=
  State.whilePowered_formed (.ite h (.ite (.poisonL2 h) (.ite (.poisonL3 h) (.ite (.poisonBench h) (.ite (.poisonReg h) h))))) h

end

end Sys2Proof.Machine
end

section
/-! SUPPORT. Memory's canonical form under every event and every choice of the machine's own next step (R293, R395). -/

namespace Sys2Proof.Machine

section
variable {s : State}

/-! ## The events of the barrel, the memory system and the engines -/

theorem execPromotionRequest_formed {core} (h : s.Formed) : FormedOut (execPromotionRequest core s) :=
  State.Formed.foldl h (fun _ _ h => .ite h (.writeBackL1 h))

theorem execL1ParityError_formed {core line byte} (h : s.Formed) : FormedOut (execL1ParityError core line byte s) := by
  unfold execL1ParityError
  split
  · exact h
  · split
    · exact h
    · split
      · exact h
      · exact h

theorem execL2Eviction_formed {l2 line kid} (h : s.Formed) : FormedOut (execL2Eviction l2 line kid s) := by
  unfold execL2Eviction
  split
  · exact h
  · split
    · exact h
    · exact State.Formed.forgetWo (.dropL2 (.writeBackL2 h))

theorem execMemoryEccError_formed {unit symbols} (h : s.Formed) : FormedOut (execMemoryEccError unit symbols s) := by
  unfold execMemoryEccError
  split
  · exact h
  · split
    · exact State.Formed.garbleUnit h
    · split
      · exact h
      · exact State.Formed.ite h h

theorem execDirectoryEntryError_formed {entry bits trusted} (h : s.Formed) : FormedOut (execDirectoryEntryError entry bits trusted s) := by
  unfold execDirectoryEntryError
  split
  · exact h
  · split
    · exact h
    · split
      · exact h
      · exact h

theorem execPartialIdleTimeout_formed {l2 line kid} (h : s.Formed) : FormedOut (execPartialIdleTimeout l2 line kid s) := by
  unfold execPartialIdleTimeout
  split
  · exact h
  · exact h

theorem execMxvSegmentComplete_formed {id} (h : s.Formed) : FormedOut (execMxvSegmentComplete id s) := by
  unfold execMxvSegmentComplete
  split
  · exact .getD (State.mxvStep_formed h) h
  · exact h

theorem execPageWalk_formed {bid page} (h : s.Formed) : FormedOut (execPageWalk bid page s) := by
  unfold execPageWalk
  extract_lets ranges
  split
  · split
    · exact State.Formed.translate h
    · exact h
  · exact h

theorem execIdivIremCompletion_formed {bid i seq} (h : s.Formed) : FormedOut (execIdivIremCompletion bid i seq s) := by
  unfold execIdivIremCompletion
  split
  · exact State.Formed.endOp h
  · exact h

/-! ## The machine's choice of its next step -/

namespace State

theorem firstStep_formed {α : Type} {l : List α} {go : Nat → Option State} (hg : ∀ n, FormedOpt (go n)) : FormedOpt (firstStep l go) :=
  .firstSome (fun n _ => hg n)

theorem memoryStep_formed (h : s.Formed) : FormedOpt s.memoryStep :=
  .firstSome (by
    simp only [List.forall_mem_cons, List.not_mem_nil, false_implies, implies_true, and_true]
    exact ⟨firstStep_formed (fun _ => dirAck_formed h), firstStep_formed (fun _ => dirRecall_formed h), firstStep_formed (fun _ => dirRequest_formed h),
      firstStep_formed (fun _ => l2Receive_formed h), firstStep_formed (fun _ => atomNth_formed h), firstStep_formed (fun _ => foldNth_formed h),
      firstStep_formed (fun _ => foldPart_formed h)⟩)

theorem sliceStep_formed {bid i} (h : s.Formed) : FormedOpt (s.sliceStep bid i) :=
  .firstSome (fun _ _ => .ite (Formed.endOp h) (mopStep_formed h))

theorem blockStep_formed {b} (h : s.Formed) : FormedOpt (s.blockStep b) := by
  unfold State.blockStep
  refine .ite trivial ?_
  split
  next heq => exact Formed.of_some heq (.firstSome (fun _ _ => sliceStep_formed h))
  · exact regDeadlock_formed h

theorem engineStep_formed (h : s.Formed) : FormedOpt s.engineStep :=
  .firstSome (by
    simp only [List.forall_mem_cons, List.not_mem_nil, false_implies, implies_true, and_true]
    exact ⟨.firstSome (fun _ _ => loomStep_formed h), .firstSome (fun _ _ => mxvStep_formed h), .firstSome (fun _ _ => drayStep_formed h),
      .firstSome (fun _ _ => surveyorStep_formed h), .firstSome (fun _ _ => crierStep_formed h), .firstSome (fun _ _ => cmdAdvance_formed h)⟩)

theorem placeStep_formed {p} (h : s.Formed) : FormedOpt (s.placeStep p) := .map (fun _ => Formed.placeCand h)

theorem foremanStep_formed (h : s.Formed) : FormedOpt s.foremanStep :=
  .firstSome (by
    simp only [List.forall_mem_cons, List.not_mem_nil, false_implies, implies_true, and_true]
    exact ⟨.firstSome (fun _ _ => blockStopStep_formed h), .firstSome (fun _ _ => blockSave_formed h), firstStep_formed (fun _ => recWrite_formed h),
      .firstSome (fun _ _ => blockRetire_formed h), .firstSome (fun _ _ => gridRetire_formed h), .firstSome (fun _ _ => queueAccept_formed h),
      .firstSome (fun _ _ => detStart_formed h), .firstSome (fun _ _ => placeStep_formed h), coreGrant_formed h,
      .firstSome (fun _ _ => watchdog_formed h)⟩)

theorem workStep_formed (h : s.Formed) : FormedOpt s.workStep :=
  .firstSome (by
    simp only [List.forall_mem_cons, List.not_mem_nil, false_implies, implies_true, and_true]
    exact ⟨memoryStep_formed h, .firstSome (fun _ _ => blockStep_formed h), engineStep_formed h, idlePartials_formed h, commandStep_formed h,
      platformStep_formed h, foremanStep_formed h, barrelStep_formed h, idlePartials_formed h⟩)

theorem idleStep_formed (h : s.Formed) : s.idleStep.Formed := (workStep_formed h).getD h

end State

end

end Sys2Proof.Machine
end

section
/-! SUPPORT. Memory's canonical form under every step: the instructions, the events and the machine's own steps. -/

namespace Sys2Proof.Machine

section
variable {s : State}

/-- Every event keeps memory's canonical form. -/
theorem exec_event_formed {i : Instr} (hi : i.fields = none) (h : s.Formed) : FormedOut (exec i s) := by
  cases i
  case slotVisit a b => exact (.getD (State.visitSlot_formed h) h : FormedOut (execSlotVisit a b s))
  case rotationEnd a b => exact (.getD (State.endRotation_formed h) h : FormedOut (execRotationEnd a b s))
  case regDeadlockDetect a => exact (.getD (State.regDeadlock_formed h) h : FormedOut (execRegDeadlockDetect a s))
  case memoryOpComplete a b c => exact (.getD (State.opStep_formed h) h : FormedOut (execMemoryOpComplete a b c s))
  case promotionRequest a => exact (execPromotionRequest_formed h : FormedOut (execPromotionRequest a s))
  case l1Eviction a b => exact (State.Formed.flushL1 h : FormedOut (execL1Eviction a b s))
  case l1ParityError a b c => exact (execL1ParityError_formed h : FormedOut (execL1ParityError a b c s))
  case l2WriteReceive a => exact (.getD (State.l2Receive_formed h) h : FormedOut (execL2WriteReceive a s))
  case l2Eviction a b c => exact (execL2Eviction_formed h : FormedOut (execL2Eviction a b c s))
  case memoryEccError a b => exact (execMemoryEccError_formed h : FormedOut (execMemoryEccError a b s))
  case directoryRequest a => exact (.getD (State.dirRequest_formed h) h : FormedOut (execDirectoryRequest a s))
  case recallInvalidationReceive a => exact (.getD (State.dirRecall_formed h) h : FormedOut (execRecallInvalidationReceive a s))
  case directoryAckReceive a => exact (.getD (State.dirAck_formed h) h : FormedOut (execDirectoryAckReceive a s))
  case directoryQuietTick => exact (h : FormedOut (execDirectoryQuietTick s))
  case directoryEntryError a b c => exact (execDirectoryEntryError_formed h : FormedOut (execDirectoryEntryError a b c s))
  case flitRetry a b => exact (execFlitRetry_formed h : FormedOut (execFlitRetry a b s))
  case atomicPerform a => exact (.getD (State.atomNth_formed h) h : FormedOut (execAtomicPerform a s))
  case reductionAddendFold a => exact (.getD (State.foldNth_formed h) h : FormedOut (execReductionAddendFold a s))
  case partialIdleTimeout a b c => exact (execPartialIdleTimeout_formed h : FormedOut (execPartialIdleTimeout a b c s))
  case partialFold a => exact (.getD (State.foldPart_formed h) h : FormedOut (execPartialFold a s))
  case loomAccept a => exact (.getD (State.loomAccept_formed h) h : FormedOut (execLoomAccept a s))
  case metadataGrant a => exact (.getD (State.metaGrant_formed h) h : FormedOut (execMetadataGrant a s))
  case loomOperationComplete a => exact (.getD (State.loomComplete_formed h) h : FormedOut (execLoomOperationComplete a s))
  case drainStoreComplete a => exact (.getD (State.drainStep_formed h) h : FormedOut (execDrainStoreComplete a s))
  case mxvSegmentComplete a => exact (execMxvSegmentComplete_formed h : FormedOut (execMxvSegmentComplete a s))
  case millBlockForward a b c => exact (.getD (State.millForward_formed h) h : FormedOut (execMillBlockForward a b c s))
  case drayCommandStart a => exact (.getD (State.drayStart_formed h) h : FormedOut (execDrayCommandStart a s))
  case drayChunkComplete a b => exact (.getD (State.drayChunk_formed h) h : FormedOut (execDrayChunkComplete a b s))
  case engineCommandComplete a => exact (.getD (State.cmdAdvance_formed h) h : FormedOut (execEngineCommandComplete a s))
  case surveyorCommandStart a => exact (.getD (State.surveyorStart_formed h) h : FormedOut (execSurveyorCommandStart a s))
  case surveyorBatchComplete a => exact (.getD (State.surveyorBatch_formed h) h : FormedOut (execSurveyorBatchComplete a s))
  case subscriptionAccept a b => exact (.getD (State.subAccept_formed h) h : FormedOut (execSubscriptionAccept a b s))
  case crierPageFetch a => exact (.getD (State.pageFetch_formed h) h : FormedOut (execCrierPageFetch a s))
  case pageDelivery a b => exact (.getD (State.pageDeliver_formed h) h : FormedOut (execPageDelivery a b s))
  case mergeFold a b => exact (.getD (State.foldNext_formed h) h : FormedOut (execMergeFold a b s))
  case pageWalk a b => exact (execPageWalk_formed h : FormedOut (execPageWalk a b s))
  case queueEntryAccept a => exact (.getD (State.queueAccept_formed h) h : FormedOut (execQueueEntryAccept a s))
  case coreGrantDecision => exact (.getD (State.coreGrant_formed h) h : FormedOut (execCoreGrantDecision s))
  case detGridStart a => exact (.getD (State.detStart_formed h) h : FormedOut (execDetGridStart a s))
  case blockAdmission a => exact (.getD (State.blockAdmit_formed h) h : FormedOut (execBlockAdmission a s))
  case blockRetire a => exact (.getD (State.blockRetire_formed h) h : FormedOut (execBlockRetire a s))
  case gridRetire a => exact (.getD (State.gridRetire_formed h) h : FormedOut (execGridRetire a s))
  case blockStop a => exact (.getD (State.blockStopStep_formed h) h : FormedOut (execBlockStop a s))
  case blockSave a => exact (.getD (State.blockSave_formed h) h : FormedOut (execBlockSave a s))
  case trapRecordWrite a => exact (.getD (State.recWrite_formed h) h : FormedOut (execTrapRecordWrite a s))
  case blockRestore a b => exact (.getD (State.blockRestore_formed h) h : FormedOut (execBlockRestore a b s))
  case watchdogExpiry a => exact (.getD (State.watchdog_formed h) h : FormedOut (execWatchdogExpiry a s))
  case queueDoorbell a b => exact (State.whilePowered_formed (.queueDoorbell h) h : FormedOut (execQueueDoorbell a b s))
  case queueRingSetup a b c => exact (State.whilePowered_formed (.modHost (.modQueue h)) h : FormedOut (execQueueRingSetup a b c s))
  case commandDoorbell a => exact (State.whilePowered_formed (.modHost h) h : FormedOut (execCommandDoorbell a s))
  case commandRingSetup a b => exact (State.whilePowered_formed h h : FormedOut (execCommandRingSetup a b s))
  case registerWrite a b c => exact (State.whilePowered_formed (.registerWrite h) h : FormedOut (execRegisterWrite a b c s))
  case cmdShootdown => exact (.getD (State.cmdShootdown_formed h) h : FormedOut (execCmdShootdown s))
  case cmdResume => exact (.getD (State.cmdResume_formed h) h : FormedOut (execCmdResume s))
  case cmdPartition => exact (.getD (State.cmdPartition_formed h) h : FormedOut (execCmdPartition s))
  case cmdAttributeTable => exact (.getD (State.cmdAttributeTable_formed h) h : FormedOut (execCmdAttributeTable s))
  case cmdLoadKey => exact (.getD (State.cmdLoadKey_formed h) h : FormedOut (execCmdLoadKey s))
  case cmdRetireKey => exact (.getD (State.cmdRetireKey_formed h) h : FormedOut (execCmdRetireKey s))
  case cmdOpenWindow => exact (.getD (State.cmdOpenWindow_formed h) h : FormedOut (execCmdOpenWindow s))
  case cmdCloseWindow => exact (.getD (State.cmdCloseWindow_formed h) h : FormedOut (execCmdCloseWindow s))
  case cmdResetPartition => exact (.getD (State.cmdResetPartition_formed h) h : FormedOut (execCmdResetPartition s))
  case cmdPreempt => exact (.getD (State.cmdPreempt_formed h) h : FormedOut (execCmdPreempt s))
  case cmdClearTrapLog => exact (.getD (State.cmdClearTrapLog_formed h) h : FormedOut (execCmdClearTrapLog s))
  case cmdReserved => exact (.getD (State.cmdReserved_formed h) h : FormedOut (execCmdReserved s))
  case vfFunctionLevelReset a => exact (State.whilePowered_formed (.ite (.resetPartition h) h) h : FormedOut (execVfFunctionLevelReset a s))
  case hostBar2Access a b c d e => exact (execHostBar2Access_formed h : FormedOut (execHostBar2Access a b c d e s))
  case powerOn => exact (execPowerOn_formed h : FormedOut (execPowerOn s))
  case firmwareGo => exact (execFirmwareGo_formed h : FormedOut (execFirmwareGo s))
  case memoryTraining a => exact (execMemoryTraining_formed h : FormedOut (execMemoryTraining a s))
  case attestationGo a => exact (execAttestationGo_formed h : FormedOut (execAttestationGo a s))
  case stepcapWrite a => exact (State.whilePowered_formed (.modHost h) h : FormedOut (execStepcapWrite a s))
  case throttleStepDown => exact (State.whilePowered_formed ((State.throttleDown_formed h).getD h) h : FormedOut (execThrottleStepDown s))
  case throttleStepUp => exact (State.whilePowered_formed ((State.throttleUp_formed h).getD h) h : FormedOut (execThrottleStepUp s))
  case thermalCritical => exact (State.whilePowered_formed ((State.thermalCritical_formed h).getD h) h : FormedOut (execThermalCritical s))
  case pwrfailN => exact (State.whilePowered_formed (.modHost h) h : FormedOut (execPwrfailN s))
  case peerRequestTimeout a => exact (State.whilePowered_formed (.linkDown h) h : FormedOut (execPeerRequestTimeout a s))
  case peerResetSignal a => exact (State.whilePowered_formed (.linkDown h) h : FormedOut (execPeerResetSignal a s))
  case peerLinkRetrain a => exact (execPeerLinkRetrain_formed h : FormedOut (execPeerLinkRetrain a s))
  case peerIncomingRequest a b c d e => exact (execPeerIncomingRequest_formed h : FormedOut (execPeerIncomingRequest a b c d e s))
  case idivIremCompletion a b c => exact (execIdivIremCompletion_formed h : FormedOut (execIdivIremCompletion a b c s))
  case l3Eviction a b => exact (State.Formed.evictL3 h : FormedOut (execL3Eviction a b s))
  case operandBufferLineEntry a => exact (.getD (State.lineEntry_formed h) h : FormedOut (execOperandBufferLineEntry a s))
  case powerLoss a => exact (execPowerLoss_formed h : FormedOut (execPowerLoss a s))
  case softError a b c => exact (execSoftError_formed h : FormedOut (execSoftError a b c s))
  case sensorReading a b => exact (State.whilePowered_formed (.modHost h) h : FormedOut (execSensorReading a b s))
  all_goals cases hi

theorem exec_formed {i : Instr} (h : s.Formed) : FormedOut (exec i s) := by
  cases hi : i.fields with
  | none => exact exec_event_formed hi h
  | some kf => exact exec_instr_formed hi h

theorem step_formed (h : s.Formed) : FormedOut (step s) := by
  unfold step
  split
  next v _ =>
    have ht := State.turn_formed (v := v) h
    split
    next heq => exact (heq ▸ ht :)
    next heq => exact exec_formed (heq ▸ ht :)
  · split
    · exact exec_formed h
    · exact State.idleStep_formed h

end

end Sys2Proof.Machine
end

section
open Sys2Proof Sys2Proof.Machine in
/-- Settles O60: each operation that a step is made of leaves memory, writes it with `mputs`, which keeps the canonical form, or clears it whole at a power
loss. -/
theorem memoryKeepsItsForm : Obligations.MemoryKeepsItsForm := by
  unfold Obligations.MemoryKeepsItsForm
  intro s t h ht
  have hs := step_formed (s := s) h
  rw [ht] at hs
  exact hs
end

section
/-! SUPPORT. What the events of the host and the platform come to on the branch that their conditions choose (R330, R335, R396;
spec/16_host_and_platform.md). -/

namespace Sys2Proof.Machine

section
variable {s : State}

/-- An event of a powered device happens. -/
theorem State.whilePowered_on {f : State → State} (hp : s.host.powered = true) : s.whilePowered f = .next (f s) := congrArg _ (if_pos hp)

theorem State.whilePowered_next {f : State → State} {t : State} (hp : s.host.powered = true) (h : f s = t) : s.whilePowered f = .next t :=
  (State.whilePowered_on hp).trans (congrArg _ h)

/-! ## The commands of the ring (R403) -/

/-- The command at the head of the ring is posted, has the opcode and is well formed. -/
structure State.Posts (s : State) (op : Nat) : Prop where
  posted : s.cmdPosted = true
  opcode : field s.cmdEntry 0x20 1 = op
  ok : entryOk op s.cmdEntry = true

section
variable {op : Nat} {ops : Nat → Bool} {f : State → List Byte → CmdEnd}

theorem State.Posts.waits (h : s.Posts op) (ho : ops op = true) {r : Option State} (hf : f s s.cmdEntry = .wait r) : s.command ops f = r := by
  obtain ⟨hp, hop, hok⟩ := h
  simp only [State.command, hp, hop, ho, hok, hf, Bool.true_eq_false, if_false]

theorem State.Posts.completes (h : s.Posts op) (ho : ops op = true) {s1 : State} (hf : f s s.cmdEntry = .done s1) :
    s.command ops f = some (s1.cmdEnd 1 0) := by
  obtain ⟨hp, hop, hok⟩ := h
  simp only [State.command, hp, hop, ho, hok, hf, Bool.true_eq_false, if_false]

theorem State.Posts.isRefused (h : s.Posts op) (ho : ops op = true) {s1 : State} {rsn : Nat} (hf : f s s.cmdEntry = .refused s1 rsn) :
    s.command ops f = some (s1.cmdRefused op rsn) := by
  obtain ⟨hp, hop, hok⟩ := h
  simp only [State.command, hp, hop, ho, hok, hf, Bool.true_eq_false, if_false]

/-- A command other than CMD_SHOOTDOWN that is refused is answered with status 2 and its reason. -/
theorem State.Posts.refuses (h : s.Posts op) (ho : ops op = true) (h1 : op ≠ 1) {rsn : Nat} (hf : f s s.cmdEntry = .refused s rsn) :
    s.command ops f = some (s.cmdEnd 2 rsn) := by
  simp only [h.isRefused ho hf, State.cmdRefused, if_neg h1]

end

/-- A body of CMD_SHOOTDOWN names a range of whole pages in the address space, and no reserved option. -/
def ShootsRange (l : List Byte) : Prop :=
  field l 0x10 8 < 2 ^ 7 ∧ field l 8 8 ≠ 0 ∧ field l 8 8 % 65536 = 0 ∧ field l 0 8 % 65536 = 0 ∧ field l 0 8 + field l 8 8 ≤ 2 ^ 52

theorem ShootsRange.check {l : List Byte} (h : ShootsRange l) : ¬(decide (2 ^ 7 ≤ field l 0x10 8) || decide (field l 8 8 = 0) ||
    field l 8 8 % 65536 != 0 || field l 0 8 % 65536 != 0 || decide (2 ^ 52 < field l 0 8 + field l 8 8)) = true := by
  obtain ⟨hc, hn, hlen, hvb, hend⟩ := h
  simp only [Bool.or_eq_true, decide_eq_true_eq, bne_iff_ne]
  omega

theorem State.shootdown_badRange {l : List Byte} (h : field l 8 8 = 0 ∨ field l 8 8 % 65536 ≠ 0 ∨ field l 0 8 % 65536 ≠ 0 ∨
    2 ^ 52 < field l 0 8 + field l 8 8 ∨ 2 ^ 7 ≤ field l 0x10 8) : s.shootdown l = .refused s 0x02 := by
  refine if_pos ?_
  simp only [Bool.or_eq_true, decide_eq_true_eq, bne_iff_ne]
  omega

/-- The first step holds new accesses to the range. -/
theorem State.shootdown_holds {l : List Byte} (h : ShootsRange l)
    (hs : s.shooting ≠ some (field l 0 8 / 65536, field l 8 8 / 65536, field l 0x10 8)) :
    s.shootdown l = .wait (some { s with shooting := some (field l 0 8 / 65536, field l 8 8 / 65536, field l 0x10 8) }) :=
  (if_neg h.check).trans (if_pos hs)

/-- The last step: no line of the L1s is to be given back, and no access to the frames is under way. -/
theorem State.shootdown_ends {l : List Byte} (h : ShootsRange l)
    (hs : s.shooting = some (field l 0 8 / 65536, field l 8 8 / 65536, field l 0x10 8)) :
    let c := field l 0x10 8
    let lo := field l 0 8 / 65536
    let n := field l 8 8 / 65536
    let fr := s.rangeFrames (shootsPart c) lo n
    s.cores.any (fun k => k.l1.any (fun x => fr.contains (128 * x.line / 65536) && (x.dirty != 0 || bitOf c 5))) = false →
    s.underWay (fun pa _ => fr.contains (pa / 65536)) = false →
    let s1 := ((s.rangeCaches c fr (s.rangeOpen (shootsPart c) lo n)).discardExtents (fun b e => shootsPart c b.part && e.meetsPages lo n)).discardFetch
      (fun t => shootsPart c t.part && decide (lo ≤ t.page) && decide (t.page < lo + n))
    s.shootdown l = .done (({ s1 with walkCache := [], dlost := 0 } : State).cmdWrite 0x18 (bytesOf 8 (1 + 2 ^ 8 * min s1.dlost (2 ^ 32 - 1)))) := by
  intro c lo n fr hl hu s1
  refine (if_neg h.check).trans ((if_neg (not_not_intro hs)).trans ((if_neg ?_).trans (if_neg ?_)))
  · exact Bool.eq_false_iff.1 hl
  · exact Bool.eq_false_iff.1 hu

theorem State.resume_noFrame {l : List Byte}
    (h : s.blocks.find? (fun b => decide (b.loc = .saved) && b.part == bitsOf (field l 8 8) 3 0 && b.cfa == field l 0 8) = none) :
    s.resume l = .refused s 0x04 := by
  simp only [State.resume, h]

/-- The block saved in the frame that the body of a CMD_RESUME names. -/
theorem State.resume_frame {l : List Byte} {b : Block}
    (h : s.blocks.find? (fun b => decide (b.loc = .saved) && b.part == bitsOf (field l 8 8) 3 0 && b.cfa == field l 0 8) = some b)
    (hr : b.resume = false) : s.resume l = if 2 ≤ s.frameDisp b ∨ s.frameRefused b = true then .done (s.endGrid b.gid)
      else .done ((s.loadFrame b.bid).modBlk b.bid (fun y => y.resumeDisp (s.frameDisp b))) := by
  simp only [State.resume, h, hr, Bool.false_eq_true, if_false]

/-- The first step puts the identifier under retirement. -/
theorem State.retireKey_begins {l : List Byte} (hk : s.keys.any (fun e => e.1 == bitsOf (field l 0 8) 5 0) = true)
    (hr : s.retiring ≠ some (bitsOf (field l 0 8) 5 0)) :
    s.retireKey l = .wait (some { s.discardFetch (fun t => t.kid == bitsOf (field l 0 8) 5 0) with retiring := some (bitsOf (field l 0 8) 5 0) }) :=
  (if_neg (by rw [hk]; decide)).trans (if_pos hr)

/-- The last step forgets the key and the directory's entries under it. -/
theorem State.retireKey_ends {l : List Byte} : let k := bitsOf (field l 0 8) 5 0
    s.keys.any (fun e => e.1 == k) = true → s.retiring = some k → s.underWay (fun _ kid => kid == k) = false → (∀ r ∈ s.dirQ, r.kid ≠ k) →
    (∀ m ∈ s.recQ ++ s.ackQ, m.kid ≠ k) →
    ∃ u : State, s.retireKey l = .done u ∧ u.keys.any (fun e => e.1 == k) = false ∧ (∀ e ∈ u.dir, e.kid ≠ k) ∧ u.retiring = none := by
  intro k hk hr hu hd hm
  have hq : ¬(s.underWay (fun _ kid => kid == k) || s.dirQ.any (fun r => r.kid == k) || s.recQ.any (fun r => r.kid == k) ||
      s.ackQ.any (fun r => r.kid == k)) = true := by
    simp only [List.mem_append] at hm
    simp only [hu, Bool.false_or, Bool.or_eq_true, List.any_eq_true, beq_iff_eq]
    rintro ((⟨r, hr, he⟩ | ⟨r, hr, he⟩) | ⟨r, hr, he⟩)
    · exact hd r hr he
    · exact hm r (.inl hr) he
    · exact hm r (.inr hr) he
  unfold State.retireKey
  extract_lets
  refine ⟨_, (if_neg (by rw [hk]; decide)).trans ((if_neg (not_not_intro hr)).trans (if_neg hq)), ?_, ?_, rfl⟩
  · simp
  · simp

theorem State.openWindow_linkNotUp {l : List Byte} (hb : field l 8 8 % 2 ^ 30 = 0) (hl : field l 0x10 8 % 2 ^ 30 = 0) (he : field l 0x10 8 ≤ 2 ^ 40)
    (hlink : (s.host.links[bitsOf (field l 0 8) 5 4]?).getD 0 ≠ 2) : s.openWindow l = .refused s 0x03 := by
  have hr : ¬(field l 8 8 % 2 ^ 30 ≠ 0 ∨ field l 0x10 8 % 2 ^ 30 ≠ 0 ∨ 2 ^ 40 < field l 0x10 8) := by omega
  exact (if_neg hr).trans (if_pos (.inl hlink))

theorem State.openWindow_opens {l : List Byte} (hb : field l 8 8 % 2 ^ 30 = 0) (hl : field l 0x10 8 % 2 ^ 30 = 0) (he : field l 0x10 8 ≤ 2 ^ 40)
    (hlink : (s.host.links[bitsOf (field l 0 8) 5 4]?).getD 0 = 2)
    (hw : ((s.windows[bitsOf (field l 0 8) 3 0]?).getD Window.closed).opened = false) :
    s.openWindow l = .done { s with windows := updAt (fun _ =>
      { opened := true, link := bitsOf (field l 0 8) 5 4, base := field l 8 8, len := field l 0x10 8, down := false }) (bitsOf (field l 0 8) 3 0) s.windows } := by
  have hr : ¬(field l 8 8 % 2 ^ 30 ≠ 0 ∨ field l 0x10 8 % 2 ^ 30 ≠ 0 ∨ 2 ^ 40 < field l 0x10 8) := by omega
  exact (if_neg hr).trans (if_neg (not_or.2 ⟨not_not_intro hlink, Bool.eq_false_iff.1 hw⟩))

theorem State.preemptCore_stops {l : List Byte} (h : s.host.saving = none) :
    let bs := s.residents (bitsOf (field l 0 8) 4 0)
    s.preemptCore l = .wait (some ((bs.foldl (fun s b => s.preempt b.bid) s).modHost (fun h => { h with saving := some (bs.map (fun b => b.bid)) }))) := by
  simp only [State.preemptCore, h]

theorem State.preemptCore_ends {l : List Byte} {bids : List Nat} (h : s.host.saving = some bids)
    (hb : ∀ b ∈ s.blocks, b.bid ∈ bids → b.loc = .saved ∨ b.stop = none) : s.preemptCore l = .done (s.modHost (fun h => { h with saving := none })) := by
  simp only [State.preemptCore, h]
  refine if_neg ?_
  simp only [List.any_eq_true, Bool.and_eq_true, List.contains_iff_mem, decide_eq_true_eq, not_exists, not_and]
  rintro b hm ⟨hc, hl⟩
  rcases hb b hm hc with hs | hs
  · exact absurd hs hl
  · simp [hs]

theorem State.resetCmd_waits {p : Nat} (hb : (s.resetPartition p).blocks.any (fun b => b.part == p) = true) : s.resetCmd p = .wait none := if_pos hb

theorem State.resetCmd_ends {p : Nat} (hb : (s.resetPartition p).blocks.any (fun b => b.part == p) = false) :
    s.resetCmd p = .done (((s.resetPartition p).grids.filter (fun g => g.lr.part == p)).foldl (fun s g => (s.gridRetire g.gid).getD s)
      (s.resetPartition p)) := if_neg (Bool.eq_false_iff.1 hb)

/-- The first step ends the partition's grids. -/
theorem State.cmdResetPartition_stops (h : s.Posts 9) : let p := bitsOf (field s.cmdEntry 0 8) 3 0
    (s.resetPartition p).blocks.any (fun b => b.part == p) = true → s.grids.any (fun g => g.lr.part == p && !g.ended) = true →
    s.cmdResetPartition = some (s.resetPartition p) := by
  intro p hb hg
  refine h.waits rfl ?_
  dsimp only
  rw [State.resetCmd_waits hb]
  exact congrArg CmdEnd.wait (if_pos hg)

theorem State.cmdResetPartition_ends (h : s.Posts 9) : let p := bitsOf (field s.cmdEntry 0 8) 3 0
    let s1 := s.resetPartition p
    s1.blocks.any (fun b => b.part == p) = false →
    s.cmdResetPartition = some (((s1.grids.filter (fun g => g.lr.part == p)).foldl (fun s g => (s.gridRetire g.gid).getD s) s1).cmdEnd 1 0) := by
  intro p s1 hb
  refine h.completes rfl ?_
  dsimp only
  rw [State.resetCmd_ends hb]

/-! ## The peers' links and requests (R404, R405) -/

/-- A link that goes down takes the open windows on it down. -/
theorem State.linkDown_windows {link : Nat} (hl : (s.host.links[link]?).getD 0 ≠ 0) :
    (s.linkDown link).windows = s.windows.map (fun (w : Window) => if w.opened = true ∧ w.link = link then { w with down := true } else w) := by
  unfold State.linkDown
  rw [if_neg hl]
  exact (Laws.discardExtents_windows _ _).1

theorem execPeerIncomingRequest_goes {pa kid len data : Nat} {req : PeerReq} (hp : s.host.powered = true) (hr : s.retiring ≠ some kid) :
    execPeerIncomingRequest pa kid len req data s = .next (s.peerRequest pa kid len req data) := State.whilePowered_next hp (if_neg hr)

end

end Sys2Proof.Machine
end

section
/-! SUPPORT. The host's rings and registers, its memory accesses and the platform's events, on the branch that their conditions choose (R399, R402,
R403, R406, R408). -/

namespace Sys2Proof.Machine

section
variable {s : State}

/-! ## Rings and registers (R402, R403) -/

theorem Ring.doorbell_tooFar {r : Ring} {t : Nat} (h : r.size < (t + 2 ^ 32 - r.head) % 2 ^ 32) :
    r.doorbell t = { r with err := if bitOf r.err 0 then r.err else r.err + 1 } := if_pos h

theorem Ring.doorbell_fits {r : Ring} {t : Nat} (h : (t + 2 ^ 32 - r.head) % 2 ^ 32 ≤ r.size) : r.doorbell t = { r with tail := t } :=
  if_neg (Nat.not_lt.2 h)

theorem State.queueDoorbell_tooFar {q tail : Nat} (hq : q < 64) (ht : tail < 2 ^ 32) (hn : (s.queueRing q).tail ≠ tail)
    (hr : (s.queueRing q).size < (tail + 2 ^ 32 - (s.queueRing q).head) % 2 ^ 32) : let r := s.queueRing q
    s.queueDoorbell q tail = s.modQueue q (fun _ => { r with err := if bitOf r.err 0 then r.err else r.err + 1 }) := by
  intro r
  simp only [State.queueDoorbell, Nat.mod_eq_of_lt hq, Nat.mod_eq_of_lt ht, Ring.doorbell_tooFar hr]
  exact if_pos hn

theorem State.queueDoorbell_pages {q tail : Nat} (hq : q < 64) (ht : tail < 2 ^ 32)
    (hr : (tail + 2 ^ 32 - (s.queueRing q).head) % 2 ^ 32 ≤ (s.queueRing q).size) :
    (s.queueDoorbell q tail).host.pages = (s.modQueue q (fun _ => { s.queueRing q with tail := tail })).host.pages := by
  simp only [State.queueDoorbell, Nat.mod_eq_of_lt hq, Nat.mod_eq_of_lt ht, Ring.doorbell_fits hr]
  split <;> rfl

/-- A register of a partition's page, written through the virtual function that has the page. -/
theorem State.registerWrite_page {p off value : Nat} (hp : p < 16) (hv : value < 2 ^ 32) :
    s.registerWrite (p + 1) off value = s.modPage p (fun y => y.regWrite off value) := by
  have h64 : value % 2 ^ 64 = value := Nat.mod_eq_of_lt (by omega)
  have hle : p + 1 ≤ 16 := hp
  simp only [State.registerWrite, h64, Nat.add_eq_zero_iff, one_ne_zero, and_false, if_false, if_pos hle, Nat.add_sub_cancel]

theorem PartPage.regWrite_trapHead {y : PartPage} {v : Nat} (hv : v < 2 ^ 32) : y.regWrite 0x10C v = { y with trap := { y.trap with head := v } } := by
  simpa [PartPage.regWrite, Ring.trapWrite] using hv

theorem PartPage.regWrite_trapSize {y : PartPage} {v : Nat} (hv : v < 2 ^ 32) :
    y.regWrite 0x108 v = { y with trap := { y.trap with size := v, head := 0, tail := 0, err := 0 } } := by
  simpa [PartPage.regWrite, Ring.trapWrite] using hv

/-! ## Reserved commands -/

/-- A reserved opcode is refused as such, whatever the body is. -/
theorem State.cmdReserved_refuses (hp : s.cmdPosted = true) (ho : field s.cmdEntry 0x20 1 = 0 ∨ 12 ≤ field s.cmdEntry 0x20 1) :
    s.cmdReserved = some (s.cmdEnd 2 0x01) := by
  have hops : (field s.cmdEntry 0x20 1 == 0 || decide (12 ≤ field s.cmdEntry 0x20 1)) = true := by simpa using ho
  have h1 : field s.cmdEntry 0x20 1 ≠ 1 := by omega
  simp only [State.cmdReserved, State.command, hp, hops, State.cmdRefused, if_neg h1, Bool.true_eq_false, if_false, ite_self]

/-! ## Memory accesses of a virtual function (R399) -/

theorem State.vfAccess_fails {p off len data : Nat} {w : Bool}
    (h : (∃ e, s.walkSpan p ((s.page p).vapb + off) len w = .error e) ∨
      ∃ ps n, s.walkSpan p ((s.page p).vapb + off) len w = .ok ps ∧ s.spanDown ps = some n) :
    s.vfAccess p off len w data = if w then s.apFailed p else (s.apFailed p).answered (allOnes len) := by
  unfold State.vfAccess
  rcases h with ⟨e, he⟩ | ⟨ps, n, hps, hd⟩
  · simp only [he]
  · simp only [hps, hd, Option.isSome_some, if_true]

theorem State.vfAccess_reaches {p off len data : Nat} {w : Bool} {ps : List (Nat × Nat × Leaf)}
    (h : s.walkSpan p ((s.page p).vapb + off) len w = .ok ps) (hd : s.spanDown ps = none) : let s1 := ps.foldl (fun s x => s.recallSpan x.1 x.2.1) s
    s.vfAccess p off len w data = if w then (s1.writeVirt p ((s.page p).vapb + off) (bytesOf len data)).toOption.getD s1
      else { s1.answered ((s1.readVirt p ((s.page p).vapb + off) len).toOption.getD []) with free := s1.free + 1 } := by
  intro s1
  simp only [State.vfAccess, h, hd, Option.isSome_none, Bool.false_eq_true, if_false]
  rfl

/-! ## The firmware image and the throttle (R406, R408) -/

theorem State.imageStep_fails {r : Nat} (h : s.host.fwst = 2) (hr : s.imageFailure = some r) :
    s.imageStep = some ((s.modHost (fun h => h.failed r h.fwch)).raiseMsi 0 0) := by
  simp only [State.imageStep, h, hr, ne_eq, not_true_eq_false, if_false]

theorem State.imageStep_passes (h : s.host.fwst = 2) (hr : s.imageFailure = none) : ∃ d,
    s.imageStep = some ((s.modHost (fun h => { h with fwst := 3, digest := d })).raiseMsi 0 0) := by
  refine ⟨bytesOf 64 (s.imageDigest (field (s.imageRead 0 64) 12 4)).toNat, ?_⟩
  simp only [State.imageStep, h, hr, ne_eq, not_true_eq_false, if_false]

theorem State.throttleDown_steps (hs : s.host.step < 5) (hm : s.mayStep = true)
    (hc : 105 * 256 ≤ s.host.temp ∨ 16 * 500 < s.host.pwr ∨ s.host.step < s.host.cap) : s.throttleDown =
      some ((s.stepTo (s.host.step + 1) none).modHost (fun h => { h with coolAt := if h.cool then some s.refTime else none })) := by
  refine if_pos ?_
  simp only [State.stepsDown, hm, Bool.and_true, Bool.and_eq_true, Bool.or_eq_true, decide_eq_true_eq]
  exact ⟨hs, or_assoc.2 hc⟩

theorem State.throttleUp_steps {t : Nat} (hs : 0 < s.host.step) (hc : s.host.cap < s.host.step) (hm : s.mayStep = true)
    (ht : s.host.coolAt = some t) (hd : t + 100000000 * nanosecond ≤ s.refTime) : s.throttleUp = some (s.stepTo (s.host.step - 1) s.host.coolAt) := by
  refine if_pos ?_
  simp only [State.stepsUp, hm, ht, Bool.and_true, Bool.and_eq_true, decide_eq_true_eq]
  exact ⟨⟨hs, hc⟩, hd⟩

end

end Sys2Proof.Machine
end

section
/-! The events of the host and the platform, assembled from the branches above. -/

open Sys2Proof Sys2Proof.Machine in
/-- Settles O20: under the conditions named, each event is the branch that they choose. -/
theorem hostEventsComplete : Obligations.HostEventsComplete := by
  unfold Obligations.HostEventsComplete
  refine ⟨?queueDoorbell, ?queueRing, ?commandDoorbell, ?commandRing, ?registers, ?shootdown, ?resume, ?partition, ?attributeTable, ?loadKey, ?retireKey,
    ?openWindow, ?closeWindow, ?resetPartition, ?preempt, ?clearLog, ?reserved, ?functionReset, ?bar2, ?powerOn, ?firmware, ?training, ?attestation,
    ?stepcap, ?stepDown, ?stepUp, ?critical, ?pwrfail, ?linkDown, ?retrain, ?waits, ?requests, ?flitRetry, ?powerLoss, ?softError, ?sensors⟩
  case queueDoorbell =>
    intro q tail s hp hq ht r
    have hx : execQueueDoorbell q tail s = .next (s.queueDoorbell q tail) := State.whilePowered_on hp
    exact ⟨fun hr hn => hx.trans (congrArg _ (State.queueDoorbell_tooFar hq ht hn hr)), fun hr => ⟨_, hx, State.queueDoorbell_pages hq ht hr⟩⟩
  case queueRing =>
    intro q base size s hp hq
    show execQueueRingSetup q base size s = _
    refine State.whilePowered_next hp ?_
    rw [Nat.mod_eq_of_lt hq]
    rfl
  case commandDoorbell =>
    intro tail s hp ht hr
    show execCommandDoorbell tail s = _
    refine State.whilePowered_next hp ?_
    simp only [State.modHost, Nat.mod_eq_of_lt ht, Ring.doorbell_fits hr]
  case commandRing => exact fun base size s hp => (State.whilePowered_on hp : execCommandRingSetup base size s = _)
  case registers =>
    intro value s hp hv
    have h32 : value % 2 ^ 32 = value := Nat.mod_eq_of_lt hv
    have h64 : value % 2 ^ 64 = value := Nat.mod_eq_of_lt (by omega)
    have hw (fn off : Nat) : execRegisterWrite fn off value s = .next (s.registerWrite fn off value) := State.whilePowered_on hp
    refine ⟨(hw ..).trans ?_, (hw ..).trans ?_, (hw ..).trans ?_, (hw ..).trans ?_, fun p hlt => ⟨(hw ..).trans ?_, (hw ..).trans ?_, (hw ..).trans ?_,
      (hw ..).trans ?_⟩⟩
    · simp only [State.registerWrite, h64, h32, if_true]
    · simp only [State.registerWrite, h64, h32, if_true]
      rfl
    · simp only [State.registerWrite, h64, h32, if_true]
      rfl
    · simp only [State.registerWrite, h64, h32, if_true]
      rfl
    · exact congrArg _ (State.registerWrite_page hlt hv)
    · exact congrArg _ (State.registerWrite_page hlt hv)
    · simp only [State.registerWrite_page hlt hv, PartPage.regWrite_trapHead hv]
    · simp only [State.registerWrite_page hlt hv, PartPage.regWrite_trapSize hv]
  case shootdown =>
    intro s hp ho hok l vb len c
    have h : s.Posts 1 := ⟨hp, ho, hok⟩
    refine ⟨fun hr => next_getD ?_, ?_⟩
    · exact h.isRefused rfl (State.shootdown_badRange hr)
    · intro hc hlen hpages hvb hend sel lo n
      have hr : ShootsRange l := ⟨hc, hlen, hpages, hvb, hend⟩
      exact ⟨fun hs => next_getD (h.waits rfl (State.shootdown_holds hr hs)),
        fun hs hl hu => next_getD (h.completes rfl (State.shootdown_ends hr hs hl hu))⟩
  case resume =>
    intro s hp ho hok l found
    have h : s.Posts 2 := ⟨hp, ho, hok⟩
    refine ⟨fun hf => next_getD (h.refuses rfl (by decide) (State.resume_noFrame hf)), fun b hf hr hd hn => ?_, fun b hf hr hd => ?_⟩
    · have hgo : ¬(2 ≤ s.frameDisp b ∨ s.frameRefused b = true) := not_or.2 ⟨Nat.not_le.2 hd, Bool.eq_false_iff.1 hn⟩
      exact next_getD (h.completes rfl ((State.resume_frame hf hr).trans (if_neg hgo)))
    · exact next_getD (h.completes rfl ((State.resume_frame hf hr).trans (if_pos hd)))
  case partition =>
    intro s hp ho hok l p w e total
    have h : s.Posts 3 := ⟨hp, ho, hok⟩
    refine ⟨fun hr => next_getD (h.refuses rfl (by decide) (if_pos hr)), fun hg hl ht hb hk => next_getD (h.completes rfl ?_)⟩
    have hr : ¬(e.limit < e.guar ∨ 32 < e.limit ∨ 32 < total) := by omega
    refine (if_neg hr).trans (if_neg ?_)
    simp [hb, hk]
  case attributeTable =>
    intro s hp ho hok ha
    have h : s.Posts 4 := ⟨hp, ho, hok⟩
    refine ⟨fun hb => next_getD (h.refuses rfl (by decide) ?_), fun hb => next_getD (h.completes rfl ?_)⟩
    · exact (if_neg (not_not_intro ha)).trans (if_pos (by simpa using hb))
    · exact (if_neg (not_not_intro ha)).trans (if_neg (by simpa using hb))
  case loadKey =>
    intro s hp ho hok k
    have h : s.Posts 5 := ⟨hp, ho, hok⟩
    refine ⟨fun hk => next_getD (h.refuses rfl (by decide) (if_pos hk)), fun hk => ⟨_, ?_, next_getD (h.completes rfl (if_neg (Bool.eq_false_iff.1 hk)))⟩⟩
    exact (List.length_map _).trans List.length_range
  case retireKey =>
    intro s hp ho hok k
    have h : s.Posts 6 := ⟨hp, ho, hok⟩
    refine ⟨fun hk => next_getD (h.refuses rfl (by decide) (if_pos (by rw [hk]; rfl))),
      fun hk hr => next_getD (h.waits rfl (State.retireKey_begins hk hr)), fun hk hr hu hd hm => ?_⟩
    obtain ⟨u, he, hu⟩ := State.retireKey_ends hk hr hu hd hm
    exact ⟨u, next_getD (h.completes rfl he), hu⟩
  case openWindow =>
    intro s hp ho hok l w link base len hb hl he
    have h : s.Posts 7 := ⟨hp, ho, hok⟩
    exact ⟨fun hlink => next_getD (h.refuses rfl (by decide) (State.openWindow_linkNotUp hb hl he hlink)),
      fun hlink hw => next_getD (h.completes rfl (State.openWindow_opens hb hl he hlink hw))⟩
  case closeWindow =>
    intro s hp ho hok w
    have h : s.Posts 8 := ⟨hp, ho, hok⟩
    refine ⟨fun hw => next_getD (h.refuses rfl (by decide) (if_pos (by rw [hw]; rfl))), fun hw hu => next_getD (h.completes rfl ?_)⟩
    exact (if_neg (by rw [hw]; decide)).trans (if_neg (Bool.eq_false_iff.1 hu))
  case resetPartition =>
    intro s hp ho hok p s1
    have h : s.Posts 9 := ⟨hp, ho, hok⟩
    refine ⟨fun hb => next_getD (State.cmdResetPartition_ends h hb), fun hb hg => next_getD (State.cmdResetPartition_stops h hb ?_)⟩
    obtain ⟨g, hm, hgp, he⟩ := hg
    exact List.any_eq_true.2 ⟨g, hm, by simp [hgp, he, p]⟩
  case preempt =>
    intro s hp ho hok bs
    have h : s.Posts 10 := ⟨hp, ho, hok⟩
    exact ⟨fun hs => next_getD (h.waits rfl (State.preemptCore_stops hs)), fun l hs hb => next_getD (h.completes rfl (State.preemptCore_ends hs hb))⟩
  case clearLog =>
    intro s hp ho hok
    have h : s.Posts 11 := ⟨hp, ho, hok⟩
    exact next_getD (h.completes rfl rfl)
  case reserved => exact fun s hp ho => next_getD (State.cmdReserved_refuses hp ho)
  case functionReset => exact fun vf s hp hv => (State.whilePowered_next hp (if_pos hv) : execVfFunctionLevelReset vf s = _)
  case bar2 =>
    intro off len data s hp
    have hx (fn : Nat) (w : Bool) : execHostBar2Access fn off len w data s = .next _ := State.whilePowered_on hp
    refine ⟨fun hl hf => ⟨?_, ?_⟩, ?_⟩
    · exact (hx ..).trans (congrArg _ ((if_pos hl).trans (if_neg hf)))
    · exact ⟨_, (hx ..).trans (congrArg _ ((if_pos hl).trans (if_neg hf))), rfl⟩
    · intro vf hv hl va folded counted
      have hvf (w : Bool) : execHostBar2Access (vf + 1) off len w data s = .next (s.vfAccess vf off len w data) :=
        (hx ..).trans (congrArg _ ((if_neg (Nat.succ_ne_zero vf)).trans (if_pos ⟨hv, hl⟩)))
      refine ⟨fun ps u hs hd hw => ?_, fun ps l hs hd hr => ⟨_, (hvf false).trans (congrArg _ (State.vfAccess_reaches hs hd)), ?_⟩, fun hs => ?_, fun hs => ?_⟩
      · refine (hvf true).trans (congrArg _ ((State.vfAccess_reaches hs hd).trans ?_))
        rw [if_pos rfl]
        exact congrArg (fun o => Option.getD (Except.toOption o) _) hw
      · exact congrArg (fun o => Option.getD (Except.toOption o) _) hr
      · exact (hvf true).trans (congrArg _ (State.vfAccess_fails hs))
      · exact (hvf false).trans (congrArg _ (State.vfAccess_fails hs))
  case powerOn =>
    intro s hp
    have hx : execPowerOn s = .next _ := congrArg Host.Outcome.next (if_neg (Bool.eq_false_iff.1 hp))
    refine ⟨_, hx, rfl, rfl, rfl, fun hn => ?_, fun i q hs => ?_⟩
    · simp only [hn]
    · simp only [hs]
  case firmware =>
    intro s hp
    have hx : execFirmwareGo s = .next _ := State.whilePowered_on hp
    refine ⟨fun hf => hx.trans (congrArg _ (if_pos hf)), fun hf => ?_⟩
    have hgo : execFirmwareGo s = .next (s.imageStep.getD s) := hx.trans (congrArg _ (if_neg (by rw [hf]; decide)))
    cases hi : s.imageFailure with
    | none =>
      obtain ⟨d, hd⟩ := State.imageStep_passes hf hi
      exact ⟨_, hgo.trans (next_getD hd), rfl, rfl, fun _ => rfl, nofun⟩
    | some r => exact ⟨_, hgo.trans (next_getD (State.imageStep_fails hf hi)), rfl, rfl, nofun, fun _ hr => by cases hr; rfl⟩
  case training =>
    intro s hp hf
    have hx (found : Training) : execMemoryTraining found s = .next _ := State.whilePowered_next hp (if_neg (not_not_intro hf))
    refine ⟨fun checks => hx { differs := [], checks := checks }, fun c checks hc => (hx _).trans ?_⟩
    simp only [List.filter_cons, decide_eq_true hc, if_true, List.filter_nil, leastBy, HostRegs.failed]
  case attestation =>
    intro n s hp hn
    dsimp only
    have hx : execAttestationGo n s = .next _ := State.whilePowered_on hp
    exact ⟨fun u hw => hx.trans (by simp only [hw]), fun e hw => hx.trans (by simp only [hw])⟩
  case stepcap =>
    intro value s hp hv
    have hx : execStepcapWrite value s = .next _ := State.whilePowered_on hp
    rw [Nat.mod_eq_of_lt hv] at hx
    exact hx
  case stepDown =>
    exact fun s hp hs hm hc => ⟨_, (State.whilePowered_on hp : execThrottleStepDown s = _).trans (next_getD (State.throttleDown_steps hs hm hc)), rfl, rfl, rfl⟩
  case stepUp =>
    exact fun t s hp hs hc hm ht hd => ⟨_, (State.whilePowered_on hp : execThrottleStepUp s = _).trans
      (next_getD (State.throttleUp_steps hs hc hm ht hd)), rfl, rfl, rfl⟩
  case critical => exact fun s hp hs ht hc => (State.whilePowered_on hp : execThermalCritical s = _).trans (next_getD (if_pos ⟨hs, ht, hc⟩))
  case pwrfail => exact fun s hp => (State.whilePowered_on hp : execPwrfailN s = _)
  case linkDown =>
    intro link s hp hl
    refine ⟨(State.whilePowered_on hp : execPeerRequestTimeout link s = _), (State.whilePowered_on hp : execPeerResetSignal link s = _),
      fun w hw ho hlink => ?_⟩
    rw [State.linkDown_windows hl, List.mem_map] at hw
    obtain ⟨x, -, rfl⟩ := hw
    by_cases hx : x.opened = true ∧ x.link = link
    · rw [if_pos hx]
    · rw [if_neg hx] at ho hlink
      exact absurd ⟨ho, hlink⟩ hx
  case retrain =>
    intro link s hp
    have hx : execPeerLinkRetrain link s = .next _ := State.whilePowered_on hp
    exact ⟨fun hl => hx.trans (congrArg _ (if_neg hl)), fun hl => hx.trans (congrArg _ (if_pos hl))⟩
  case waits => exact fun pa kid len data req s hp hr => (State.whilePowered_next hp (if_pos hr) : execPeerIncomingRequest pa kid len req data s = _)
  case requests =>
    intro pa kid len data s hp hr hk found
    have hgo : ¬(!s.keys.any (fun k => k.1 == kid)) = true := by simp [hk]
    have hx (req : PeerReq) := (execPeerIncomingRequest_goes (pa := pa) (len := len) (data := data) (req := req) hp hr).trans (congrArg _ (if_neg hgo))
    refine ⟨hx .write, ⟨_, hx .read, rfl⟩, fun a => hx (.cas a), fun ty op hlen => ?_, hx .add⟩
    subst hlen
    exact hx (.atomic ty op)
  case flitRetry =>
    intro n k s hp
    have hx : execFlitRetry n k s = .next _ := State.whilePowered_on hp
    refine ⟨fun hk => hx.trans (congrArg _ ((if_pos hk).trans ?_)),
      fun hk hn => hx.trans (congrArg _ ((if_neg (Nat.not_le.2 hk)).trans ((if_pos hn).trans ?_))),
      fun hk hn => hx.trans (congrArg _ ((if_neg (Nat.not_le.2 hk)).trans ((if_neg (Nat.not_lt.2 hn)).trans ?_)))⟩
    · rw [Nat.min_eq_left hk]
    · rw [Nat.min_eq_right hk.le]
    · rw [Nat.min_eq_right hk.le]
  case powerLoss => exact fun words s hp => ⟨_, (State.whilePowered_on hp : execPowerLoss words s = _), rfl, rfl, rfl, rfl⟩
  case softError =>
    intro n s hp
    have hx (store bits : Nat) : execSoftError store n bits s = .next _ := State.whilePowered_on hp
    refine ⟨fun store _ => (hx ..).trans (congrArg _ (if_pos (by decide))), fun bits hb => ?_⟩
    have h2 : ¬ bits < 2 := Nat.not_lt.2 hb
    exact ⟨(hx ..).trans (congrArg _ (if_neg h2)), (hx ..).trans (congrArg _ (if_neg h2)), (hx ..).trans (congrArg _ (if_neg h2)),
      (hx ..).trans (congrArg _ (if_neg h2))⟩
  case sensors =>
    intro temp power s hp hw
    refine ⟨_, (State.whilePowered_on hp : execSensorReading temp power s = _), rfl, ?_, rfl, rfl⟩
    exact Nat.min_eq_left (by omega)
end

section
/-! SUPPORT. A structure's fields read back from its bytes, and the bytes of a trap record and the codes of its causes (R7, R336, R337). -/

namespace Sys2Proof.Machine

/-! ## Fields of a run of bytes (R7) -/

theorem drop_bytesOf (o n x : Nat) : (bytesOf n x).drop o = bytesOf (n - o) (x / 2 ^ (8 * o)) := by
  induction o generalizing n x with
  | zero => simp
  | succ o ih =>
    cases n with
    | zero => simp [bytesOf]
    | succ n => rw [bytesOf, List.drop_succ_cons, ih, Nat.div_div_eq_div_mul, Nat.add_sub_add_right, Nat.mul_succ, Nat.pow_add, Nat.mul_comm]

theorem take_bytesOf {k n : Nat} (h : k ≤ n) (x : Nat) : (bytesOf n x).take k = bytesOf k x := by
  induction k generalizing n x with
  | zero => rfl
  | succ k ih =>
    obtain ⟨n, rfl⟩ := Nat.exists_eq_add_of_le' h
    rw [← Nat.add_assoc, bytesOf, List.take_succ_cons, ih (by omega), bytesOf]

theorem field_bytesOf {o k n : Nat} (h : o + k ≤ n) (x : Nat) : field (bytesOf n x) o k = x / 2 ^ (8 * o) % 2 ^ (8 * k) := by
  rw [field, drop_bytesOf, take_bytesOf (by omega), natOfBytes_bytesOf]

/-! ## Layouts -/

/-- The number that the bytes of a layout spell. -/
def layoutNat (l : List (Nat × Nat × Nat)) : Nat := sumNat (l.map (fun f => f.2.2 % 2 ^ (8 * f.2.1) * 2 ^ (8 * f.1)))

theorem layout_eq_bytesOf (n : Nat) (l : List (Nat × Nat × Nat)) : layout n l = bytesOf n (layoutNat l) := rfl

theorem layoutNat_cons (o k v : Nat) (l : List (Nat × Nat × Nat)) :
    layoutNat ((o, k, v) :: l) = v % 2 ^ (8 * k) * 2 ^ (8 * o) + layoutNat l := rfl

/-- The fields of a layout in ascending order between two offsets, none over another. -/
def Ascending : Nat → Nat → List (Nat × Nat × Nat) → Prop
  | a, n, [] => a ≤ n
  | a, n, (o, k, _) :: l => a ≤ o ∧ Ascending (o + k) n l

variable {a n o k v : Nat} {l : List (Nat × Nat × Nat)}

theorem Ascending.start_le_end (h : Ascending a n l) : a ≤ n := by
  induction l generalizing a with
  | nil => exact h
  | cons f l ih =>
    have := ih h.2
    have := h.1
    omega

theorem Ascending.field_bounds (h : Ascending a n l) (hf : (o, k, v) ∈ l) : a ≤ o ∧ o + k ≤ n := by
  induction l generalizing a with
  | nil => cases hf
  | cons f l ih =>
    obtain ⟨ho, hl⟩ := h
    rcases List.mem_cons.1 hf with rfl | hf
    · exact ⟨ho, hl.start_le_end⟩
    · obtain ⟨hlow, hhigh⟩ := ih hl hf
      exact ⟨by omega, hhigh⟩

/-- Nothing of a layout lies below its first field. -/
theorem Ascending.dvd_layoutNat (h : Ascending a n l) : 2 ^ (8 * a) ∣ layoutNat l := by
  induction l generalizing a with
  | nil => exact Nat.dvd_zero _
  | cons f l ih =>
    obtain ⟨o, k, v⟩ := f
    obtain ⟨ho, hl⟩ := h
    have hrest : 2 ^ (8 * a) ∣ layoutNat l := Nat.dvd_trans (Nat.pow_dvd_pow 2 (by omega)) (ih hl)
    exact Nat.dvd_add (Nat.dvd_mul_left_of_dvd (Nat.pow_dvd_pow 2 (by omega)) _) hrest

/-- Each field of a layout is the part of its number between the field's two ends: the fields above are multiples of the upper end's weight, and those
below do not reach the lower end's. -/
theorem Ascending.layoutNat_field (h : Ascending a n l) (hf : (o, k, v) ∈ l) : layoutNat l / 2 ^ (8 * o) % 2 ^ (8 * k) = v % 2 ^ (8 * k) := by
  induction l generalizing a with
  | nil => cases hf
  | cons f l ih =>
    obtain ⟨p, m, u⟩ := f
    obtain ⟨-, hl⟩ := h
    have hend : 2 ^ (8 * (p + m)) = 2 ^ (8 * p) * 2 ^ (8 * m) := by rw [Nat.mul_add, Nat.pow_add]
    obtain ⟨c, hc⟩ := hl.dvd_layoutNat
    rw [layoutNat_cons]
    rcases List.mem_cons.1 hf with heq | hf
    · cases heq
      rw [hc, hend, Nat.mul_assoc, Nat.mul_comm (v % _), ← Nat.mul_add, Nat.mul_div_cancel_left _ (Nat.two_pow_pos _), Nat.add_mul_mod_self_left,
        Nat.mod_mod]
    · have hbelow : u % 2 ^ (8 * m) * 2 ^ (8 * p) < 2 ^ (8 * (p + m)) := by
        rw [hend, Nat.mul_comm]
        exact Nat.mul_lt_mul_of_pos_left (Nat.mod_lt _ (Nat.two_pow_pos _)) (Nat.two_pow_pos _)
      obtain ⟨d, rfl⟩ := Nat.exists_eq_add_of_le (hl.field_bounds hf).1
      rw [← ih hl hf, Nat.mul_add 8 (p + m), Nat.pow_add, ← Nat.div_div_eq_div_mul, ← Nat.div_div_eq_div_mul, hc,
        Nat.add_mul_div_left _ _ (Nat.two_pow_pos _), Nat.div_eq_of_lt hbelow, Nat.mul_div_cancel_left _ (Nat.two_pow_pos _), Nat.zero_add]

theorem field_layout (h : Ascending a n l) (hf : (o, k, v) ∈ l) : field (layout n l) o k = v % 2 ^ (8 * k) := by
  rw [layout_eq_bytesOf, field_bytesOf (h.field_bounds hf).2, h.layoutNat_field hf]

/-! ## Trap records (R336) -/

/-- The fields of a trap record, with the two runs of bytes that hold zero. -/
def TrapRec.fields (r : TrapRec) : List (Nat × Nat × Nat) :=
  let t := r.trap
  [(0x00, 8, r.seq), (0x08, 1, t.cause.code), (0x09, 1, t.kind), (0x0A, 1, r.part), (0x0B, 1, r.core), (0x0C, 4, r.bnum), (0x10, 8, r.lra.toNat),
    (0x18, 8, t.pc.toNat), (0x20, 8, t.tpc.toNat), (0x28, 1, t.slc), (0x29, 1, t.thr), (0x2A, 2, 0), (0x2C, 4, t.unit), (0x30, 8, t.ea),
    (0x38, 12, t.word.toNat), (0x44, 4, t.info), (0x48, 8, t.info2), (0x50, 16, t.ext.toNat), (0x60, 8, r.cfa), (0x68, 8, r.clk), (0x70, 16, 0)]

theorem TrapRec.fields_ascending (r : TrapRec) : Ascending 0 128 r.fields := by simp [fields, Ascending]

theorem recordBytes_eq_layout (r : TrapRec) : recordBytes r = layout 128 r.fields := by
  simp only [recordBytes, layout, TrapRec.fields, List.map_cons, List.map_nil, sumNat, Nat.zero_mod, Nat.zero_mul, Nat.zero_add]

theorem recordBytes_field (r : TrapRec) : ∀ f ∈ r.fields, field (recordBytes r) f.1 f.2.1 = f.2.2 % 2 ^ (8 * f.2.1) :=
  fun _ hf => recordBytes_eq_layout r ▸ field_layout r.fields_ascending hf

theorem length_recordBytes (r : TrapRec) : (recordBytes r).length = 128 := length_bytesOf 128 _

/-! ## Causes (R337) -/

theorem mem_allCauses (c : Cause) : c ∈ allCauses := by cases c <;> decide

theorem Cause.code_mod (c : Cause) : c.code % 2 ^ 8 = c.code :=
  Nat.mod_eq_of_lt ((show ∀ c ∈ allCauses, c.code < 2 ^ 8 by decide) c (mem_allCauses c))

theorem Cause.code_injective : Function.Injective Cause.code := fun c d h =>
  List.inj_on_of_nodup_map (show (allCauses.map Cause.code).Nodup by decide) (mem_allCauses c) (mem_allCauses d) h

end Sys2Proof.Machine

open Sys2Proof Sys2Proof.Machine in
/-- Settles O55: the record is a layout whose fields, the zero ones included, ascend, so each is read back from its bytes; and no two causes of their
list share a code. -/
theorem trapRecordLayout : Obligations.TrapRecordLayout := by
  unfold Obligations.TrapRecordLayout
  refine ⟨fun r => ⟨length_recordBytes r, ?_⟩, by decide, mem_allCauses, fun c d h => Cause.code_injective h⟩
  have h := recordBytes_field r
  simp only [TrapRec.fields, List.forall_mem_cons, List.not_mem_nil, false_implies, implies_true, and_true, Nat.reduceMul, Cause.code_mod,
    BitVec.toNat_mod_cancel, Nat.zero_mod] at h
  exact h
end

section
/-! SUPPORT. The branches of taking a trap, and what each leaves in the blocks and among the trap records (R332, R336). -/

namespace Sys2Proof.Machine

/-! ## A record displaced -/

theorem mem_updFirst_of_not {α : Type} {p : α → Bool} {f : α → α} {a : α} {l : List α} (ha : a ∈ l) (hp : p a = false) : a ∈ updFirst p f l := by
  induction l with
  | nil => cases ha
  | cons x l ih =>
    rcases List.mem_cons.1 ha with rfl | ha
    · simp [updFirst, hp]
    · cases hx : p x
      · simp [updFirst, hx, ih ha]
      · simp [updFirst, hx, ha]

/-- The first element that satisfies `p` is the one changed. -/
theorem exists_mem_updFirst {α : Type} {p : α → Bool} (f : α → α) {l : List α} (h : ∃ a ∈ l, p a = true) :
    ∃ a, p a = true ∧ f a ∈ updFirst p f l := by
  induction l with
  | nil => simp at h
  | cons x l ih =>
    cases hx : p x
    · have hl : ∃ a ∈ l, p a = true := by simpa [hx] using h
      obtain ⟨a, hp, hm⟩ := ih hl
      exact ⟨a, hp, by simp [updFirst, hx, hm]⟩
    · exact ⟨x, hx, by simp [updFirst, hx]⟩

/-- The record of number `n` with its content taken by another event. -/
def displaceRecord (n : Nat) (t : Trap) (l : List TrapRec) : List TrapRec := updFirst (fun r => r.seq == n) (TrapRec.displaced t) l

theorem map_seq_displaceRecord (n : Nat) (t : Trap) (l : List TrapRec) : (displaceRecord n t l).map TrapRec.seq = l.map TrapRec.seq :=
  map_updFirst (f := TrapRec.displaced t) (fun _ _ => rfl) l

theorem mem_displaceRecord_other {n : Nat} {t : Trap} {r : TrapRec} {l : List TrapRec} (hr : r ∈ l) (hn : r.seq ≠ n) : r ∈ displaceRecord n t l :=
  mem_updFirst_of_not hr (by simpa using hn)

theorem exists_mem_displaceRecord {n : Nat} (t : Trap) {l : List TrapRec} (h : ∃ r ∈ l, r.seq = n) :
    ∃ r ∈ displaceRecord n t l, r.seq = n ∧ r.trap = t := by
  obtain ⟨r, hn, hr⟩ := exists_mem_updFirst (p := fun r => r.seq == n) (TrapRec.displaced t) (by simpa using h)
  exact ⟨_, hr, beq_iff_eq.1 hn, rfl⟩

/-! ## The branches -/

/-- The record made of an event of a block. -/
def State.blockRecord (s : State) (b : Block) (t : Trap) : TrapRec where
  seq := s.seqNo
  part := b.part
  core := if b.loc = .saved then 0xFF else b.core
  bnum := b.bnum
  lra := (s.grid b.gid).lr.lra
  cfa := b.cfa
  clk := s.refClock
  bid := some b.bid
  logged := !t.cause.logged
  trap := t

theorem State.addRecord_block (s : State) (b : Block) (t : Trap) :
    s.addRecord (some b) t = { s with recs := s.recs ++ [s.blockRecord b t], seqNo := s.seqNo + 1 } := by
  cases h : b.loc <;> simp [State.addRecord, State.blockRecord, Block.core, h]

section
variable {s : State} {bid : Nat} {t u : Trap} {st n : Nat}

theorem State.takeTrap_running (hs : (s.blk bid).stop = none) :
    s.takeTrap bid t = State.modBlk { s with visit := none, recs := s.recs ++ [s.blockRecord (s.blk bid) t], seqNo := s.seqNo + 1 } bid
      (fun b => { b with stop := some { state := t.frameState, trap := some t, cycle := s.cycle bid }, trseq := s.seqNo }) := by
  simp only [State.takeTrap, hs, State.addRecord_block]
  rfl

theorem State.takeTrap_merges (hs : (s.blk bid).stop = some { state := st, trap := some u, cycle := n }) (h : n ≠ s.cycle bid ∨ t.before u = false) :
    s.takeTrap bid t = { s with visit := none } := by
  simp only [State.takeTrap, hs]
  exact if_neg (fun ⟨hn, hb⟩ => h.elim (· hn) (by simp [hb]))

theorem State.takeTrap_displaces (hs : (s.blk bid).stop = some { state := st, trap := some u, cycle := s.cycle bid }) (h : t.before u = true) :
    s.takeTrap bid t = State.modBlk { s with visit := none, recs := displaceRecord (s.blk bid).trseq t s.recs } bid
      (fun b => { b with stop := some { state := t.frameState, trap := some t, cycle := s.cycle bid } }) := by
  simp only [State.takeTrap, hs]
  exact if_pos ⟨trivial, h⟩

theorem State.takeTrap_preempted (hs : (s.blk bid).stop = some { state := st, trap := none, cycle := n }) : s.takeTrap bid t = { s with visit := none } := by
  simp only [State.takeTrap, hs]

end

theorem Trap.before_iff (t u : Trap) :
    t.before u = true ↔ u.kind ≠ 2 ∧ (t.kind = 2 ∨ t.slc < u.slc ∨ t.slc = u.slc ∧ t.thr < u.thr) := by
  simp [Trap.before, or_assoc]

theorem State.blk_preempt {s : State} {bid : Nat} (hb : (s.blocks.find? (fun b => b.bid == bid)).isSome) :
    (s.preempt bid).blk bid =
      if (s.blk bid).stop = none then { s.blk bid with stop := some { state := 1, trap := none }, trseq := 0 } else s.blk bid := by
  refine (blk_modBlk_same s (fun b => ?_) hb).trans ?_
  · split <;> rfl
  · cases hs : (s.blk bid).stop <;> simp

end Sys2Proof.Machine

open Sys2Proof Sys2Proof.Machine in
/-- Settles O53: each kind of stop chooses a branch of taking a trap, whose change of the block and of the records is read off it. -/
theorem trapStopsTheBlock : Obligations.TrapStopsTheBlock := by
  unfold Obligations.TrapStopsTheBlock
  intro s bid hb b
  refine ⟨fun t hs => ?running, fun t u st n hs => ⟨State.takeTrap_merges hs, ?displaces⟩, fun t st n => State.takeTrap_preempted, Trap.before_iff,
    fun hs => ⟨(State.blk_preempt hb).trans (if_pos hs), rfl⟩, fun hs => (State.blk_preempt hb).trans (if_neg hs)⟩
  case running =>
    rw [State.takeTrap_running hs]
    exact ⟨(blk_modBlk_same _ (by exact fun _ => rfl) hb).trans rfl, rfl, rfl, ⟨s.blockRecord b t, rfl, rfl, rfl, rfl, rfl, rfl, rfl, rfl⟩,
      fun n hn => (blk_modBlk_other _ (by exact fun _ => rfl) hn).trans rfl, rfl, rfl⟩
  case displaces =>
    rintro rfl hbef
    rw [State.takeTrap_displaces hs hbef]
    exact ⟨(blk_modBlk_same _ (by exact fun _ => rfl) hb).trans rfl, map_seq_displaceRecord .., fun r => mem_displaceRecord_other,
      exists_mem_displaceRecord t, rfl, rfl, fun k hk => (blk_modBlk_other _ (by exact fun _ => rfl) hk).trans rfl, rfl, rfl⟩
end
